-- ==== Sys2Proof/Word.lean ====
section
/-! DEFINITION. The widths of R11: byte, half, word, dword, and the 256-bit vector register. -/
namespace Sys2Proof

/-- R11: a byte. -/
abbrev Byte := BitVec 8
/-- R11: a word, the width of an instruction (R159). -/
abbrev Word := BitVec 32
/-- R11: a dword, the width of an x register and of an address (R78). -/
abbrev DWord := BitVec 64
/-- R11: a vector register, 32 bytes. -/
abbrev VWord := BitVec 256
/-- A tensor handle register, 64 bytes (R293). -/
abbrev HWord := BitVec 512
/-- A 5-bit register number (R173). -/
abbrev Reg := BitVec 5

end Sys2Proof
end

