-- ==== Sys2Proof/Syntax.lean ====
section
/-! DEFINITION. The instructions and the steps of the part: one constructor of `Instr` for each row of the opcode
table, and the types of their operands. -/
namespace Sys2Proof

/-- A register source with its F/E mode (R165, R168): `t = false` reads in block mode, `t = true` in trap mode. -/
structure Src where
  r : Reg
  t : Bool
  deriving DecidableEq, Repr

/-- The memory operand of a CM form (R166): base and scaled displacement, or base and index. -/
inductive MemOp
  | disp (b : Src) (d : BitVec 7)
  | index (b : Src) (i : Src) (sh : Bool)
  deriving DecidableEq, Repr

/-- The scopes of R110, coded as the sc field of R165. -/
inductive Scope | core | cl | qd | di | pk | sy
  deriving DecidableEq, Repr

/-- The mode of a store (R118). -/
inductive StMode | ef | ga
  deriving DecidableEq, Repr

/-- The format codes of R136. -/
inductive Fmt | f32 | f64 | f16 | bf16 | f8a | f8b | f4 | e8 | s8 | s16 | s32 | s64 | n8 | n16 | n32 | n64
  deriving DecidableEq, Repr

/-- The conditions of `cmp` and `cmpi` (R193). -/
inductive CmpCond | eq | ne | lt | ge | ltu | geu | tst | ntst
  deriving DecidableEq, Repr

/-- The combine modes of `cmp` (R193). -/
inductive Combine | set | and | or
  deriving DecidableEq, Repr

/-- The operations of `amo` (R227). -/
inductive AmoOp | add | and | or | xor | min | max | minu | maxu | swap
  deriving DecidableEq, Repr

/-- The conditions of `vcmp` (R259). -/
inductive VCond | eq | ne | lt | le
  deriving DecidableEq, Repr

/-- The operations of `hsca` (R299). -/
inductive ScatOp | plain | add | min | max
  deriving DecidableEq, Repr

/-! ### Arguments of the steps that have no encoding: what the outside world, or the order of events, supplies. -/

/-- Bytes on a link, lowest address first. -/
abbrev Bytes := List Byte

/-- What an answer brings from outside the package. `here`: the answer is the machine's own. `val`: the value a peer
(R133) or a host (R134) returns. `refused`: PEER code (R452). `hostErr`: the host answered a load with an error (R469). -/
inductive Answer | here | val (v : DWord) | refused (code : BitVec 4) | hostErr
  deriving DecidableEq, Repr

/-- The result of a store at its completion: performed, or refused by a peer with a PEER code (R452). -/
inductive PeerRes | done | refused (code : BitVec 4)
  deriving DecidableEq, Repr

/-- A message that reaches a core: one of the package's own in flight, or one from a peer package (R352). -/
inductive MsgIn
  | flight (id : Nat)
  | peer (pkg : BitVec 10) (sender : BitVec 16) (tag : Byte) (prio : BitVec 2) (resent : Bool) (lid : BitVec 16)
      (link : DWord) (a1 a2 a3 a4 a5 a6 : DWord)
  | peerReply (id : Nat) (pkg : BitVec 10) (sender : BitVec 16) (status : DWord) (a1 a2 a3 a4 a5 : DWord)
  deriving DecidableEq, Repr

/-- A part that has a power state (R39): a core, a cluster, a quadrant, or a die. -/
inductive Part | core (n : Nat) | cluster (n : Nat) | quad (n : Nat) | die (n : Nat)
  deriving DecidableEq, Repr

/-- The answer of a host to a page request (R448). -/
inductive PriCode | success | invalid | failure
  deriving DecidableEq, Repr

/-- A link of R461 that has a status block (R464): fabric port p, or the die link of logical die d. -/
inductive LinkName | port (p : Nat) | die (d : Nat)
  deriving DecidableEq, Repr

/-- A flit at a receiver (R462): its sequence number, and whether its CRC holds; or an acknowledgement, or a replay
request, from the far end. -/
inductive Flit | data (seq : BitVec 12) (crcOk : Bool) | ack (seq : BitVec 12) | replay
  deriving DecidableEq, Repr

/-- The end of a retrain (R463). -/
inductive Retrain | full | laneLost | failed
  deriving DecidableEq, Repr

/-- A PCI Express function (R347). -/
inductive PcieFn | vf (n : Nat) | pf (port : Nat)
  deriving DecidableEq, Repr

/-- What a start-up meets (R357, R476): a firmware image as the checks of steps 2 and 3 find it, and the self-tests. -/
structure BootInput where
  rootOk : Bool          -- step 1
  flashOk : Bool         -- step 2: the image can be read
  cut : Bool             -- power is lost while the image is written to flash (R477)
  sigOk : Bool           -- step 2: LMS signature
  svn : Word             -- step 2: security version of the image
  version : DWord        -- R356 dword 2
  measureOk : Bool       -- step 3: every die's part matches its digest
  selfOk : Byte          -- step 4: physical dies that pass self-test
  hbmOk : Byte           -- step 4: physical dies that train their HBM
  spares : List Nat      -- step 4: quadrants where a cluster fails self-test and the spare stands in for it (R27)
  timeOk : Bool          -- step 5
  zeroOk : Bool          -- step 6
  fq : Option (BitVec 53 × BitVec 4)   -- step 6: the services context's fault queue, where the image names one (R498)
  deriving DecidableEq, Repr

/-- What a partition reset meets (R393): the partition's number, and the clusters that fail the self-test of its step 4 (R27). -/
structure ResetInput where
  part : Nat
  failed : List Nat
  deriving DecidableEq, Repr

/-- Where a code error is found (R376, R377): a word of an array of a core; scratchpad, accumulator store, a cluster data cache
with the channel of the line it holds; the L2 data or the HBM of a channel; an L2 tag or directory entry, with the channels whose
lines its set holds; the second tier; a context's control structures; shared logic of a die, with the context that the entry names;
a lookaside buffer; a request, copy, message or queue operation in flight of a context; queue-controller state. -/
inductive Site
  | core (n : Nat) (unit : Byte) (word : Nat)
  | spad (cl off : Nat)
  | acc (cl off : Nat)
  | cache (cl ch off : Nat)
  | hbm (ch off : Nat) (unit : Byte)
  | l2tags (ch : Nat) (set : List Nat) (entry : Nat)
  | tier1 (a : Nat)
  | control (ctx off : Nat)
  | shared (die : Nat) (unit : Byte) (word : Nat) (ctx : Option Nat)
  | plb (core entry : Nat)
  | flight (loc : BitVec 16) (unit : Byte) (word ctx : Nat)
  | queue (qid word : Nat)
  deriving DecidableEq, Repr

/-- A code error: where, whether its code corrects it (R377), and its syndrome (R398). `good`: no error at this read. -/
structure SoftError where
  site : Site
  good : Bool
  corrected : Bool
  syn : DWord := 0
  deriving DecidableEq, Repr

/-- A push from a peer package (R352): the sender's package, its offset in the window, and what is pushed. -/
structure PeerPush where
  pkg : BitVec 10
  offset : BitVec 44
  body : Bytes
  amo : Option (AmoOp × DWord)
  cas : Option (DWord × DWord)
  deriving DecidableEq, Repr

/-- A range of the management interface: MPA-targeted range-table entry (R93). -/
structure RangeReq where
  base : BitVec 53
  limit : BitVec 53
  target : BitVec 53
  dt : Bool
  scrub : Bool
  rights : BitVec 6
  deriving DecidableEq, Repr

/-- A creation request of the management interface for a depth-0 context (R498, R338, R96, R97). -/
structure MgmtCreate where
  running : Bool
  shoff : Byte
  shlen : BitVec 9
  cageoff : BitVec 13
  order : BitVec 4
  base : BitVec 12
  prio : BitVec 3
  scap : BitVec 3
  deadline : Word
  slice : Word
  budget : DWord
  trest : Bool
  ptroot : BitVec 53
  seed : BitVec 16
  dmask : Byte
  ltol : Word
  chmap : HWord
  svarea : BitVec 53
  lqring : BitVec 53
  lqcap : BitVec 4
  dqring : BitVec 53
  dqcap : BitVec 4
  fq : Option (BitVec 53 × BitVec 4)
  ranges : List RangeReq
  rights : List (Nat × Byte)
  deriving DecidableEq, Repr

/-- A host-visible register without a row of its own (R13): its block, and the index within it; the outstanding-request
allocation of a port's PRI capability (R349), the restart interval and the
restart area that management sets for a partition (R395), and the reset of a fabric
port (R353). -/
inductive HostReg
  | winbase (vf : Nat)
  | eltail
  | prtime (port : Nat)
  | priAlloc (port : Nat)
  | interval (part : Nat)
  | areaBase (part : Nat)
  | areaLen (part : Nat)
  | portReset (port : Nat)
  | raddr
  | rlen
  | rctl (port : Nat)
  | other (offset : Nat)
  deriving DecidableEq, Repr

/-- One constructor per row of the opcode table. The L bit of the word frame (R159) is not part of an instruction: it says whether
the word stands alone. -/
inductive Instr
  /-- R187. Integer add of two x registers, 64-bit or 32-bit with sign extension. -/
  | add (rd : Reg) (ra : Src) (rb : Src) (w : Bool)
  /-- R187. Integer subtract. -/
  | sub (rd : Reg) (ra : Src) (rb : Src) (w : Bool)
  /-- R187. Integer multiply, low W bits. -/
  | mul (rd : Reg) (ra : Src) (rb : Src) (w : Bool)
  /-- R187. High 64 bits of a signed 128-bit product. -/
  | mulh (rd : Reg) (ra : Src) (rb : Src)
  /-- R187. High 64 bits of an unsigned 128-bit product. -/
  | mulhu (rd : Reg) (ra : Src) (rb : Src)
  /-- R187. Signed division truncated toward zero, with defined results for zero and overflow. -/
  | div (rd : Reg) (ra : Src) (rb : Src) (w : Bool)
  /-- R187. Unsigned division. -/
  | divu (rd : Reg) (ra : Src) (rb : Src) (w : Bool)
  /-- R187. Signed remainder. -/
  | rem (rd : Reg) (ra : Src) (rb : Src) (w : Bool)
  /-- R187. Unsigned remainder. -/
  | remu (rd : Reg) (ra : Src) (rb : Src) (w : Bool)
  /-- R187. Bitwise and. -/
  | and (rd : Reg) (ra : Src) (rb : Src)
  /-- R187. Bitwise or. -/
  | or (rd : Reg) (ra : Src) (rb : Src)
  /-- R187. Bitwise exclusive or. -/
  | xor (rd : Reg) (ra : Src) (rb : Src)
  /-- R187. Shift left by the operand modulo the width. -/
  | shl (rd : Reg) (ra : Src) (rb : Src) (w : Bool)
  /-- R187. Logical shift right. -/
  | shr (rd : Reg) (ra : Src) (rb : Src) (w : Bool)
  /-- R187. Arithmetic shift right. -/
  | sra (rd : Reg) (ra : Src) (rb : Src) (w : Bool)
  /-- R187. Signed minimum. -/
  | min (rd : Reg) (ra : Src) (rb : Src)
  /-- R187. Signed maximum. -/
  | max (rd : Reg) (ra : Src) (rb : Src)
  /-- R187. Unsigned minimum. -/
  | minu (rd : Reg) (ra : Src) (rb : Src)
  /-- R187. Unsigned maximum. -/
  | maxu (rd : Reg) (ra : Src) (rb : Src)
  /-- R187. Saturating signed add. -/
  | adds (rd : Reg) (ra : Src) (rb : Src)
  /-- R187. Saturating signed subtract. -/
  | subs (rd : Reg) (ra : Src) (rb : Src)
  /-- R187. Count leading zero bits. -/
  | clz (rd : Reg) (ra : Src)
  /-- R187. Count trailing zero bits. -/
  | ctz (rd : Reg) (ra : Src)
  /-- R187. Count one bits. -/
  | popc (rd : Reg) (ra : Src)
  /-- R189. Add a sign-extended 13-bit immediate. -/
  | addi (rd : Reg) (ra : Src) (imm : BitVec 13)
  /-- R189. And with a sign-extended immediate. -/
  | andi (rd : Reg) (ra : Src) (imm : BitVec 13)
  /-- R189. Or with a sign-extended immediate. -/
  | ori (rd : Reg) (ra : Src) (imm : BitVec 13)
  /-- R189. Exclusive or with a sign-extended immediate. -/
  | xori (rd : Reg) (ra : Src) (imm : BitVec 13)
  /-- R190. Shift left by an immediate amount. -/
  | shli (rd : Reg) (ra : Src) (w : Bool) (amount : BitVec 6)
  /-- R190. Logical shift right by an immediate amount. -/
  | shri (rd : Reg) (ra : Src) (w : Bool) (amount : BitVec 6)
  /-- R190. Arithmetic shift right by an immediate amount. -/
  | srai (rd : Reg) (ra : Src) (w : Bool) (amount : BitVec 6)
  /-- R191. Load a 16-bit immediate at a 16-bit position, clearing other bits. -/
  | li (rd : Reg) (q : BitVec 2) (imm : BitVec 16)
  /-- R191. Insert a 16-bit immediate, keeping other bits. -/
  | lik (rd : Reg) (q : BitVec 2) (imm : BitVec 16)
  /-- R192. Write an effective address without accessing memory. -/
  | lea (rt : Reg) (m : MemOp)
  /-- R193. Compare two registers into a predicate, optionally combined. -/
  | cmp (pd : BitVec 3) (c : CmpCond) (cb : Combine) (ra : Src) (rb : Src)
  /-- R194. Compare a register with a 9-bit immediate into a predicate. -/
  | cmpi (pd : BitVec 3) (c : CmpCond) (ra : Src) (imm : BitVec 9)
  /-- R195. Predicate and. -/
  | pand (pd : BitVec 3) (pa : BitVec 4) (pb : BitVec 4)
  /-- R195. Predicate or. -/
  | por (pd : BitVec 3) (pa : BitVec 4) (pb : BitVec 4)
  /-- R195. Predicate exclusive or. -/
  | pxor (pd : BitVec 3) (pa : BitVec 4) (pb : BitVec 4)
  /-- R195. Predicate and-not. -/
  | pandn (pd : BitVec 3) (pa : BitVec 4) (pb : BitVec 4)
  /-- R195. Predicate not. -/
  | pnot (pd : BitVec 3) (pa : BitVec 4)
  /-- R195. Set a predicate. -/
  | pset (pd : BitVec 3)
  /-- R195. Clear a predicate. -/
  | pclr (pd : BitVec 3)
  /-- R195. Read all 16 predicates into an x register. -/
  | prd (rd : Reg)
  /-- R195. Write p0..p7 from an x register. -/
  | pwr (ra : Src)
  /-- R196. Select one of two registers by a predicate. -/
  | csel (rd : Reg) (pn : BitVec 4) (ra : Src) (rb : Src)
  /-- R196. Select by an inverted predicate. -/
  | cseln (rd : Reg) (pn : BitVec 4) (ra : Src) (rb : Src)
  /-- R197. Relative branch. -/
  | br (disp : BitVec 19)
  /-- R197. Branch if a predicate is true. -/
  | bp (pn : BitVec 4) (disp : BitVec 19)
  /-- R197. Branch if a predicate is false. -/
  | bpn (pn : BitVec 4) (disp : BitVec 19)
  /-- R197. Relative call writing a link register. -/
  | call (rd : Reg) (disp : BitVec 19)
  /-- R198. Jump to a register target. -/
  | jr (ra : Src)
  /-- R198. Call a register target, writing the link. -/
  | callr (rd : Reg) (ra : Src)
  /-- R198. Return through a register, as jr. -/
  | ret (ra : Src)
  /-- R200. Set hardware loop level 0 with an immediate count. -/
  | lpset0 (count : BitVec 12) (disp : BitVec 12)
  /-- R200. Set hardware loop level 1 with an immediate count. -/
  | lpset1 (count : BitVec 12) (disp : BitVec 12)
  /-- R200. Set hardware loop level 0 with a register count. -/
  | lpsetr0 (rc : Src) (disp : BitVec 12)
  /-- R200. Set hardware loop level 1 with a register count. -/
  | lpsetr1 (rc : Src) (disp : BitVec 12)
  /-- R204. Create a light fibre in the lowest free entry 1..223. -/
  | spawn (rd : Reg) (ra : Src) (level : BitVec 2)
  /-- R205. Let other ready fibres of the same level issue first. -/
  | yield
  /-- R206. Retire the issuing fibre after its producers land. -/
  | exit
  /-- R207. Service call: freeze with class SYS past the word. -/
  | sys (num : BitVec 12)
  /-- R207. Breakpoint: freeze with class BRK at the word. -/
  | brk (num : BitVec 12)
  /-- R208. Read a special register. -/
  | mfs (rd : Reg) (spr : BitVec 13)
  /-- R208. Write a special register, with FCTL/FSTATUS and MXISSUER timing. -/
  | mts (spr : BitVec 13) (ra : Src)
  /-- R130. Discard prefetched instructions and invalidate the cluster instruction cache. -/
  | ifence
  /-- R210. Mark a checkpoint; stop here if a pre-emption request is pending. -/
  | ckpt (ra : Src)
  /-- R211. Wait until a masked hardware condition p8..p15 is true and return them. -/
  | wfe (rd : Reg) (mask : BitVec 8)
  /-- R216. Create and compose a child context in state Created. -/
  | ctxnew (rd : Reg) (ra : Src)
  /-- R217. Add range entries, rights, capabilities and budget to a descendant. -/
  | ctxgrant (rd : Reg) (ra : Src) (rb : Src)
  /-- R220. Revoke a descendant subtree from any state. -/
  | ctxrevoke (rd : Reg) (ra : Src) (tk : BitVec 3)
  /-- R218. Move a Created or Stopped descendant to Running. -/
  | ctxstart (rd : Reg) (ra : Src)
  /-- R218. Stop a Running descendant and its Running descendants. -/
  | ctxstop (rd : Reg) (ra : Src) (tk : BitVec 3)
  /-- R219. Write a Stopped subtree to an image and free its shares and cages. -/
  | ctxsave (rd : Reg) (ra : Src) (rb : Src) (tk : BitVec 3)
  /-- R219. Read an image into a Saved target, making it Stopped. -/
  | ctxload (rd : Reg) (ra : Src) (rb : Src) (tk : BitVec 3)
  /-- R221. Return one item of a context's state. -/
  | ctxinfo (rd : Reg) (ra : Src) (rb : Src)
  /-- R222. Copy a fault packet to the next accepting ancestor's fault queue. -/
  | reflect (rd : Reg) (ra : Src)
  /-- R224. Load a byte, sign-extended. -/
  | ldB (rt : Reg) (m : MemOp) (sc : Scope)
  /-- R224. Load a byte, zero-extended. -/
  | ldBu (rt : Reg) (m : MemOp) (sc : Scope)
  /-- R224. Load a half, sign-extended. -/
  | ldH (rt : Reg) (m : MemOp) (sc : Scope)
  /-- R224. Load a half, zero-extended. -/
  | ldHu (rt : Reg) (m : MemOp) (sc : Scope)
  /-- R224. Load a word, sign-extended. -/
  | ldW (rt : Reg) (m : MemOp) (sc : Scope)
  /-- R224. Load a word, zero-extended. -/
  | ldWu (rt : Reg) (m : MemOp) (sc : Scope)
  /-- R224. Load a dword. -/
  | ldD (rt : Reg) (m : MemOp) (sc : Scope)
  /-- R226. Load 32 bytes into a v register. -/
  | ldv (rt : Reg) (m : MemOp) (sc : Scope)
  /-- R225. Store a byte. -/
  | stB (m : MemOp) (rt : Src) (sc : Scope) (md : StMode)
  /-- R225. Store a half. -/
  | stH (m : MemOp) (rt : Src) (sc : Scope) (md : StMode)
  /-- R225. Store a word. -/
  | stW (m : MemOp) (rt : Src) (sc : Scope) (md : StMode)
  /-- R225. Store a dword, early-forwarded or globally acknowledged. -/
  | stD (m : MemOp) (rt : Src) (sc : Scope) (md : StMode)
  /-- R226. Store 32 bytes from a v register. -/
  | stv (m : MemOp) (rt : Src) (sc : Scope) (md : StMode)
  /-- R227. Indivisible read-modify-write of a dword, performed as .ga. -/
  | amo (op : AmoOp) (rd : Reg) (ra : Src) (rb : Src) (sc : Scope)
  /-- R228. Indivisible compare-and-swap of a dword. -/
  | cas (rd : Reg) (ra : Src) (rb : Src) (sc : Scope)
  /-- R229. Wait until every earlier access is performed at the named scope. -/
  | fence (sc : Scope)
  /-- R230. Hold later stores until earlier stores are performed, without parking. -/
  | fenceW (sc : Scope)
  /-- R234. Deliver a syncinit setting a fill word's target and expected arrivals. -/
  | syncinit (rd : Reg) (ra : Src)
  /-- R234. Deliver one arrival to a fill word, returning its generation. -/
  | syncarr (rd : Reg) (ra : Src)
  /-- R234. Wait until a fill word's generation differs from the given one. -/
  | syncwait (rd : Reg) (ra : Src)
  /-- R236. Wait until no masked token is pending and idle the complete ones. -/
  | waitt (mask : BitVec 8)
  /-- R237. Return one complete masked token in rotating order. -/
  | waitany (rd : Reg) (mask : BitVec 8)
  /-- R238. Return one of eight fill words whose generation has changed. -/
  | waitanyF (rd : Reg) (ra : Src) (mask : BitVec 8)
  /-- R241. Send an active message, optionally reserving a reply slot. -/
  | sendm (rd : Reg) (ra : Src) (rb : Src)
  /-- R247. Send a reply on a valid link, including upcall and composer links. -/
  | reply (ra : Src) (rb : Src)
  /-- R246. Load a handler-table entry for a tag. -/
  | tagctlLd (ra : Src) (tag : BitVec 8)
  /-- R246. Enable a tag, delivering held messages. -/
  | tagctlEn (tag : BitVec 8)
  /-- R246. Disable a tag. -/
  | tagctlDis (tag : BitVec 8)
  /-- R246. Set pend for a tag. -/
  | tagctlPon (tag : BitVec 8)
  /-- R246. Clear pend for a tag. -/
  | tagctlPoff (tag : BitVec 8)
  /-- R246. Read a tag's handler-table entry. -/
  | tagctlRd (rd : Reg) (tag : BitVec 8)
  /-- R248. Enqueue an element on a queue-controller queue. -/
  | qenq (ra : Src) (rb : Src) (pn : BitVec 3)
  /-- R248. Dequeue the head element of a queue. -/
  | qdeq (rd : Reg) (ra : Src) (pn : BitVec 3)
  /-- R248. Take the tail element of a queue. -/
  | qsteal (rd : Reg) (ra : Src) (pn : BitVec 3)
  /-- R249. Bind q2 or q3 to a queue for enqueue. -/
  | qenqBind (q : BitVec 1) (ra : Src)
  /-- R249. Bind q2 or q3 to a queue for dequeue. -/
  | qdeqBind (q : BitVec 1) (ra : Src)
  /-- R249. Bind q2 or q3 to a queue for steal. -/
  | qstealBind (q : BitVec 1) (ra : Src)
  /-- R253. Prefetch a line into the cluster data cache. -/
  | pf (m : MemOp)
  /-- R253. Prefetch a line into its home L2. -/
  | pfL2 (m : MemOp)
  /-- R250. Pop one dword from a queue register. -/
  | qpop (rd : Reg) (q : BitVec 3) (fa : Bool)
  /-- R250. Push one dword to a queue register. -/
  | qpush (q : BitVec 3) (fa : Bool) (rb : Src)
  /-- R250. Pop four dwords into a v register. -/
  | qpopv (rd : Reg) (q : BitVec 3) (fa : Bool)
  /-- R250. Push four dwords from a v register. -/
  | qpushv (q : BitVec 3) (fa : Bool) (rb : Src)
  /-- R302. Dense matrix product request into an accumulator tile. -/
  | mma (c : BitVec 4) (ha : BitVec 3) (hb : BitVec 3) (k : BitVec 5)
  /-- R302. Matrix product with a seeded-sparse B operand. -/
  | mmas (c : BitVec 4) (ha : BitVec 3) (hb : BitVec 3) (k : BitVec 5)
  /-- R302. Chained product taking A from tiles through the down-converter. -/
  | mmac (c : BitVec 4) (src : BitVec 4) (hb : BitVec 3) (k : BitVec 5)
  /-- R291. Set the matrix formats and saturation in FMT. -/
  | mxfmt (sat : Bool) (fa : BitVec 4) (fb : BitVec 4) (fd : BitVec 4)
  /-- R305. Zero an accumulator tile. -/
  | accz (t : BitVec 4)
  /-- R306. Deliver tile rows to the issuer's q0. -/
  | accrd (t : BitVec 4) (ra : Src)
  /-- R307. Down-convert tile columns into the scratchpad through a handle. -/
  | accdc (t : BitVec 4) (hd : BitVec 3) (w : BitVec 5)
  /-- R296. Load a 64-byte handle, checking its binding. -/
  | hld (ht : BitVec 3) (m : MemOp) (sc : Scope)
  /-- R296. Store a 64-byte handle. -/
  | hst (m : MemOp) (ht : BitVec 3) (sc : Scope) (md : StMode)
  /-- R297. Write one handle dword, only narrowing its region. -/
  | hset (hd : BitVec 3) (idx : BitVec 3) (rb : Src)
  /-- R297. Read one handle dword. -/
  | hget (rd : Reg) (hs : BitVec 3) (idx : BitVec 3)
  /-- R298. Gather up to eight elements through a handle. -/
  | hgat (rd : Reg) (hs : BitVec 3) (rb : Src) (m : BitVec 3)
  /-- R299. Scatter up to eight elements through a handle, plain or atomic. -/
  | hsca (op : ScatOp) (hd : BitVec 3) (ra : Src) (rb : Src) (m : BitVec 3)
  /-- R287. Wait for a nonzero semaphore count and decrement it. -/
  | semwait (n : BitVec 4)
  /-- R287. Add to a semaphore count, saturating. -/
  | sempost (n : BitVec 4) (cnt : BitVec 6)
  /-- R312. Submit a copy to the cluster copy engine. -/
  | copy (rd : Reg) (ra : Src) (rb : Src) (sc : Scope)
  /-- R314. Submit a multicast copy to every cluster of a node. -/
  | copym (rd : Reg) (ra : Src) (rb : Src) (sc : Scope)
  /-- R315. Submit a copy to a package copy engine. -/
  | copyx (rd : Reg) (ra : Src) (rb : Src) (sc : Scope)
  /-- R255. Lane-wise add. -/
  | vadd (d : Reg) (a : Src) (b : Src) (m : BitVec 3) (t : Fmt)
  /-- R255. Lane-wise subtract. -/
  | vsub (d : Reg) (a : Src) (b : Src) (m : BitVec 3) (t : Fmt)
  /-- R255. Lane-wise multiply. -/
  | vmul (d : Reg) (a : Src) (b : Src) (m : BitVec 3) (t : Fmt)
  /-- R255. Lane-wise floating-point divide. -/
  | vdiv (d : Reg) (a : Src) (b : Src) (m : BitVec 3) (t : Fmt)
  /-- R255. Lane-wise minimum. -/
  | vmin (d : Reg) (a : Src) (b : Src) (m : BitVec 3) (t : Fmt)
  /-- R255. Lane-wise maximum. -/
  | vmax (d : Reg) (a : Src) (b : Src) (m : BitVec 3) (t : Fmt)
  /-- R255. Lane-wise square root. -/
  | vsqrt (d : Reg) (a : Src) (m : BitVec 3) (t : Fmt)
  /-- R255. Lane-wise and. -/
  | vand (d : Reg) (a : Src) (b : Src) (m : BitVec 3) (t : Fmt)
  /-- R255. Lane-wise or. -/
  | vor (d : Reg) (a : Src) (b : Src) (m : BitVec 3) (t : Fmt)
  /-- R255. Lane-wise exclusive or. -/
  | vxor (d : Reg) (a : Src) (b : Src) (m : BitVec 3) (t : Fmt)
  /-- R255. Lane-wise shift left. -/
  | vshl (d : Reg) (a : Src) (b : Src) (m : BitVec 3) (t : Fmt)
  /-- R255. Lane-wise logical shift right. -/
  | vshr (d : Reg) (a : Src) (b : Src) (m : BitVec 3) (t : Fmt)
  /-- R255. Lane-wise arithmetic shift right. -/
  | vsra (d : Reg) (a : Src) (b : Src) (m : BitVec 3) (t : Fmt)
  /-- R255. Lane-wise absolute value. -/
  | vabs (d : Reg) (a : Src) (m : BitVec 3) (t : Fmt)
  /-- R255. Lane-wise negation. -/
  | vneg (d : Reg) (a : Src) (m : BitVec 3) (t : Fmt)
  /-- R257. Fused multiply-add in f32. -/
  | vfmaF32 (d : Reg) (a : Src) (b : Src) (c : Src)
  /-- R257. Negated fused multiply-add in f32. -/
  | vfnmaF32 (d : Reg) (a : Src) (b : Src) (c : Src)
  /-- R257. Fused multiply-add in f64. -/
  | vfmaF64 (d : Reg) (a : Src) (b : Src) (c : Src)
  /-- R257. Negated fused multiply-add in f64. -/
  | vfnmaF64 (d : Reg) (a : Src) (b : Src) (c : Src)
  /-- R257. Fused multiply-add in f16. -/
  | vfmaF16 (d : Reg) (a : Src) (b : Src) (c : Src)
  /-- R257. Negated fused multiply-add in f16. -/
  | vfnmaF16 (d : Reg) (a : Src) (b : Src) (c : Src)
  /-- R257. Fused multiply-add in bf16. -/
  | vfmaBf16 (d : Reg) (a : Src) (b : Src) (c : Src)
  /-- R257. Negated fused multiply-add in bf16. -/
  | vfnmaBf16 (d : Reg) (a : Src) (b : Src) (c : Src)
  /-- R259. Lane-wise compare into a mask register. -/
  | vcmp (cond : VCond) (k : BitVec 3) (a : Src) (b : Src) (m : BitVec 3) (t : Fmt)
  /-- R260. Select lanes of two sources by a mask. -/
  | vsel (d : Reg) (a : Src) (b : Src) (m : BitVec 3) (t : Fmt)
  /-- R261. Lane conversion between formats as t selects. -/
  | vcvt (d : Reg) (a : Src) (b : Src) (m : BitVec 3) (form : BitVec 4)
  /-- R262. Broadcast an x register into every lane. -/
  | vbcast (d : Reg) (a : Src) (t : Fmt)
  /-- R262. Move one lane to an x register. -/
  | vmovx (d : Reg) (a : Src) (t : Fmt) (lane : BitVec 9)
  /-- R263. Permute lanes by an index vector. -/
  | vperm (d : Reg) (a : Src) (b : Src) (m : BitVec 3) (t : Fmt)
  /-- R263. Interleave low lanes of two sources. -/
  | vzip (d : Reg) (a : Src) (b : Src) (m : BitVec 3) (t : Fmt)
  /-- R263. Take even lanes of two sources. -/
  | vunzip (d : Reg) (a : Src) (b : Src) (m : BitVec 3) (t : Fmt)
  /-- R264. Pairwise-tree sum reduction into lane 0. -/
  | vrsum (d : Reg) (a : Src) (m : BitVec 3) (t : Fmt)
  /-- R264. Maximum reduction into lane 0. -/
  | vrmax (d : Reg) (a : Src) (m : BitVec 3) (t : Fmt)
  /-- R264. Minimum reduction into lane 0. -/
  | vrmin (d : Reg) (a : Src) (m : BitVec 3) (t : Fmt)
  /-- R265. bf16 pair dot product accumulated into f32 lanes. -/
  | vdot (d : Reg) (a : Src) (b : Src) (m : BitVec 3)
  /-- R266. Mask and. -/
  | kand (d : BitVec 3) (a : BitVec 3) (b : BitVec 3)
  /-- R266. Mask or. -/
  | kor (d : BitVec 3) (a : BitVec 3) (b : BitVec 3)
  /-- R266. Mask exclusive or. -/
  | kxor (d : BitVec 3) (a : BitVec 3) (b : BitVec 3)
  /-- R266. Mask and-not. -/
  | kandn (d : BitVec 3) (a : BitVec 3) (b : BitVec 3)
  /-- R266. Mask not. -/
  | knot (d : BitVec 3) (a : BitVec 3)
  /-- R266. Mask from an x register. -/
  | kfromx (d : BitVec 3) (a : Src)
  /-- R266. Mask to an x register. -/
  | ktox (d : Reg) (a : BitVec 3)
  /-- R258. Lane-wise add of an immediate. -/
  | vaddi (d : Reg) (a : Src) (t : Fmt) (imm : BitVec 7)
  /-- R258. Lane-wise shift left by an immediate. -/
  | vshli (d : Reg) (a : Src) (t : Fmt) (amount : BitVec 6)
  /-- R258. Lane-wise logical shift right by an immediate. -/
  | vshri (d : Reg) (a : Src) (t : Fmt) (amount : BitVec 6)
  /-- R258. Lane-wise arithmetic shift right by an immediate. -/
  | vsrai (d : Reg) (a : Src) (t : Fmt) (amount : BitVec 6)
  /-- R271. Write one dword of an unbound stream descriptor. -/
  | scfg (u : BitVec 2) (a : Src) (idx : BitVec 3)
  /-- R271. Bind a stream unit for popping. -/
  | sbindPop (u : BitVec 2)
  /-- R271. Bind a stream unit for pushing. -/
  | sbindPush (u : BitVec 2)
  /-- R272. Drain pushes, discard fetched elements and unbind a stream unit. -/
  | sunbind (u : BitVec 2)
  /-- R272. Read a stream unit's status into an x register. -/
  | sstat (d : Reg) (u : BitVec 2)
  /-- R278. Capture a body and replay it an immediate number of times. -/
  | repImm (n : BitVec 5) (cnt : BitVec 16)
  /-- R278. Capture a body and replay it a register-given number of times. -/
  | repReg (n : BitVec 5) (a : Src)
  /-- R437. One block of a long context operation completes, advancing the progress word and completing the token at the end. -/
  | longOpBlock (core : Nat)
  /-- R233. Per-cycle update of a fill word by syncinits, counted bytes, arrivals or software writes. -/
  | fillWordUpdate (cl : Nat) (off : Nat)
  /-- R249. An enqueue-bound queue register's buffer offers its head element to the queue when it has space. -/
  | qregEnqueueDrain (core : Nat) (q : BitVec 1)
  /-- R249. A dequeue- or steal-bound queue register fetches an element ahead. -/
  | qregFetchAhead (core : Nat) (q : BitVec 1)
  /-- R303. The matrix unit starts the next accepted request in acceptance order. -/
  | matrixRequestStart (cl : Nat)
  /-- R303. A matrix request finishes; results become available and flags merge. -/
  | matrixRequestEnd (cl : Nat)
  /-- R292. The 24-cycle format change bubble has passed, allowing a request with a new FMT to start. -/
  | formatBubbleEnd (cl : Nat)
  /-- R306. One accrd dword enters q0 when q0 has room. -/
  | accrdDeliver (cl : Nat)
  /-- R312. A copy engine starts the next accepted copy. -/
  | copyEngineStart (id : Nat)
  /-- R124. The engine writes an owned destination line, releasing recalled accesses and counting bytes. -/
  | copyLineWrite (id : Nat) (line : Nat)
  /-- R313. Every source byte read; the released token completes. -/
  | copyReleased (id : Nat)
  /-- R313. Every destination byte performed at scope S; the visible token completes. -/
  | copyVisible (id : Nat)
  /-- R268. A pop-bound stream unit fetches an element ahead of the pops. -/
  | streamFetchAhead (core : Nat) (u : BitVec 2)
  /-- R274. A buffered pushed element becomes stores of its items. -/
  | streamPushStore (core : Nat) (u : BitVec 2)
  /-- R279. One execution of a captured body word from the repetition buffer. -/
  | replayWord (core : Nat)
  /-- R223. The answer of a load, pop, atomic, queue operation or message outcome lands, filling its register. -/
  | answerArrival (id : Nat) (ans : Answer)
  /-- R69. A ready fibre's age reaches 4095 and it is treated one level higher. -/
  | ageBoost (core : Nat) (entry : Nat)
  /-- R244. An active message or reply reaches a core's inbox and is accepted, held, parked or refused. -/
  | messageArrival (m : MsgIn)
  /-- R242. Hardware resends a refused message after its back-off. -/
  | messageResend (id : Nat)
  /-- R67. A waiting inbox message takes a free run-queue entry and starts a handler fibre. -/
  | handlerStart (core : Nat)
  /-- R422. A pending page-fault upcall starts a handler fibre from handler entry 0xFF. -/
  | upcallStart (core : Nat)
  /-- R321. A dispatcher examines head launch records and starts the first it can place. -/
  | dispatcherStep (quad : Nat)
  /-- R325. A placed crew starts on every core of its node at a tick boundary. -/
  | crewStart (id : Nat)
  /-- R329. A context's slice runs its length; pre-emption is requested or a new slice begins. -/
  | timeSliceExpiry (cl : Nat) (ctx : Nat)
  /-- R72. The checkpoint deadline expires; fibres stop and the whole share is saved. -/
  | checkpointDeadlineExpiry (cl : Nat) (ctx : Nat)
  /-- R77. A context becomes resident on a cluster: restore, reload cages, reopen and issue. -/
  | contextResume (cl : Nat) (ctx : Nat)
  /-- R77. A parked message moves from the cage buffer into the inbox as a slot frees. -/
  | parkedMessageMoveIn (core : Nat)
  /-- R10. One tick of the 100 MHz device time base. -/
  | timeBaseTick
  /-- R39. An idle part enters the deepest power state within the latency tolerance. -/
  | powerStateEntry (part : Part)
  /-- R40. A wake event ends the power state of every part it needs. -/
  | wakeEvent (part : Part)
  /-- R481. A die's clock moves one throttle step and the throttle block updates. -/
  | throttleStep (die : Nat)
  /-- R119. The home L2 grants ownership of a line, after every invalidation acknowledgement for .ga. -/
  | homeGrant (id : Nat) (sharers : BitVec 8)
  /-- R120. An invalidation lands on another die, performing an early-forwarded store there. -/
  | efInvalidationLands (id : Nat) (die : Nat)
  /-- R450. A home resends an unacknowledged invalidation after 10 ticks, isolating the die after the eighth. -/
  | invalidationResend (id : Nat) (die : Nat)
  /-- R471. PCI Express FLR of a VF resetting its bound context subtree. -/
  | functionLevelReset (fn : PcieFn)
  /-- R355. 38 ticks after arrival the frame is written to its slot and counted into the fill word. -/
  | frameDelivery (port : Nat)
  /-- R349. A PRI Page Request leaves the port once allocation and records allow. -/
  | pageRequestSend (port : Nat)
  /-- R448. A page request reaches prtime without response; joined fibres freeze with HOSTPG. -/
  | pageRequestTimeout (port : Nat) (group : Nat)
  /-- R393. Reset of one partition in eight steps after an uncorrectable error; the clusters that fail its self-test (R27). -/
  | partitionReset (p : ResetInput)
  /-- R395. The restart interval expires and a restart point of a subtree is taken. -/
  | restartPoint (ctx : Nat)
  /-- R385. The overman enqueues a waiting packet once its fault queue has 8 free elements. -/
  | faultPacketEnqueue (quad : Nat)
  /-- R397. Held error records are written as log space frees. -/
  | heldRecordFlush
  /-- R388. Store to an accept-table dword through an overman window. -/
  | acceptTableWrite (id : Nat)
  /-- R389. Debug command moving a frozen entry to ready. -/
  | debugRelease (id : Nat)
  /-- R389. Debug command retiring a frozen entry with the effects of exit. -/
  | debugRetire (id : Nat)
  /-- R389. A retired entry frees the cycle after its last producer lands. -/
  | retiredEntryFree (core : Nat) (entry : Nat)
  /-- R389. Write to a debug-area mirror, effective only on frozen state. -/
  | debugMirrorWrite (id : Nat)
  /-- R462. Sender resends from the first unacknowledged flit. -/
  | flitReplay (link : LinkName)
  /-- R401. A fibre reaches a word that is not an instruction (all-zero, all-ones, unassigned major, unlisted value, reserved bits) and freezes with ILL. -/
  | notAnInstruction (reason : Nat) (wh : Nat)
  /-- R442. The fetch of a unit's words faults (KIND, STAGE2, TFMT, RIGHTS or page fault) before any word is known, and the unit freezes or parks. -/
  | instructionFetchFault
  /-- R120. The completion of a store, peer push or host-backed store, or its refusal, reaches the issuing core, letting fences and releases that wait on it complete or routing a PEER packet. -/
  | storeCompletion (id : Nat) (res : PeerRes)
  /-- R349. The host's ATS translation completion for a host-backed access arrives at the trust die, either translating the address or reporting it not present so that a page request follows. -/
  | atsTranslationCompletion (port : Nat) (page : Nat) (present : Bool)
  /-- R38. The module controller signals a power or temperature limit. -/
  | throttleSignal (die : Nat) (cause : BitVec 8) (target : BitVec 4)
  /-- R450. The silent die reports its copies discarded; the waiting writer is granted. -/
  | isolationReport (id : Nat) (die : Nat)
  /-- R354. The last flit of a raw frame arrives at an ingress port. -/
  | frameArrival (port : Nat) (data : Bytes) (bad : Bool)
  /-- R353. Management write to a port's ingest block, enabling or disabling ingress after checks. -/
  | ingestConfigWrite (port : Nat) (dw : Nat) (v : BitVec 64)
  /-- R348. A dword write to LAUNCH enqueues a launch-record address for the bound context. -/
  | hostLaunchWrite (vf : Nat) (v : BitVec 64)
  /-- R348. Read-and-clear of the launch drop flag. -/
  | lstatRead (vf : Nat)
  /-- R348. Host sets the latency tolerance of the bound partition. -/
  | ltolWrite (vf : Nat) (v : BitVec 64)
  /-- R347. Write a binding-table entry binding a context to a VF. -/
  | vfBindingWrite (vf : Nat) (v : BitVec 64)
  /-- R348. Host read through BAR2 performed as a load under the bound context. -/
  | hostBar2Read (vf : Nat) (off : Nat) (size : Nat)
  /-- R134. Host posted write through BAR2 performed as a store. -/
  | hostBar2Write (vf : Nat) (off : Nat) (data : Bytes) (relaxed : Bool) (poisoned : Bool)
  /-- R13. Write to a register that has no row of its own. -/
  | registerWrite (reg : HostReg) (v : BitVec 64)
  /-- R448. A PRI Page Response arrives and acts on every joined fibre or copy. -/
  | pageResponse (port : Nat) (group : Nat) (rid : Nat) (code : PriCode)
  /-- R349. An ATS Invalidate Request completes after accesses under the old translation. -/
  | atsInvalidateRequest (port : Nat) (page : Nat)
  /-- R448. Clearing then setting PRI Enable clears a function's stopped mark. -/
  | priEnableToggle (rid : Nat)
  /-- R447. Read-and-clear of the dropped page-response count. -/
  | prdropRead (port : Nat)
  /-- R352. A push from a peer package is admitted by an export and performed or refused. -/
  | peerPushArrival (push : PeerPush)
  /-- R498. Management creates a depth-0 context, optionally with a fault queue. -/
  | mgmtCreateContext (req : MgmtCreate)
  /-- R498. Management sets or clears bits of a depth-0 context's accept dword. -/
  | mgmtSetAccept (ctx : Nat) (mask : BitVec 64) (set : Bool)
  /-- R351. Host assigns the package ID through management. -/
  | packageIdAssign (id : BitVec 10)
  /-- R351. Host writes a route-table entry. -/
  | routeTableWrite (pkg : Nat) (mask : BitVec 128)
  /-- R352. Host writes an export-table entry. -/
  | exportTableWrite (idx : Nat) (d0 : BitVec 64) (d1 : BitVec 64) (d2 : BitVec 64) (d3 : BitVec 64)
  /-- R357. Normal start-up from trust die reset through step 7. -/
  | moduleReset (boot : BootInput)
  /-- R477. Recovery loader reads, checks and starts an image from host memory. -/
  | recoveryGo (port : Nat) (boot : BootInput)
  /-- R477. Recovery load that first writes the image to flash. -/
  | recoveryProg (port : Nat) (boot : BootInput)
  /-- R478. Management request raising the fused minimum svn to the running svn. -/
  | svnRaise
  /-- R377. An access finds a code error, corrected or leading to partition reset. -/
  | softErrorDetect (e : SoftError)
  /-- R378. The scrubber reads and corrects a protected word on its period. -/
  | scrubRead (e : SoftError)
  /-- R397. Read-and-clear of the lost-record counts. -/
  | ellostRead
  /-- R462. A link receiver checks CRC and sequence of a flit, passing it on or asking replay. -/
  | flitReceive (link : LinkName) (flit : Flit)
  /-- R463. A retrain ends: full rate, one lane, spare lane, port down or die link failed. -/
  | retrainComplete (link : LinkName) (res : Retrain)
  /-- R464. Read-and-clear of a link's replay, CRC, retrain or bad-frame counters. -/
  | linkCounterRead (link : LinkName) (dw : Nat)
  /-- R464. Host command to retrain a link that is down or failed. -/
  | linkRetrainCommand (link : LinkName)
  /-- R469. A host port link goes down; pending page requests and host accesses fail. -/
  | hostLinkDown (port : Nat)
  /-- R450. No isolation report within 1000 ticks: machine check of the owning partition. -/
  | isolationTimeout (id : Nat) (die : Nat)
  /-- R480. Uncorrectable error in the trust die halts the package. -/
  | trustDieError
  /-- R482. Power loss signal: the error log is saved to flash before power goes. -/
  | powerLoss
  /-- R469. A host port's link trains and comes up again after it was down, so accesses naming that port can succeed again. -/
  | hostLinkUp (port : Nat)
  /-- R479. The host grants the services context range entries onto a partition's memory through the management interface. -/
  | mgmtRangeGrant (base : BitVec 53) (limit : BitVec 53) (target : BitVec 53) (rights : BitVec 6) (dt : Bool) (scrub : Bool)
  deriving DecidableEq, Repr

end Sys2Proof
end

