-- ==== Sys2Proof/WellFormed.lean ====
section
/-! DEFINITION. Which instructions the encoding admits: the listed values of each field (R401 reason 4), the reserved
fields of one instruction (reason 5) and the mode bit beside x0 (reason 6). The steps that have no encoding are not
admitted. -/
namespace Sys2Proof

/-- R254: the element width of a format code; f4 has none. -/
def Fmt.width : Fmt → Nat
  | .f64 | .s64 | .n64 => 64
  | .f32 | .s32 | .n32 => 32
  | .f16 | .bf16 | .s16 | .n16 => 16
  | .f8a | .f8b | .e8 | .s8 | .n8 => 8
  | .f4 => 4

/-- The IEEE formats 0x0 to 0x3 (R136). -/
def Fmt.isFloat : Fmt → Bool
  | .f32 | .f64 | .f16 | .bf16 => true
  | _ => false

/-- The signed integer formats 0x8 to 0xB. -/
def Fmt.isSigned : Fmt → Bool
  | .s8 | .s16 | .s32 | .s64 => true
  | _ => false

/-- The integer formats 0x8 to 0xF. -/
def Fmt.isInt : Fmt → Bool
  | .s8 | .s16 | .s32 | .s64 | .n8 | .n16 | .n32 | .n64 => true
  | _ => false

/-- t accepted 0x0-0x3, 0x8-0xF (R255). -/
def Fmt.isArith (t : Fmt) : Bool := t.isFloat || t.isInt

/-- R261: the forms of `vcvt` with one source, whose b and fb are reserved. -/
def cvtOneSource (form : BitVec 4) : Bool :=
  decide (form ∈ [2#4, 3#4, 4#4, 5#4, 6#4, 7#4, 9#4, 10#4, 11#4, 12#4, 13#4, 14#4])

/-- R168, R401 reason 6: the mode bit beside a source that names x0 is 0. -/
def Src.modeOk (x : Src) : Bool := !(x.r == 0#5 && x.t)

/-- The x sources of a memory operand. -/
def MemOp.srcs : MemOp → List Src
  | .disp b _ => [b]
  | .index b i _ => [b, i]

/-- R401 reason 4: every field holds a value that the instruction's tables list (the values the types leave open). -/
def Instr.valOk : Instr → Bool
  | .add _ _ _ _ => true
  | .sub _ _ _ _ => true
  | .mul _ _ _ _ => true
  | .mulh _ _ _ => true
  | .mulhu _ _ _ => true
  | .div _ _ _ _ => true
  | .divu _ _ _ _ => true
  | .rem _ _ _ _ => true
  | .remu _ _ _ _ => true
  | .and _ _ _ => true
  | .or _ _ _ => true
  | .xor _ _ _ => true
  | .shl _ _ _ _ => true
  | .shr _ _ _ _ => true
  | .sra _ _ _ _ => true
  | .min _ _ _ => true
  | .max _ _ _ => true
  | .minu _ _ _ => true
  | .maxu _ _ _ => true
  | .adds _ _ _ => true
  | .subs _ _ _ => true
  | .clz _ _ => true
  | .ctz _ _ => true
  | .popc _ _ => true
  | .addi _ _ _ => true
  | .andi _ _ _ => true
  | .ori _ _ _ => true
  | .xori _ _ _ => true
  | .shli _ _ w amount => (!w || decide (amount.toNat < 32))
  | .shri _ _ w amount => (!w || decide (amount.toNat < 32))
  | .srai _ _ w amount => (!w || decide (amount.toNat < 32))
  | .li _ _ _ => true
  | .lik _ _ _ => true
  | .lea _ _ => true
  | .cmp _ _ _ _ _ => true
  | .cmpi _ _ _ _ => true
  | .pand _ _ _ => true
  | .por _ _ _ => true
  | .pxor _ _ _ => true
  | .pandn _ _ _ => true
  | .pnot _ _ => true
  | .pset _ => true
  | .pclr _ => true
  | .prd _ => true
  | .pwr _ => true
  | .csel _ _ _ _ => true
  | .cseln _ _ _ _ => true
  | .br _ => true
  | .bp _ _ => true
  | .bpn _ _ => true
  | .call _ _ => true
  | .jr _ => true
  | .callr _ _ => true
  | .ret _ => true
  | .lpset0 _ disp => disp != 0#12
  | .lpset1 _ disp => disp != 0#12
  | .lpsetr0 _ disp => disp != 0#12
  | .lpsetr1 _ disp => disp != 0#12
  | .spawn _ _ _ => true
  | .yield => true
  | .exit => true
  | .sys _ => true
  | .brk _ => true
  | .mfs _ _ => true
  | .mts _ _ => true
  | .ifence => true
  | .ckpt _ => true
  | .wfe _ _ => true
  | .ctxnew _ _ => true
  | .ctxgrant _ _ _ => true
  | .ctxrevoke _ _ _ => true
  | .ctxstart _ _ => true
  | .ctxstop _ _ _ => true
  | .ctxsave _ _ _ _ => true
  | .ctxload _ _ _ _ => true
  | .ctxinfo _ _ _ => true
  | .reflect _ _ => true
  | .ldB _ _ _ => true
  | .ldBu _ _ _ => true
  | .ldH _ _ _ => true
  | .ldHu _ _ _ => true
  | .ldW _ _ _ => true
  | .ldWu _ _ _ => true
  | .ldD _ _ _ => true
  | .ldv _ _ _ => true
  | .stB _ _ _ _ => true
  | .stH _ _ _ _ => true
  | .stW _ _ _ _ => true
  | .stD _ _ _ _ => true
  | .stv _ _ _ _ => true
  | .amo _ _ _ _ _ => true
  | .cas _ _ _ _ => true
  | .fence _ => true
  | .fenceW _ => true
  | .syncinit _ _ => true
  | .syncarr _ _ => true
  | .syncwait _ _ => true
  | .waitt _ => true
  | .waitany _ _ => true
  | .waitanyF _ _ _ => true
  | .sendm _ _ rb => decide (rb.r.toNat ≤ 26)
  | .reply _ rb => decide (rb.r.toNat ≤ 27)
  | .tagctlLd _ _ => true
  | .tagctlEn _ => true
  | .tagctlDis _ => true
  | .tagctlPon _ => true
  | .tagctlPoff _ => true
  | .tagctlRd _ _ => true
  | .qenq _ _ _ => true
  | .qdeq _ _ _ => true
  | .qsteal _ _ _ => true
  | .qenqBind _ _ => true
  | .qdeqBind _ _ => true
  | .qstealBind _ _ => true
  | .pf _ => true
  | .pfL2 _ => true
  | .qpop _ q _ => decide (q.toNat ≤ 5)
  | .qpush q _ _ => decide (2 ≤ q.toNat ∧ q.toNat ≤ 5)
  | .qpopv _ q _ => decide (q.toNat ≤ 5)
  | .qpushv q _ _ => decide (2 ≤ q.toNat ∧ q.toNat ≤ 5)
  | .mma _ _ _ _ => true
  | .mmas _ _ _ _ => true
  | .mmac _ _ _ _ => true
  | .mxfmt _ _ _ _ => true
  | .accz _ => true
  | .accrd _ _ => true
  | .accdc _ _ _ => true
  | .hld _ _ _ => true
  | .hst _ _ _ _ => true
  | .hset _ _ _ => true
  | .hget _ _ _ => true
  | .hgat _ _ _ _ => true
  | .hsca _ _ _ _ _ => true
  | .semwait _ => true
  | .sempost _ _ => true
  | .copy _ _ _ sc => decide (sc ≠ .core)
  | .copym _ _ _ sc => decide (sc ≠ .core)
  | .copyx _ _ _ sc => decide (sc ≠ .core)
  | .vadd _ _ _ _ t => t.isArith
  | .vsub _ _ _ _ t => t.isArith
  | .vmul _ _ _ _ t => t.isArith
  | .vdiv _ _ _ _ t => t.isFloat
  | .vmin _ _ _ _ t => t.isArith
  | .vmax _ _ _ _ t => t.isArith
  | .vsqrt _ _ _ t => t.isFloat
  | .vand _ _ _ _ t => t.isInt
  | .vor _ _ _ _ t => t.isInt
  | .vxor _ _ _ _ t => t.isInt
  | .vshl _ _ _ _ t => t.isInt
  | .vshr _ _ _ _ t => t.isInt
  | .vsra _ _ _ _ t => t.isInt
  | .vabs _ _ _ t => (t.isFloat || t.isSigned)
  | .vneg _ _ _ t => (t.isFloat || t.isSigned)
  | .vfmaF32 _ _ _ _ => true
  | .vfnmaF32 _ _ _ _ => true
  | .vfmaF64 _ _ _ _ => true
  | .vfnmaF64 _ _ _ _ => true
  | .vfmaF16 _ _ _ _ => true
  | .vfnmaF16 _ _ _ _ => true
  | .vfmaBf16 _ _ _ _ => true
  | .vfnmaBf16 _ _ _ _ => true
  | .vcmp _ _ _ _ _ t => t.isArith
  | .vsel _ _ _ m t => (t.isInt && m != 0#3)
  | .vcvt _ _ _ _ _ => true
  | .vbcast _ _ t => t.isArith
  | .vmovx _ _ t lane => (t.isArith && decide (lane.toNat < 256 / t.width))
  | .vperm _ _ _ _ t => t.isInt
  | .vzip _ _ _ _ t => t.isInt
  | .vunzip _ _ _ _ t => t.isInt
  | .vrsum _ _ _ t => t.isArith
  | .vrmax _ _ _ t => t.isArith
  | .vrmin _ _ _ t => t.isArith
  | .vdot _ _ _ _ => true
  | .kand _ _ _ => true
  | .kor _ _ _ => true
  | .kxor _ _ _ => true
  | .kandn _ _ _ => true
  | .knot _ _ => true
  | .kfromx _ _ => true
  | .ktox _ _ => true
  | .vaddi _ _ t _ => t.isInt
  | .vshli _ _ t amount => (t.isInt && decide (amount.toNat < t.width))
  | .vshri _ _ t amount => (t.isInt && decide (amount.toNat < t.width))
  | .vsrai _ _ t amount => (t.isInt && decide (amount.toNat < t.width))
  | .scfg _ _ idx => idx != 7#3
  | .sbindPop _ => true
  | .sbindPush _ => true
  | .sunbind _ => true
  | .sstat _ _ => true
  | .repImm _ _ => true
  | .repReg _ _ => true
  | .longOpBlock _ => true
  | .fillWordUpdate _ _ => true
  | .qregEnqueueDrain _ _ => true
  | .qregFetchAhead _ _ => true
  | .matrixRequestStart _ => true
  | .matrixRequestEnd _ => true
  | .formatBubbleEnd _ => true
  | .accrdDeliver _ => true
  | .copyEngineStart _ => true
  | .copyLineWrite _ _ => true
  | .copyReleased _ => true
  | .copyVisible _ => true
  | .streamFetchAhead _ _ => true
  | .streamPushStore _ _ => true
  | .replayWord _ => true
  | .answerArrival _ _ => true
  | .ageBoost _ _ => true
  | .messageArrival _ => true
  | .messageResend _ => true
  | .handlerStart _ => true
  | .upcallStart _ => true
  | .dispatcherStep _ => true
  | .crewStart _ => true
  | .timeSliceExpiry _ _ => true
  | .checkpointDeadlineExpiry _ _ => true
  | .contextResume _ _ => true
  | .parkedMessageMoveIn _ => true
  | .timeBaseTick => true
  | .powerStateEntry _ => true
  | .wakeEvent _ => true
  | .throttleStep _ => true
  | .homeGrant _ _ => true
  | .efInvalidationLands _ _ => true
  | .invalidationResend _ _ => true
  | .isolationTimeout _ _ => true
  | .frameDelivery _ => true
  | .pageRequestSend _ => true
  | .pageRequestTimeout _ _ => true
  | .partitionReset _ => true
  | .restartPoint _ => true
  | .faultPacketEnqueue _ => true
  | .heldRecordFlush => true
  | .acceptTableWrite _ => true
  | .debugRelease _ => true
  | .debugRetire _ => true
  | .retiredEntryFree _ _ => true
  | .debugMirrorWrite _ => true
  | .flitReplay _ => true
  | .notAnInstruction _ _ => true
  | .instructionFetchFault => true
  | .storeCompletion _ _ => true
  | .atsTranslationCompletion _ _ _ => true
  | .throttleSignal _ _ _ => true
  | .isolationReport _ _ => true
  | .frameArrival _ _ _ => true
  | .ingestConfigWrite _ _ _ => true
  | .hostLaunchWrite _ _ => true
  | .lstatRead _ => true
  | .ltolWrite _ _ => true
  | .vfBindingWrite _ _ => true
  | .hostBar2Read _ _ _ => true
  | .hostBar2Write _ _ _ _ _ => true
  | .registerWrite _ _ => true
  | .pageResponse _ _ _ _ => true
  | .atsInvalidateRequest _ _ => true
  | .priEnableToggle _ => true
  | .prdropRead _ => true
  | .peerPushArrival _ => true
  | .mgmtCreateContext _ => true
  | .mgmtSetAccept _ _ _ => true
  | .packageIdAssign _ => true
  | .routeTableWrite _ _ => true
  | .exportTableWrite _ _ _ _ _ => true
  | .moduleReset _ => true
  | .recoveryGo _ _ => true
  | .recoveryProg _ _ => true
  | .svnRaise => true
  | .softErrorDetect _ => true
  | .scrubRead _ => true
  | .ellostRead => true
  | .flitReceive _ _ => true
  | .retrainComplete _ _ => true
  | .linkCounterRead _ _ => true
  | .linkRetrainCommand _ => true
  | .hostLinkDown _ => true
  | .functionLevelReset _ => true
  | .trustDieError => true
  | .powerLoss => true
  | .hostLinkUp _ => true
  | .mgmtRangeGrant _ _ _ _ _ _ => true

/-- R401 reason 5, where the reserved field depends on another: b and fb of a one-source `vcvt` (R261). -/
def Instr.resOk : Instr → Bool
  | .vcvt _ _ b _ form => !cvtOneSource form || (b.r == 0#5 && !b.t)
  | _ => true

/-- The x sources that an instruction's fields name, in field order. -/
def Instr.xsrcs : Instr → List Src
  | .add _ ra rb _ => [ra, rb]
  | .sub _ ra rb _ => [ra, rb]
  | .mul _ ra rb _ => [ra, rb]
  | .mulh _ ra rb => [ra, rb]
  | .mulhu _ ra rb => [ra, rb]
  | .div _ ra rb _ => [ra, rb]
  | .divu _ ra rb _ => [ra, rb]
  | .rem _ ra rb _ => [ra, rb]
  | .remu _ ra rb _ => [ra, rb]
  | .and _ ra rb => [ra, rb]
  | .or _ ra rb => [ra, rb]
  | .xor _ ra rb => [ra, rb]
  | .shl _ ra rb _ => [ra, rb]
  | .shr _ ra rb _ => [ra, rb]
  | .sra _ ra rb _ => [ra, rb]
  | .min _ ra rb => [ra, rb]
  | .max _ ra rb => [ra, rb]
  | .minu _ ra rb => [ra, rb]
  | .maxu _ ra rb => [ra, rb]
  | .adds _ ra rb => [ra, rb]
  | .subs _ ra rb => [ra, rb]
  | .clz _ ra => [ra]
  | .ctz _ ra => [ra]
  | .popc _ ra => [ra]
  | .addi _ ra _ => [ra]
  | .andi _ ra _ => [ra]
  | .ori _ ra _ => [ra]
  | .xori _ ra _ => [ra]
  | .shli _ ra _ _ => [ra]
  | .shri _ ra _ _ => [ra]
  | .srai _ ra _ _ => [ra]
  | .li _ _ _ => []
  | .lik _ _ _ => []
  | .lea _ m => m.srcs
  | .cmp _ _ _ ra rb => [ra, rb]
  | .cmpi _ _ ra _ => [ra]
  | .pand _ _ _ => []
  | .por _ _ _ => []
  | .pxor _ _ _ => []
  | .pandn _ _ _ => []
  | .pnot _ _ => []
  | .pset _ => []
  | .pclr _ => []
  | .prd _ => []
  | .pwr ra => [ra]
  | .csel _ _ ra rb => [ra, rb]
  | .cseln _ _ ra rb => [ra, rb]
  | .br _ => []
  | .bp _ _ => []
  | .bpn _ _ => []
  | .call _ _ => []
  | .jr ra => [ra]
  | .callr _ ra => [ra]
  | .ret ra => [ra]
  | .lpset0 _ _ => []
  | .lpset1 _ _ => []
  | .lpsetr0 rc _ => [rc]
  | .lpsetr1 rc _ => [rc]
  | .spawn _ ra _ => [ra]
  | .yield => []
  | .exit => []
  | .sys _ => []
  | .brk _ => []
  | .mfs _ _ => []
  | .mts _ ra => [ra]
  | .ifence => []
  | .ckpt ra => [ra]
  | .wfe _ _ => []
  | .ctxnew _ ra => [ra]
  | .ctxgrant _ ra rb => [ra, rb]
  | .ctxrevoke _ ra _ => [ra]
  | .ctxstart _ ra => [ra]
  | .ctxstop _ ra _ => [ra]
  | .ctxsave _ ra rb _ => [ra, rb]
  | .ctxload _ ra rb _ => [ra, rb]
  | .ctxinfo _ ra rb => [ra, rb]
  | .reflect _ ra => [ra]
  | .ldB _ m _ => m.srcs
  | .ldBu _ m _ => m.srcs
  | .ldH _ m _ => m.srcs
  | .ldHu _ m _ => m.srcs
  | .ldW _ m _ => m.srcs
  | .ldWu _ m _ => m.srcs
  | .ldD _ m _ => m.srcs
  | .ldv _ m _ => m.srcs
  | .stB m rt _ _ => m.srcs ++ [rt]
  | .stH m rt _ _ => m.srcs ++ [rt]
  | .stW m rt _ _ => m.srcs ++ [rt]
  | .stD m rt _ _ => m.srcs ++ [rt]
  | .stv m _ _ _ => m.srcs
  | .amo _ _ ra rb _ => [ra, rb]
  | .cas _ ra rb _ => [ra, rb]
  | .fence _ => []
  | .fenceW _ => []
  | .syncinit _ ra => [ra]
  | .syncarr _ ra => [ra]
  | .syncwait _ ra => [ra]
  | .waitt _ => []
  | .waitany _ _ => []
  | .waitanyF _ ra _ => [ra]
  | .sendm _ ra rb => [ra, rb]
  | .reply ra rb => [ra, rb]
  | .tagctlLd ra _ => [ra]
  | .tagctlEn _ => []
  | .tagctlDis _ => []
  | .tagctlPon _ => []
  | .tagctlPoff _ => []
  | .tagctlRd _ _ => []
  | .qenq ra rb _ => [ra, rb]
  | .qdeq _ ra _ => [ra]
  | .qsteal _ ra _ => [ra]
  | .qenqBind _ ra => [ra]
  | .qdeqBind _ ra => [ra]
  | .qstealBind _ ra => [ra]
  | .pf m => m.srcs
  | .pfL2 m => m.srcs
  | .qpop _ _ _ => []
  | .qpush _ _ rb => [rb]
  | .qpopv _ _ _ => []
  | .qpushv _ _ _ => []
  | .mma _ _ _ _ => []
  | .mmas _ _ _ _ => []
  | .mmac _ _ _ _ => []
  | .mxfmt _ _ _ _ => []
  | .accz _ => []
  | .accrd _ ra => [ra]
  | .accdc _ _ _ => []
  | .hld _ m _ => m.srcs
  | .hst m _ _ _ => m.srcs
  | .hset _ _ rb => [rb]
  | .hget _ _ _ => []
  | .hgat _ _ _ _ => []
  | .hsca _ _ _ _ _ => []
  | .semwait _ => []
  | .sempost _ _ => []
  | .copy _ ra rb _ => [ra, rb]
  | .copym _ ra rb _ => [ra, rb]
  | .copyx _ ra rb _ => [ra, rb]
  | .vadd _ _ _ _ _ => []
  | .vsub _ _ _ _ _ => []
  | .vmul _ _ _ _ _ => []
  | .vdiv _ _ _ _ _ => []
  | .vmin _ _ _ _ _ => []
  | .vmax _ _ _ _ _ => []
  | .vsqrt _ _ _ _ => []
  | .vand _ _ _ _ _ => []
  | .vor _ _ _ _ _ => []
  | .vxor _ _ _ _ _ => []
  | .vshl _ _ _ _ _ => []
  | .vshr _ _ _ _ _ => []
  | .vsra _ _ _ _ _ => []
  | .vabs _ _ _ _ => []
  | .vneg _ _ _ _ => []
  | .vfmaF32 _ _ _ _ => []
  | .vfnmaF32 _ _ _ _ => []
  | .vfmaF64 _ _ _ _ => []
  | .vfnmaF64 _ _ _ _ => []
  | .vfmaF16 _ _ _ _ => []
  | .vfnmaF16 _ _ _ _ => []
  | .vfmaBf16 _ _ _ _ => []
  | .vfnmaBf16 _ _ _ _ => []
  | .vcmp _ _ _ _ _ _ => []
  | .vsel _ _ _ _ _ => []
  | .vcvt _ _ _ _ _ => []
  | .vbcast _ a _ => [a]
  | .vmovx _ _ _ _ => []
  | .vperm _ _ _ _ _ => []
  | .vzip _ _ _ _ _ => []
  | .vunzip _ _ _ _ _ => []
  | .vrsum _ _ _ _ => []
  | .vrmax _ _ _ _ => []
  | .vrmin _ _ _ _ => []
  | .vdot _ _ _ _ => []
  | .kand _ _ _ => []
  | .kor _ _ _ => []
  | .kxor _ _ _ => []
  | .kandn _ _ _ => []
  | .knot _ _ => []
  | .kfromx _ a => [a]
  | .ktox _ _ => []
  | .vaddi _ _ _ _ => []
  | .vshli _ _ _ _ => []
  | .vshri _ _ _ _ => []
  | .vsrai _ _ _ _ => []
  | .scfg _ a _ => [a]
  | .sbindPop _ => []
  | .sbindPush _ => []
  | .sunbind _ => []
  | .sstat _ _ => []
  | .repImm _ _ => []
  | .repReg _ a => [a]
  | .longOpBlock _ => []
  | .fillWordUpdate _ _ => []
  | .qregEnqueueDrain _ _ => []
  | .qregFetchAhead _ _ => []
  | .matrixRequestStart _ => []
  | .matrixRequestEnd _ => []
  | .formatBubbleEnd _ => []
  | .accrdDeliver _ => []
  | .copyEngineStart _ => []
  | .copyLineWrite _ _ => []
  | .copyReleased _ => []
  | .copyVisible _ => []
  | .streamFetchAhead _ _ => []
  | .streamPushStore _ _ => []
  | .replayWord _ => []
  | .answerArrival _ _ => []
  | .ageBoost _ _ => []
  | .messageArrival _ => []
  | .messageResend _ => []
  | .handlerStart _ => []
  | .upcallStart _ => []
  | .dispatcherStep _ => []
  | .crewStart _ => []
  | .timeSliceExpiry _ _ => []
  | .checkpointDeadlineExpiry _ _ => []
  | .contextResume _ _ => []
  | .parkedMessageMoveIn _ => []
  | .timeBaseTick => []
  | .powerStateEntry _ => []
  | .wakeEvent _ => []
  | .throttleStep _ => []
  | .homeGrant _ _ => []
  | .efInvalidationLands _ _ => []
  | .invalidationResend _ _ => []
  | .isolationTimeout _ _ => []
  | .frameDelivery _ => []
  | .pageRequestSend _ => []
  | .pageRequestTimeout _ _ => []
  | .partitionReset _ => []
  | .restartPoint _ => []
  | .faultPacketEnqueue _ => []
  | .heldRecordFlush => []
  | .acceptTableWrite _ => []
  | .debugRelease _ => []
  | .debugRetire _ => []
  | .retiredEntryFree _ _ => []
  | .debugMirrorWrite _ => []
  | .flitReplay _ => []
  | .notAnInstruction _ _ => []
  | .instructionFetchFault => []
  | .storeCompletion _ _ => []
  | .atsTranslationCompletion _ _ _ => []
  | .throttleSignal _ _ _ => []
  | .isolationReport _ _ => []
  | .frameArrival _ _ _ => []
  | .ingestConfigWrite _ _ _ => []
  | .hostLaunchWrite _ _ => []
  | .lstatRead _ => []
  | .ltolWrite _ _ => []
  | .vfBindingWrite _ _ => []
  | .hostBar2Read _ _ _ => []
  | .hostBar2Write _ _ _ _ _ => []
  | .registerWrite _ _ => []
  | .pageResponse _ _ _ _ => []
  | .atsInvalidateRequest _ _ => []
  | .priEnableToggle _ => []
  | .prdropRead _ => []
  | .peerPushArrival _ => []
  | .mgmtCreateContext _ => []
  | .mgmtSetAccept _ _ _ => []
  | .packageIdAssign _ => []
  | .routeTableWrite _ _ => []
  | .exportTableWrite _ _ _ _ _ => []
  | .moduleReset _ => []
  | .recoveryGo _ _ => []
  | .recoveryProg _ _ => []
  | .svnRaise => []
  | .softErrorDetect _ => []
  | .scrubRead _ => []
  | .ellostRead => []
  | .flitReceive _ _ => []
  | .retrainComplete _ _ => []
  | .linkCounterRead _ _ => []
  | .linkRetrainCommand _ => []
  | .hostLinkDown _ => []
  | .functionLevelReset _ => []
  | .trustDieError => []
  | .powerLoss => []
  | .hostLinkUp _ => []
  | .mgmtRangeGrant _ _ _ _ _ _ => []

/-- True for the instructions of the encoding tables, false for the steps that have no encoding. -/
def Instr.isEncoded : Instr → Bool
  | .add _ _ _ _ => true
  | .sub _ _ _ _ => true
  | .mul _ _ _ _ => true
  | .mulh _ _ _ => true
  | .mulhu _ _ _ => true
  | .div _ _ _ _ => true
  | .divu _ _ _ _ => true
  | .rem _ _ _ _ => true
  | .remu _ _ _ _ => true
  | .and _ _ _ => true
  | .or _ _ _ => true
  | .xor _ _ _ => true
  | .shl _ _ _ _ => true
  | .shr _ _ _ _ => true
  | .sra _ _ _ _ => true
  | .min _ _ _ => true
  | .max _ _ _ => true
  | .minu _ _ _ => true
  | .maxu _ _ _ => true
  | .adds _ _ _ => true
  | .subs _ _ _ => true
  | .clz _ _ => true
  | .ctz _ _ => true
  | .popc _ _ => true
  | .addi _ _ _ => true
  | .andi _ _ _ => true
  | .ori _ _ _ => true
  | .xori _ _ _ => true
  | .shli _ _ _ _ => true
  | .shri _ _ _ _ => true
  | .srai _ _ _ _ => true
  | .li _ _ _ => true
  | .lik _ _ _ => true
  | .lea _ _ => true
  | .cmp _ _ _ _ _ => true
  | .cmpi _ _ _ _ => true
  | .pand _ _ _ => true
  | .por _ _ _ => true
  | .pxor _ _ _ => true
  | .pandn _ _ _ => true
  | .pnot _ _ => true
  | .pset _ => true
  | .pclr _ => true
  | .prd _ => true
  | .pwr _ => true
  | .csel _ _ _ _ => true
  | .cseln _ _ _ _ => true
  | .br _ => true
  | .bp _ _ => true
  | .bpn _ _ => true
  | .call _ _ => true
  | .jr _ => true
  | .callr _ _ => true
  | .ret _ => true
  | .lpset0 _ _ => true
  | .lpset1 _ _ => true
  | .lpsetr0 _ _ => true
  | .lpsetr1 _ _ => true
  | .spawn _ _ _ => true
  | .yield => true
  | .exit => true
  | .sys _ => true
  | .brk _ => true
  | .mfs _ _ => true
  | .mts _ _ => true
  | .ifence => true
  | .ckpt _ => true
  | .wfe _ _ => true
  | .ctxnew _ _ => true
  | .ctxgrant _ _ _ => true
  | .ctxrevoke _ _ _ => true
  | .ctxstart _ _ => true
  | .ctxstop _ _ _ => true
  | .ctxsave _ _ _ _ => true
  | .ctxload _ _ _ _ => true
  | .ctxinfo _ _ _ => true
  | .reflect _ _ => true
  | .ldB _ _ _ => true
  | .ldBu _ _ _ => true
  | .ldH _ _ _ => true
  | .ldHu _ _ _ => true
  | .ldW _ _ _ => true
  | .ldWu _ _ _ => true
  | .ldD _ _ _ => true
  | .ldv _ _ _ => true
  | .stB _ _ _ _ => true
  | .stH _ _ _ _ => true
  | .stW _ _ _ _ => true
  | .stD _ _ _ _ => true
  | .stv _ _ _ _ => true
  | .amo _ _ _ _ _ => true
  | .cas _ _ _ _ => true
  | .fence _ => true
  | .fenceW _ => true
  | .syncinit _ _ => true
  | .syncarr _ _ => true
  | .syncwait _ _ => true
  | .waitt _ => true
  | .waitany _ _ => true
  | .waitanyF _ _ _ => true
  | .sendm _ _ _ => true
  | .reply _ _ => true
  | .tagctlLd _ _ => true
  | .tagctlEn _ => true
  | .tagctlDis _ => true
  | .tagctlPon _ => true
  | .tagctlPoff _ => true
  | .tagctlRd _ _ => true
  | .qenq _ _ _ => true
  | .qdeq _ _ _ => true
  | .qsteal _ _ _ => true
  | .qenqBind _ _ => true
  | .qdeqBind _ _ => true
  | .qstealBind _ _ => true
  | .pf _ => true
  | .pfL2 _ => true
  | .qpop _ _ _ => true
  | .qpush _ _ _ => true
  | .qpopv _ _ _ => true
  | .qpushv _ _ _ => true
  | .mma _ _ _ _ => true
  | .mmas _ _ _ _ => true
  | .mmac _ _ _ _ => true
  | .mxfmt _ _ _ _ => true
  | .accz _ => true
  | .accrd _ _ => true
  | .accdc _ _ _ => true
  | .hld _ _ _ => true
  | .hst _ _ _ _ => true
  | .hset _ _ _ => true
  | .hget _ _ _ => true
  | .hgat _ _ _ _ => true
  | .hsca _ _ _ _ _ => true
  | .semwait _ => true
  | .sempost _ _ => true
  | .copy _ _ _ _ => true
  | .copym _ _ _ _ => true
  | .copyx _ _ _ _ => true
  | .vadd _ _ _ _ _ => true
  | .vsub _ _ _ _ _ => true
  | .vmul _ _ _ _ _ => true
  | .vdiv _ _ _ _ _ => true
  | .vmin _ _ _ _ _ => true
  | .vmax _ _ _ _ _ => true
  | .vsqrt _ _ _ _ => true
  | .vand _ _ _ _ _ => true
  | .vor _ _ _ _ _ => true
  | .vxor _ _ _ _ _ => true
  | .vshl _ _ _ _ _ => true
  | .vshr _ _ _ _ _ => true
  | .vsra _ _ _ _ _ => true
  | .vabs _ _ _ _ => true
  | .vneg _ _ _ _ => true
  | .vfmaF32 _ _ _ _ => true
  | .vfnmaF32 _ _ _ _ => true
  | .vfmaF64 _ _ _ _ => true
  | .vfnmaF64 _ _ _ _ => true
  | .vfmaF16 _ _ _ _ => true
  | .vfnmaF16 _ _ _ _ => true
  | .vfmaBf16 _ _ _ _ => true
  | .vfnmaBf16 _ _ _ _ => true
  | .vcmp _ _ _ _ _ _ => true
  | .vsel _ _ _ _ _ => true
  | .vcvt _ _ _ _ _ => true
  | .vbcast _ _ _ => true
  | .vmovx _ _ _ _ => true
  | .vperm _ _ _ _ _ => true
  | .vzip _ _ _ _ _ => true
  | .vunzip _ _ _ _ _ => true
  | .vrsum _ _ _ _ => true
  | .vrmax _ _ _ _ => true
  | .vrmin _ _ _ _ => true
  | .vdot _ _ _ _ => true
  | .kand _ _ _ => true
  | .kor _ _ _ => true
  | .kxor _ _ _ => true
  | .kandn _ _ _ => true
  | .knot _ _ => true
  | .kfromx _ _ => true
  | .ktox _ _ => true
  | .vaddi _ _ _ _ => true
  | .vshli _ _ _ _ => true
  | .vshri _ _ _ _ => true
  | .vsrai _ _ _ _ => true
  | .scfg _ _ _ => true
  | .sbindPop _ => true
  | .sbindPush _ => true
  | .sunbind _ => true
  | .sstat _ _ => true
  | .repImm _ _ => true
  | .repReg _ _ => true
  | .longOpBlock _ => false
  | .fillWordUpdate _ _ => false
  | .qregEnqueueDrain _ _ => false
  | .qregFetchAhead _ _ => false
  | .matrixRequestStart _ => false
  | .matrixRequestEnd _ => false
  | .formatBubbleEnd _ => false
  | .accrdDeliver _ => false
  | .copyEngineStart _ => false
  | .copyLineWrite _ _ => false
  | .copyReleased _ => false
  | .copyVisible _ => false
  | .streamFetchAhead _ _ => false
  | .streamPushStore _ _ => false
  | .replayWord _ => false
  | .answerArrival _ _ => false
  | .ageBoost _ _ => false
  | .messageArrival _ => false
  | .messageResend _ => false
  | .handlerStart _ => false
  | .upcallStart _ => false
  | .dispatcherStep _ => false
  | .crewStart _ => false
  | .timeSliceExpiry _ _ => false
  | .checkpointDeadlineExpiry _ _ => false
  | .contextResume _ _ => false
  | .parkedMessageMoveIn _ => false
  | .timeBaseTick => false
  | .powerStateEntry _ => false
  | .wakeEvent _ => false
  | .throttleStep _ => false
  | .homeGrant _ _ => false
  | .efInvalidationLands _ _ => false
  | .invalidationResend _ _ => false
  | .isolationTimeout _ _ => false
  | .frameDelivery _ => false
  | .pageRequestSend _ => false
  | .pageRequestTimeout _ _ => false
  | .partitionReset _ => false
  | .restartPoint _ => false
  | .faultPacketEnqueue _ => false
  | .heldRecordFlush => false
  | .acceptTableWrite _ => false
  | .debugRelease _ => false
  | .debugRetire _ => false
  | .retiredEntryFree _ _ => false
  | .debugMirrorWrite _ => false
  | .flitReplay _ => false
  | .notAnInstruction _ _ => false
  | .instructionFetchFault => false
  | .storeCompletion _ _ => false
  | .atsTranslationCompletion _ _ _ => false
  | .throttleSignal _ _ _ => false
  | .isolationReport _ _ => false
  | .frameArrival _ _ _ => false
  | .ingestConfigWrite _ _ _ => false
  | .hostLaunchWrite _ _ => false
  | .lstatRead _ => false
  | .ltolWrite _ _ => false
  | .vfBindingWrite _ _ => false
  | .hostBar2Read _ _ _ => false
  | .hostBar2Write _ _ _ _ _ => false
  | .registerWrite _ _ => false
  | .pageResponse _ _ _ _ => false
  | .atsInvalidateRequest _ _ => false
  | .priEnableToggle _ => false
  | .prdropRead _ => false
  | .peerPushArrival _ => false
  | .mgmtCreateContext _ => false
  | .mgmtSetAccept _ _ _ => false
  | .packageIdAssign _ => false
  | .routeTableWrite _ _ => false
  | .exportTableWrite _ _ _ _ _ => false
  | .moduleReset _ => false
  | .recoveryGo _ _ => false
  | .recoveryProg _ _ => false
  | .svnRaise => false
  | .softErrorDetect _ => false
  | .scrubRead _ => false
  | .ellostRead => false
  | .flitReceive _ _ => false
  | .retrainComplete _ _ => false
  | .linkCounterRead _ _ => false
  | .linkRetrainCommand _ => false
  | .hostLinkDown _ => false
  | .functionLevelReset _ => false
  | .trustDieError => false
  | .powerLoss => false
  | .hostLinkUp _ => false
  | .mgmtRangeGrant _ _ _ _ _ _ => false

/-- R168, R401 reason 6: no mode bit beside x0 is 1. -/
def Instr.modeOk (i : Instr) : Bool := i.xsrcs.all Src.modeOk

/-- A well-formed instruction: one the encoding admits. -/
def Instr.wf (i : Instr) : Bool := i.isEncoded && i.valOk && i.resOk && i.modeOk

end Sys2Proof
end

