-- ==== Sys2Proof/Decode.lean ====
section
/-! DEFINITION. The decoder: total on 32-bit words, from the formats of R163 and R164, the opcode maps of R170 and R171
and each instruction's table, refusing by the reason of R401. After it, the encoder, from the same tables. -/
namespace Sys2Proof

/-! ### Codes of the named operands. -/

/-- The sc code of R165. -/
def Scope.code : Scope → BitVec 3
  | .core => 0#3 | .cl => 1#3 | .qd => 2#3 | .di => 3#3 | .pk => 4#3 | .sy => 5#3

/-- The scope of an sc code; 6 and 7 are reserved values. -/
def Scope.ofCode (c : BitVec 3) : Option Scope :=
  match c.toNat with
  | 0 => some .core | 1 => some .cl | 2 => some .qd | 3 => some .di | 4 => some .pk | 5 => some .sy | _ => none

/-- The ga bit of R165. -/
def StMode.code : StMode → Bool
  | .ef => false | .ga => true

/-- The mode of a ga bit. -/
def StMode.ofCode : Bool → StMode
  | false => .ef | true => .ga

/-- The format code of R136. -/
def Fmt.code : Fmt → BitVec 4
  | .f32 => 0#4 | .f64 => 1#4 | .f16 => 2#4 | .bf16 => 3#4 | .f8a => 4#4 | .f8b => 5#4 | .f4 => 6#4 | .e8 => 7#4
  | .s8 => 8#4 | .s16 => 9#4 | .s32 => 10#4 | .s64 => 11#4 | .n8 => 12#4 | .n16 => 13#4 | .n32 => 14#4 | .n64 => 15#4

/-- The format of a code (R136): every code names one. -/
def Fmt.ofCode (c : BitVec 4) : Fmt :=
  match c.toNat with
  | 0 => .f32 | 1 => .f64 | 2 => .f16 | 3 => .bf16 | 4 => .f8a | 5 => .f8b | 6 => .f4 | 7 => .e8
  | 8 => .s8 | 9 => .s16 | 10 => .s32 | 11 => .s64 | 12 => .n8 | 13 => .n16 | 14 => .n32 | _ => .n64

/-- The condition code of R193. -/
def CmpCond.code : CmpCond → BitVec 3
  | .eq => 0#3 | .ne => 1#3 | .lt => 2#3 | .ge => 3#3 | .ltu => 4#3 | .geu => 5#3 | .tst => 6#3 | .ntst => 7#3

/-- The condition of a 4-bit field: 8 to 15 are not listed (R193, R194). -/
def CmpCond.ofCode (c : BitVec 4) : Option CmpCond :=
  match c.toNat with
  | 0 => some .eq | 1 => some .ne | 2 => some .lt | 3 => some .ge | 4 => some .ltu | 5 => some .geu | 6 => some .tst
  | 7 => some .ntst | _ => none

/-- The combine code of R193. -/
def Combine.code : Combine → BitVec 2
  | .set => 0#2 | .and => 1#2 | .or => 2#2

/-- The combine mode of a code; 3 is not listed. -/
def Combine.ofCode (c : BitVec 2) : Option Combine :=
  match c.toNat with
  | 0 => some .set | 1 => some .and | 2 => some .or | _ => none

/-- The operation code of `amo` (R227). -/
def AmoOp.code : AmoOp → BitVec 4
  | .add => 0#4 | .and => 1#4 | .or => 2#4 | .xor => 3#4 | .min => 4#4 | .max => 5#4 | .minu => 6#4 | .maxu => 7#4
  | .swap => 8#4

/-- The operation of a code; 9 to 15 are not listed. -/
def AmoOp.ofCode (c : BitVec 4) : Option AmoOp :=
  match c.toNat with
  | 0 => some .add | 1 => some .and | 2 => some .or | 3 => some .xor | 4 => some .min | 5 => some .max | 6 => some .minu
  | 7 => some .maxu | 8 => some .swap | _ => none

/-- The condition code of `vcmp` (R259). -/
def VCond.code : VCond → BitVec 2
  | .eq => 0#2 | .ne => 1#2 | .lt => 2#2 | .le => 3#2

/-- The condition of a code. -/
def VCond.ofCode (c : BitVec 2) : VCond :=
  match c.toNat with
  | 0 => .eq | 1 => .ne | 2 => .lt | _ => .le

/-- The operation code of `hsca` (R297). -/
def ScatOp.code : ScatOp → BitVec 2
  | .plain => 0#2 | .add => 1#2 | .min => 2#2 | .max => 3#2

/-- The operation of a code. -/
def ScatOp.ofCode (c : BitVec 2) : ScatOp :=
  match c.toNat with
  | 0 => .plain | 1 => .add | 2 => .min | _ => .max

/-! ### The fields of a word (R159, R163, R164). -/

/-- The L bit: the word stands alone. -/
def wLone (w : Word) : Bool := w.getLsbD 31
/-- The class bit: A-class. -/
def wClass (w : Word) : Bool := w.getLsbD 30
/-- The major opcode. -/
def wMajor (w : Word) : BitVec 6 := w.extractLsb' 24 6
/-- Bits [23:19]: rd, rt, a of CB, d of A-class. -/
def wRd (w : Word) : Reg := w.extractLsb' 19 5
/-- Bits [18:14] and [13]: ra or rb of CM, with its mode. -/
def wSa (w : Word) : Src := ⟨w.extractLsb' 14 5, w.getLsbD 13⟩
/-- Bits [12:8] and [7]: rb, with its mode. -/
def wSb (w : Word) : Src := ⟨w.extractLsb' 8 5, w.getLsbD 7⟩
/-- Bits [6:0]: fn. -/
def wFn (w : Word) : BitVec 7 := w.extractLsb' 0 7
/-- Bits [12:0]: imm13 or code. -/
def wImm13 (w : Word) : BitVec 13 := w.extractLsb' 0 13
/-- Bits [18:0]: disp19. -/
def wDisp19 (w : Word) : BitVec 19 := w.extractLsb' 0 19

/-- The memory operand of a CM word: x [7], y [6:0] (R163). -/
def wMem (w : Word) : MemOp :=
  if w.getLsbD 7 then .index (wSa w) ⟨w.extractLsb' 2 5, w.getLsbD 1⟩ (w.getLsbD 0)
  else .disp (wSa w) (w.extractLsb' 0 7)

/-- The end of decoding a word whose major and function are listed: reason 4, then 5, then 6 (R401). `bad`: a field of
the word holds an unlisted value; `res`: a reserved field is nonzero. -/
def decFin (bad res : Bool) (i : Instr) : Except Nat Instr :=
  if bad || !i.valOk then .error 4
  else if res || !i.resOk then .error 5
  else if !i.modeOk then .error 6
  else .ok i

/-- `decFin` of an instruction whose operand code may be unlisted. -/
def decOpt {α : Type} (o : Option α) (bad res : Bool) (f : α → Instr) : Except Nat Instr :=
  match o with
  | none => .error 4
  | some a => decFin bad res (f a)

/-- Major 0x01 (R187): fn is w and op; a w form of an operation that has none is not listed. -/
def decInt (w : Word) : Except Nat Instr :=
  let d := wRd w; let a := wSa w; let b := wSb w; let q := w.getLsbD 6
  let rb := b.r != 0#5 || b.t
  match (w.extractLsb' 0 6).toNat with
  | 0x00 => decFin false false (.add d a b q)
  | 0x01 => decFin false false (.sub d a b q)
  | 0x02 => decFin false false (.mul d a b q)
  | 0x03 => decFin q false (.mulh d a b)
  | 0x04 => decFin q false (.mulhu d a b)
  | 0x05 => decFin false false (.div d a b q)
  | 0x06 => decFin false false (.divu d a b q)
  | 0x07 => decFin false false (.rem d a b q)
  | 0x08 => decFin false false (.remu d a b q)
  | 0x09 => decFin q false (.and d a b)
  | 0x0A => decFin q false (.or d a b)
  | 0x0B => decFin q false (.xor d a b)
  | 0x0C => decFin false false (.shl d a b q)
  | 0x0D => decFin false false (.shr d a b q)
  | 0x0E => decFin false false (.sra d a b q)
  | 0x0F => decFin q false (.min d a b)
  | 0x10 => decFin q false (.max d a b)
  | 0x11 => decFin q false (.minu d a b)
  | 0x12 => decFin q false (.maxu d a b)
  | 0x13 => decFin q false (.adds d a b)
  | 0x14 => decFin q false (.subs d a b)
  | 0x15 => decFin q rb (.clz d a)
  | 0x16 => decFin q rb (.ctz d a)
  | 0x17 => decFin q rb (.popc d a)
  | _ => .error 4

/-- Major 0x06 (R190). -/
def decShiftImm (w : Word) : Except Nat Instr :=
  let d := wRd w; let a := wSa w; let q := w.getLsbD 6; let n : BitVec 6 := w.extractLsb' 0 6
  let res := w.extractLsb' 7 4 != 0#4
  match (w.extractLsb' 11 2).toNat with
  | 0 => decFin false res (.shli d a q n)
  | 1 => decFin false res (.shri d a q n)
  | 2 => decFin false res (.srai d a q n)
  | _ => .error 4

/-- Major 0x0C (R195): the predicate logic. A destination above p7 is not listed; bit [4] of a p field is reserved (R401). -/
def decPred (w : Word) : Except Nat Instr :=
  let d : BitVec 3 := w.extractLsb' 19 3; let hi := w.getLsbD 22; let h4 := w.getLsbD 23
  let a : BitVec 4 := w.extractLsb' 14 4; let b : BitVec 4 := w.extractLsb' 8 4
  let ra := w.getLsbD 18 || w.getLsbD 13
  let rb := w.getLsbD 12 || w.getLsbD 7
  let na := w.extractLsb' 13 6 != 0#6
  let nb := w.extractLsb' 7 6 != 0#6
  match (wFn w).toNat with
  | 0x00 => decFin hi (h4 || ra || rb) (.pand d a b)
  | 0x01 => decFin hi (h4 || ra || rb) (.por d a b)
  | 0x02 => decFin hi (h4 || ra || rb) (.pxor d a b)
  | 0x03 => decFin hi (h4 || ra || rb) (.pandn d a b)
  | 0x04 => decFin hi (h4 || ra || nb) (.pnot d a)
  | 0x05 => decFin hi (h4 || na || nb) (.pset d)
  | 0x06 => decFin hi (h4 || na || nb) (.pclr d)
  | 0x08 => decFin false (na || nb) (.prd (wRd w))
  | 0x09 => decFin false (wRd w != 0#5 || nb) (.pwr (wSa w))
  | _ => .error 4

/-- Major 0x13 (R198): rb and fb are reserved, and rd for `jr` and `ret`. -/
def decJump (w : Word) : Except Nat Instr :=
  let res := w.extractLsb' 7 6 != 0#6; let rd := wRd w != 0#5
  match (wFn w).toNat with
  | 0x00 => decFin false (res || rd) (.jr (wSa w))
  | 0x01 => decFin false res (.callr (wRd w) (wSa w))
  | 0x02 => decFin false (res || rd) (.ret (wSa w))
  | _ => .error 4

/-- The operation field code[12:10] of a CS word. -/
def wOp3 (w : Word) : Nat := (w.extractLsb' 10 3).toNat

/-- Majors 0x18, 0x19, 0x1C (R203, R207, R209). -/
def decSystem (maj : Nat) (w : Word) : Except Nat Instr :=
  let d := wRd w != 0#5; let a := w.extractLsb' 13 6 != 0#6; let lo := w.extractLsb' 0 10 != 0#10
  match maj, wOp3 w with
  | 0x18, 0 => decFin false (w.extractLsb' 2 8 != 0#8) (.spawn (wRd w) (wSa w) (w.extractLsb' 0 2))
  | 0x18, 1 => decFin false (d || a || lo) .yield
  | 0x18, 2 => decFin false (d || a || lo) .exit
  | 0x1C, 0 => decFin false (d || a || lo) .ifence
  | 0x1C, 1 => decFin false (d || lo) (.ckpt (wSa w))
  | 0x1C, 2 => decFin false (a || w.extractLsb' 8 2 != 0#2) (.wfe (wRd w) (w.extractLsb' 0 8))
  | 0x19, _ =>
    let n : BitVec 12 := w.extractLsb' 0 12
    if w.getLsbD 12 then decFin false (d || a) (.brk n) else decFin false (d || a) (.sys n)
  | _, _ => .error 4

/-- Major 0x1D (R212): fn[6:4] names a token of the long forms and is reserved for the others. -/
def decCtx (w : Word) : Except Nat Instr :=
  let d := wRd w; let a := wSa w; let b := wSb w; let tk : BitVec 3 := w.extractLsb' 4 3
  let nt := tk != 0#3; let nb := b.r != 0#5 || b.t
  match (w.extractLsb' 0 4).toNat with
  | 0x0 => decFin false (nt || nb) (.ctxnew d a)
  | 0x1 => decFin false nt (.ctxgrant d a b)
  | 0x2 => decFin false nb (.ctxrevoke d a tk)
  | 0x3 => decFin false (nt || nb) (.ctxstart d a)
  | 0x4 => decFin false nb (.ctxstop d a tk)
  | 0x5 => decFin false false (.ctxsave d a b tk)
  | 0x6 => decFin false false (.ctxload d a b tk)
  | 0x7 => decFin false nt (.ctxinfo d a b)
  | 0x8 => decFin false (nt || nb) (.reflect d a)
  | _ => .error 4

/-- Loads of CM format, majors 0x20 to 0x27 and 0x3B: ft reserved, ga = 1 not listed (R224, R226, R296). -/
def decLoad (maj : Nat) (w : Word) : Except Nat Instr :=
  let ga := w.getLsbD 8; let ft := w.getLsbD 12; let m := wMem w; let t := wRd w
  decOpt (Scope.ofCode (w.extractLsb' 9 3)) ga (ft || (maj == 0x3B && w.extractLsb' 22 2 != 0#2)) fun sc =>
    match maj with
    | 0x20 => .ldB t m sc
    | 0x21 => .ldBu t m sc
    | 0x22 => .ldH t m sc
    | 0x23 => .ldHu t m sc
    | 0x24 => .ldW t m sc
    | 0x25 => .ldWu t m sc
    | 0x26 => .ldD t m sc
    | 0x27 => .ldv t m sc
    | _ => .hld (w.extractLsb' 19 3) m sc

/-- Stores of CM format, majors 0x28 to 0x2C and 0x3C (R225, R226, R296). -/
def decStore (maj : Nat) (w : Word) : Except Nat Instr :=
  let md := StMode.ofCode (w.getLsbD 8); let m := wMem w; let t : Src := ⟨wRd w, w.getLsbD 12⟩
  decOpt (Scope.ofCode (w.extractLsb' 9 3)) false (maj == 0x3C && (w.getLsbD 12 || w.extractLsb' 22 2 != 0#2)) fun sc =>
    match maj with
    | 0x28 => .stB m t sc md
    | 0x29 => .stH m t sc md
    | 0x2A => .stW m t sc md
    | 0x2B => .stD m t sc md
    | 0x2C => .stv m t sc md
    | _ => .hst m (w.extractLsb' 19 3) sc md

/-- `lea` and `pf` (R192, R253): ft and sc reserved, ga = 1 and sc = 6, 7 not listed. -/
def decAddr (w : Word) (i : Instr) : Except Nat Instr :=
  decOpt (Scope.ofCode (w.extractLsb' 9 3)) (w.getLsbD 8) (w.getLsbD 12 || w.extractLsb' 9 3 != 0#3) fun _ => i

/-- Majors 0x2F to 0x31, 0x34 and 0x3E, format CS (R229, R234, R235, R246, R287). -/
def decSync (maj : Nat) (w : Word) : Except Nat Instr :=
  let d := wRd w; let a := wSa w; let nd := d != 0#5; let na := w.extractLsb' 13 6 != 0#6
  let lo := w.extractLsb' 0 10 != 0#10; let l2 := w.extractLsb' 8 2 != 0#2; let m : Byte := w.extractLsb' 0 8
  match maj, wOp3 w with
  | 0x2F, 0 => decOpt (Scope.ofCode (w.extractLsb' 0 3)) false (nd || na || w.extractLsb' 3 7 != 0#7) .fence
  | 0x2F, 1 => decOpt (Scope.ofCode (w.extractLsb' 0 3)) false (nd || na || w.extractLsb' 3 7 != 0#7) .fenceW
  | 0x30, 0 => decFin false lo (.syncinit d a)
  | 0x30, 1 => decFin false lo (.syncarr d a)
  | 0x30, 2 => decFin false lo (.syncwait d a)
  | 0x31, 0 => decFin false (nd || na || l2) (.waitt m)
  | 0x31, 1 => decFin false (na || l2) (.waitany d m)
  | 0x31, 2 => decFin false l2 (.waitanyF d a m)
  | 0x34, 0 => decFin false (nd || l2) (.tagctlLd a m)
  | 0x34, 1 => decFin false (nd || na || l2) (.tagctlEn m)
  | 0x34, 2 => decFin false (nd || na || l2) (.tagctlDis m)
  | 0x34, 3 => decFin false (nd || na || l2) (.tagctlPon m)
  | 0x34, 4 => decFin false (nd || na || l2) (.tagctlPoff m)
  | 0x34, 5 => decFin false (na || l2) (.tagctlRd d m)
  | 0x3E, 0 => decFin false (nd || na || w.extractLsb' 4 6 != 0#6) (.semwait (w.extractLsb' 0 4))
  | 0x3E, 1 => decFin false (nd || na) (.sempost (w.extractLsb' 0 4) (w.extractLsb' 4 6))
  | _, _ => .error 4

/-- Major 0x35 (R248, R249). -/
def decQueue (w : Word) : Except Nat Instr :=
  let d := wRd w; let a := wSa w; let b := wSb w; let p : BitVec 3 := w.extractLsb' 3 3; let r6 := w.getLsbD 6
  let nb := b.r != 0#5 || b.t
  let bindBad := w.extractLsb' 20 4 != 1#4; let q : BitVec 1 := w.extractLsb' 19 1
  let bindRes := r6 || nb || p != 0#3
  match (w.extractLsb' 0 3).toNat with
  | 0 => decFin false (r6 || d != 0#5) (.qenq a b p)
  | 1 => decFin false (r6 || nb) (.qdeq d a p)
  | 2 => decFin false (r6 || nb) (.qsteal d a p)
  | 4 => decFin bindBad bindRes (.qenqBind q a)
  | 5 => decFin bindBad bindRes (.qdeqBind q a)
  | 6 => decFin bindBad bindRes (.qstealBind q a)
  | _ => .error 4

/-- Major 0x37 (R250): the queue register is in ra; its bits [4:3] are reserved. -/
def decQreg (w : Word) : Except Nat Instr :=
  let q : BitVec 3 := w.extractLsb' 14 3; let fa := w.getLsbD 13; let b := wSb w
  let res := w.extractLsb' 17 2 != 0#2 || w.extractLsb' 2 5 != 0#5
  let nb := b.r != 0#5 || b.t; let nd := wRd w != 0#5
  match (w.extractLsb' 0 2).toNat with
  | 0 => decFin false (res || nb) (.qpop (wRd w) q fa)
  | 1 => decFin false (res || nd) (.qpush q fa b)
  | 2 => decFin false (res || nb) (.qpopv (wRd w) q fa)
  | _ => decFin false (res || nd) (.qpushv q fa b)

/-- Major 0x38 (R300): fa, fb, bit [4] of a tile field and bits [4:3] of a handle field are reserved. -/
def decMma (w : Word) : Except Nat Instr :=
  let c : BitVec 4 := w.extractLsb' 19 4; let k : BitVec 5 := w.extractLsb' 0 5
  let hb : BitVec 3 := w.extractLsb' 8 3
  let res := w.getLsbD 23 || w.getLsbD 13 || w.getLsbD 7 || w.extractLsb' 11 2 != 0#2
  let ha := w.extractLsb' 17 2 != 0#2
  match (w.extractLsb' 5 2).toNat with
  | 0 => decFin false (res || ha) (.mma c (w.extractLsb' 14 3) hb k)
  | 1 => decFin false (res || ha) (.mmas c (w.extractLsb' 14 3) hb k)
  | 2 => decFin false (res || w.getLsbD 18) (.mmac c (w.extractLsb' 14 4) hb k)
  | _ => .error 4

/-- Major 0x3A (R304). -/
def decAcc (w : Word) : Except Nat Instr :=
  let t : BitVec 4 := w.extractLsb' 19 4; let k : BitVec 5 := w.extractLsb' 0 5
  let na := w.extractLsb' 13 6 != 0#6; let nb := w.extractLsb' 7 6 != 0#6; let hi := w.getLsbD 23
  match (w.extractLsb' 5 2).toNat with
  | 0 => decFin false (hi || na || nb || k != 0#5) (.accz t)
  | 1 => decFin false (hi || nb || k != 0#5) (.accrd t (wSa w))
  | 2 => decFin false (hi || na || w.extractLsb' 11 2 != 0#2 || w.getLsbD 7) (.accdc t (w.extractLsb' 8 3) k)
  | _ => .error 4

/-- Major 0x3D (R297). -/
def decHandle (w : Word) : Except Nat Instr :=
  let h : BitVec 3 := w.extractLsb' 19 3; let hs : BitVec 3 := w.extractLsb' 14 3; let i : BitVec 3 := w.extractLsb' 2 3
  let hd := w.extractLsb' 22 2 != 0#2; let ha := w.extractLsb' 17 2 != 0#2 || w.getLsbD 13
  let na := w.extractLsb' 13 6 != 0#6; let nb := w.extractLsb' 7 6 != 0#6; let r := w.extractLsb' 5 2 != 0#2
  match (w.extractLsb' 0 2).toNat with
  | 0 => decFin false (hd || na || r) (.hset h i (wSb w))
  | 1 => decFin false (ha || nb || r) (.hget (wRd w) hs i)
  | 2 => decFin false (ha || r) (.hgat (wRd w) hs (wSb w) i)
  | _ => decFin false hd (.hsca (ScatOp.ofCode (w.extractLsb' 5 2)) h (wSa w) (wSb w) i)

/-- Major 0x3F (R309): scope codes 0, 6 and 7 are not listed. -/
def decCopy (w : Word) : Except Nat Instr :=
  let f := fun (c : Reg → Src → Src → Scope → Instr) =>
    decOpt (Scope.ofCode (w.extractLsb' 2 3)) false (w.extractLsb' 5 2 != 0#2) fun sc => c (wRd w) (wSa w) (wSb w) sc
  match (w.extractLsb' 0 2).toNat with
  | 0 => f .copy
  | 1 => f .copym
  | 2 => f .copyx
  | _ => .error 4

/-- The C-class words, by major (R170). Of a predicate destination, bit [3] is a value that is not listed and bit [4] is reserved; the bits
[5:0] of c that `lpsetr` does not use are taken as reserved, reason 5 of R401 (DEDUCED, log 86). -/
def decodeC (w : Word) : Except Nat Instr :=
  let d := wRd w; let a := wSa w; let b := wSb w
  match (wMajor w).toNat with
  | 0x01 => decInt w
  | 0x02 => decFin false false (.addi d a (wImm13 w))
  | 0x03 => decFin false false (.andi d a (wImm13 w))
  | 0x04 => decFin false false (.ori d a (wImm13 w))
  | 0x05 => decFin false false (.xori d a (wImm13 w))
  | 0x06 => decShiftImm w
  | 0x08 =>
    if w.getLsbD 16 then decFin false false (.lik d (w.extractLsb' 17 2) (w.extractLsb' 0 16))
    else decFin false false (.li d (w.extractLsb' 17 2) (w.extractLsb' 0 16))
  | 0x09 => decAddr w (.lea d (wMem w))
  | 0x0A =>
    match CmpCond.ofCode (w.extractLsb' 0 4), Combine.ofCode (w.extractLsb' 4 2) with
    | some c, some m => decFin (w.getLsbD 22) (w.getLsbD 23 || w.getLsbD 6) (.cmp (w.extractLsb' 19 3) c m a b)
    | _, _ => .error 4
  | 0x0B =>
    decOpt (CmpCond.ofCode (w.extractLsb' 9 4)) (w.getLsbD 22) (w.getLsbD 23) fun c =>
      .cmpi (w.extractLsb' 19 3) c a (w.extractLsb' 0 9)
  | 0x0C => decPred w
  | 0x0D =>
    if w.getLsbD 4 then decFin false (w.extractLsb' 5 2 != 0#2) (.cseln d (w.extractLsb' 0 4) a b)
    else decFin false (w.extractLsb' 5 2 != 0#2) (.csel d (w.extractLsb' 0 4) a b)
  | 0x10 => decFin false (d != 0#5) (.br (wDisp19 w))
  | 0x11 =>
    if w.getLsbD 23 then decFin false false (.bpn (w.extractLsb' 19 4) (wDisp19 w))
    else decFin false false (.bp (w.extractLsb' 19 4) (wDisp19 w))
  | 0x12 => decFin false false (.call d (wDisp19 w))
  | 0x13 => decJump w
  | 0x14 => decFin false false (.lpset0 (w.extractLsb' 12 12) (w.extractLsb' 0 12))
  | 0x15 => decFin false false (.lpset1 (w.extractLsb' 12 12) (w.extractLsb' 0 12))
  | 0x16 => decFin false (w.extractLsb' 12 6 != 0#6) (.lpsetr0 ⟨d, w.getLsbD 18⟩ (w.extractLsb' 0 12))
  | 0x17 => decFin false (w.extractLsb' 12 6 != 0#6) (.lpsetr1 ⟨d, w.getLsbD 18⟩ (w.extractLsb' 0 12))
  | 0x18 => decSystem 0x18 w
  | 0x19 => decSystem 0x19 w
  | 0x1A => decFin false (w.extractLsb' 13 6 != 0#6) (.mfs d (wImm13 w))
  | 0x1B => decFin false (d != 0#5) (.mts (wImm13 w) a)
  | 0x1C => decSystem 0x1C w
  | 0x1D => decCtx w
  | 0x20 => decLoad 0x20 w
  | 0x21 => decLoad 0x21 w
  | 0x22 => decLoad 0x22 w
  | 0x23 => decLoad 0x23 w
  | 0x24 => decLoad 0x24 w
  | 0x25 => decLoad 0x25 w
  | 0x26 => decLoad 0x26 w
  | 0x27 => decLoad 0x27 w
  | 0x28 => decStore 0x28 w
  | 0x29 => decStore 0x29 w
  | 0x2A => decStore 0x2A w
  | 0x2B => decStore 0x2B w
  | 0x2C => decStore 0x2C w
  | 0x2D =>
    match AmoOp.ofCode (w.extractLsb' 3 4), Scope.ofCode (w.extractLsb' 0 3) with
    | some o, some sc => decFin false false (.amo o d a b sc)
    | _, _ => .error 4
  | 0x2E => decOpt (Scope.ofCode (w.extractLsb' 0 3)) false (w.extractLsb' 3 4 != 0#4) fun sc => .cas d a b sc
  | 0x2F => decSync 0x2F w
  | 0x30 => decSync 0x30 w
  | 0x31 => decSync 0x31 w
  | 0x32 => decFin false (wFn w != 0#7) (.sendm d a b)
  | 0x33 => decFin false (wFn w != 0#7 || d != 0#5) (.reply a b)
  | 0x34 => decSync 0x34 w
  | 0x35 => decQueue w
  | 0x36 =>
    match d.toNat with
    | 0 => decAddr w (.pf (wMem w))
    | 1 => decAddr w (.pfL2 (wMem w))
    | _ => .error 4
  | 0x37 => decQreg w
  | 0x38 => decMma w
  | 0x39 => decFin false (w.extractLsb' 13 11 != 0#11)
      (.mxfmt (w.getLsbD 12) (w.extractLsb' 8 4) (w.extractLsb' 4 4) (w.extractLsb' 0 4))
  | 0x3A => decAcc w
  | 0x3B => decLoad 0x3B w
  | 0x3C => decStore 0x3C w
  | 0x3D => decHandle w
  | 0x3E => decSync 0x3E w
  | 0x3F => decCopy w
  | _ => .error 3

/-- Major 0x1E (R266): the mask logic. m and fb are reserved; a mask field has bits [4:3] and its mode bit reserved. -/
def decMask (w : Word) : Except Nat Instr :=
  let d : BitVec 3 := w.extractLsb' 19 3; let a : BitVec 3 := w.extractLsb' 14 3; let b : BitVec 3 := w.extractLsb' 8 3
  let hd := w.extractLsb' 22 2 != 0#2; let ha := w.extractLsb' 17 2 != 0#2 || w.getLsbD 13
  let hb := w.extractLsb' 11 2 != 0#2 || w.getLsbD 7; let nb := w.extractLsb' 7 6 != 0#6
  let m := w.extractLsb' 4 3 != 0#3
  match (w.extractLsb' 0 4).toNat with
  | 0 => decFin false (m || hd || ha || hb) (.kand d a b)
  | 1 => decFin false (m || hd || ha || hb) (.kor d a b)
  | 2 => decFin false (m || hd || ha || hb) (.kxor d a b)
  | 3 => decFin false (m || hd || ha || hb) (.kandn d a b)
  | 4 => decFin false (m || hd || ha || nb) (.knot d a)
  | 5 => decFin false (m || hd || nb) (.kfromx d (wSa w))
  | 6 => decFin false (m || ha || nb) (.ktox (wRd w) a)
  | _ => .error 4

/-- Major 0x1F (R258): the vector immediates; shifts have imm7[6] = 0. -/
def decVImm (w : Word) : Except Nat Instr :=
  let d := wRd w; let a := wSa w; let t := Fmt.ofCode (w.extractLsb' 9 4); let n : BitVec 6 := w.extractLsb' 0 6
  let b6 := w.getLsbD 6
  match (w.extractLsb' 7 2).toNat with
  | 0 => decFin false false (.vaddi d a t (w.extractLsb' 0 7))
  | 1 => decFin b6 false (.vshli d a t n)
  | 2 => decFin b6 false (.vshri d a t n)
  | _ => decFin b6 false (.vsrai d a t n)

/-- Majors 0x20 to 0x24 (R271, R272, R278): streams and repetition. -/
def decStream (maj : Nat) (w : Word) : Except Nat Instr :=
  let u : BitVec 2 := w.extractLsb' 22 2; let r := w.extractLsb' 19 3 != 0#3; let na := w.extractLsb' 13 6 != 0#6
  match maj with
  | 0x20 => decFin false (r || w.extractLsb' 3 10 != 0#10) (.scfg u (wSa w) (w.extractLsb' 0 3))
  | 0x21 =>
    let res := r || na || w.extractLsb' 1 12 != 0#12
    if w.getLsbD 0 then decFin false res (.sbindPush u) else decFin false res (.sbindPop u)
  | 0x22 => decFin false (r || w.extractLsb' 0 19 != 0#19) (.sunbind u)
  | 0x23 => decFin false (r || w.extractLsb' 0 14 != 0#14) (.sstat (w.extractLsb' 14 5) u)
  | _ =>
    if w.getLsbD 18 then decFin false (w.extractLsb' 16 2 != 0#2) (.repImm (wRd w) (w.extractLsb' 0 16))
    else decFin false (w.extractLsb' 0 12 != 0#12) (.repReg (wRd w) ⟨w.extractLsb' 13 5, w.getLsbD 12⟩)

/-- The A-class words, by major (R171). -/
def decodeA (w : Word) : Except Nat Instr :=
  let d := wRd w; let a := wSa w; let b := wSb w; let m : BitVec 3 := w.extractLsb' 4 3
  let t := Fmt.ofCode (w.extractLsb' 0 4); let nb := b.r != 0#5 || b.t
  let c : Src := ⟨w.extractLsb' 2 5, w.getLsbD 1⟩; let n := w.getLsbD 0
  match (wMajor w).toNat with
  | 0x01 => decFin false false (.vadd d a b m t)
  | 0x02 => decFin false false (.vsub d a b m t)
  | 0x03 => decFin false false (.vmul d a b m t)
  | 0x04 => decFin false false (.vdiv d a b m t)
  | 0x05 => decFin false false (.vmin d a b m t)
  | 0x06 => decFin false false (.vmax d a b m t)
  | 0x07 => decFin false nb (.vsqrt d a m t)
  | 0x08 => decFin false false (.vand d a b m t)
  | 0x09 => decFin false false (.vor d a b m t)
  | 0x0A => decFin false false (.vxor d a b m t)
  | 0x0B => decFin false false (.vshl d a b m t)
  | 0x0C => decFin false false (.vshr d a b m t)
  | 0x0D => decFin false false (.vsra d a b m t)
  | 0x0E => decFin false nb (.vabs d a m t)
  | 0x0F => decFin false nb (.vneg d a m t)
  | 0x10 => if n then decFin false false (.vfnmaF32 d a b c) else decFin false false (.vfmaF32 d a b c)
  | 0x11 => if n then decFin false false (.vfnmaF64 d a b c) else decFin false false (.vfmaF64 d a b c)
  | 0x12 => if n then decFin false false (.vfnmaF16 d a b c) else decFin false false (.vfmaF16 d a b c)
  | 0x13 => if n then decFin false false (.vfnmaBf16 d a b c) else decFin false false (.vfmaBf16 d a b c)
  | 0x14 => decFin false false (.vcmp (VCond.ofCode (w.extractLsb' 22 2)) (w.extractLsb' 19 3) a b m t)
  | 0x15 => decFin false false (.vsel d a b m t)
  | 0x16 => decFin false false (.vcvt d a b m (w.extractLsb' 0 4))
  | 0x17 => decFin false (w.extractLsb' 0 9 != 0#9) (.vbcast d a (Fmt.ofCode (w.extractLsb' 9 4)))
  | 0x18 => decFin false false (.vmovx d a (Fmt.ofCode (w.extractLsb' 9 4)) (w.extractLsb' 0 9))
  | 0x19 => decFin false false (.vperm d a b m t)
  | 0x1A => decFin false false (.vzip d a b m t)
  | 0x1B => decFin false false (.vunzip d a b m t)
  | 0x1C =>
    let res := w.extractLsb' 10 3 != 0#3 || w.getLsbD 7
    match (w.extractLsb' 8 2).toNat with
    | 0 => decFin false res (.vrsum d a m t)
    | 1 => decFin false res (.vrmax d a m t)
    | 2 => decFin false res (.vrmin d a m t)
    | _ => .error 4
  | 0x1D => decFin (w.extractLsb' 0 4 != 3#4) false (.vdot d a b m)
  | 0x1E => decMask w
  | 0x1F => decVImm w
  | 0x20 => decStream 0x20 w
  | 0x21 => decStream 0x21 w
  | 0x22 => decStream 0x22 w
  | 0x23 => decStream 0x23 w
  | 0x24 => decStream 0x24 w
  | _ => .error 3

/-- R401, reasons 3 to 6: the instruction a word stands for, its placement apart. -/
def decodeBody (w : Word) : Except Nat Instr := if wClass w then decodeA w else decodeC w

/-- R401: the instruction a word stands for, or the reason it is none, the lowest that applies. -/
def decodeWord (w : Word) : Except Nat Instr :=
  if w = 0#32 then .error 1
  else if w = 0xFFFFFFFF#32 then .error 2
  else decodeBody w

/-- The instruction the decoder reads from a word of the opcode table: bit 0 is the least significant bit of the one
32-bit word that an instruction has. -/
def decodeTableWord (_nbits w : Nat) : Option Instr :=
  match decodeWord (BitVec.ofNat 32 w) with
  | .ok i => some i
  | .error _ => none

/-! ### The encoder, from the same tables. -/

/-- The top byte of a word: L, class, major (R159). -/
def encTop (lone aclass : Bool) (maj : BitVec 6) : BitVec 8 :=
  BitVec.ofBool lone ++ (BitVec.ofBool aclass ++ maj)

/-- A source field above bit 13 with its mode bit. -/
def encSrc (x : Src) : BitVec 6 := x.r ++ BitVec.ofBool x.t

/-- Formats CX and AV (R163, R164): rd, ra, fa, rb, fb, fn. -/
def encCX (top : BitVec 8) (rd : Reg) (a b : BitVec 6) (fn : BitVec 7) : Word := top ++ (rd ++ (a ++ (b ++ fn)))

/-- Formats CI, CS, AI and AS: rd, ra, fa, imm13. -/
def encCI (top : BitVec 8) (rd : Reg) (a : BitVec 6) (imm : BitVec 13) : Word := top ++ (rd ++ (a ++ imm))

/-- Format CB: a, disp19. -/
def encCB (top : BitVec 8) (a : Reg) (disp : BitVec 19) : Word := top ++ (a ++ disp)

/-- Format CL: c, disp12. -/
def encCL (top : BitVec 8) (c : BitVec 12) (disp : BitVec 12) : Word := top ++ (c ++ disp)

/-- Format CM: rt, the memory operand, ft, sc, ga (R163). -/
def encCM (top : BitVec 8) (rt : Reg) (m : MemOp) (ft : Bool) (sc : BitVec 3) (ga : Bool) : Word :=
  let mid : BitVec 5 := BitVec.ofBool ft ++ (sc ++ BitVec.ofBool ga)
  match m with
  | .disp b d => top ++ (rt ++ (encSrc b ++ (mid ++ (0#1 ++ d))))
  | .index b i sh => top ++ (rt ++ (encSrc b ++ (mid ++ (1#1 ++ (encSrc i ++ BitVec.ofBool sh)))))

/-- The word of a well-formed instruction; `lone` is its L bit. A step that has no encoding gives 0. -/
def encode (lone : Bool) (i : Instr) : Word :=
  let c := encTop lone false; let a := encTop lone true; let z := 0#6
  match i with
  | .add rd ra rb w => encCX (c 0x01#6) rd (encSrc ra) (encSrc rb) (BitVec.ofBool w ++ 0#6)
  | .sub rd ra rb w => encCX (c 0x01#6) rd (encSrc ra) (encSrc rb) (BitVec.ofBool w ++ 1#6)
  | .mul rd ra rb w => encCX (c 0x01#6) rd (encSrc ra) (encSrc rb) (BitVec.ofBool w ++ 2#6)
  | .mulh rd ra rb => encCX (c 0x01#6) rd (encSrc ra) (encSrc rb) (3#7)
  | .mulhu rd ra rb => encCX (c 0x01#6) rd (encSrc ra) (encSrc rb) (4#7)
  | .div rd ra rb w => encCX (c 0x01#6) rd (encSrc ra) (encSrc rb) (BitVec.ofBool w ++ 5#6)
  | .divu rd ra rb w => encCX (c 0x01#6) rd (encSrc ra) (encSrc rb) (BitVec.ofBool w ++ 6#6)
  | .rem rd ra rb w => encCX (c 0x01#6) rd (encSrc ra) (encSrc rb) (BitVec.ofBool w ++ 7#6)
  | .remu rd ra rb w => encCX (c 0x01#6) rd (encSrc ra) (encSrc rb) (BitVec.ofBool w ++ 8#6)
  | .and rd ra rb => encCX (c 0x01#6) rd (encSrc ra) (encSrc rb) (9#7)
  | .or rd ra rb => encCX (c 0x01#6) rd (encSrc ra) (encSrc rb) (10#7)
  | .xor rd ra rb => encCX (c 0x01#6) rd (encSrc ra) (encSrc rb) (11#7)
  | .shl rd ra rb w => encCX (c 0x01#6) rd (encSrc ra) (encSrc rb) (BitVec.ofBool w ++ 12#6)
  | .shr rd ra rb w => encCX (c 0x01#6) rd (encSrc ra) (encSrc rb) (BitVec.ofBool w ++ 13#6)
  | .sra rd ra rb w => encCX (c 0x01#6) rd (encSrc ra) (encSrc rb) (BitVec.ofBool w ++ 14#6)
  | .min rd ra rb => encCX (c 0x01#6) rd (encSrc ra) (encSrc rb) (15#7)
  | .max rd ra rb => encCX (c 0x01#6) rd (encSrc ra) (encSrc rb) (16#7)
  | .minu rd ra rb => encCX (c 0x01#6) rd (encSrc ra) (encSrc rb) (17#7)
  | .maxu rd ra rb => encCX (c 0x01#6) rd (encSrc ra) (encSrc rb) (18#7)
  | .adds rd ra rb => encCX (c 0x01#6) rd (encSrc ra) (encSrc rb) (19#7)
  | .subs rd ra rb => encCX (c 0x01#6) rd (encSrc ra) (encSrc rb) (20#7)
  | .clz rd ra => encCX (c 0x01#6) rd (encSrc ra) z (21#7)
  | .ctz rd ra => encCX (c 0x01#6) rd (encSrc ra) z (22#7)
  | .popc rd ra => encCX (c 0x01#6) rd (encSrc ra) z (23#7)
  | .addi rd ra imm => encCI (c 2#6) rd (encSrc ra) imm
  | .andi rd ra imm => encCI (c 3#6) rd (encSrc ra) imm
  | .ori rd ra imm => encCI (c 4#6) rd (encSrc ra) imm
  | .xori rd ra imm => encCI (c 5#6) rd (encSrc ra) imm
  | .shli rd ra w amount => encCI (c 0x06#6) rd (encSrc ra) (0#2 ++ (0#4 ++ (BitVec.ofBool w ++ amount)))
  | .shri rd ra w amount => encCI (c 0x06#6) rd (encSrc ra) (1#2 ++ (0#4 ++ (BitVec.ofBool w ++ amount)))
  | .srai rd ra w amount => encCI (c 0x06#6) rd (encSrc ra) (2#2 ++ (0#4 ++ (BitVec.ofBool w ++ amount)))
  | .li rd q imm => encCB (c 0x08#6) rd (q ++ (0#1 ++ imm))
  | .lik rd q imm => encCB (c 0x08#6) rd (q ++ (1#1 ++ imm))
  | .lea rt m => encCM (c 0x09#6) rt m false 0#3 false
  | .cmp pd c' cb ra rb => encCX (c 0x0A#6) (0#2 ++ pd) (encSrc ra) (encSrc rb) (0#1 ++ (cb.code ++ (0#1 ++ c'.code)))
  | .cmpi pd c' ra imm => encCI (c 0x0B#6) (0#2 ++ pd) (encSrc ra) (0#1 ++ (c'.code ++ imm))
  | .pand pd pa pb => encCX (c 0x0C#6) (0#2 ++ pd) (0#1 ++ (pa ++ 0#1)) (0#1 ++ (pb ++ 0#1)) 0#7
  | .por pd pa pb => encCX (c 0x0C#6) (0#2 ++ pd) (0#1 ++ (pa ++ 0#1)) (0#1 ++ (pb ++ 0#1)) 1#7
  | .pxor pd pa pb => encCX (c 0x0C#6) (0#2 ++ pd) (0#1 ++ (pa ++ 0#1)) (0#1 ++ (pb ++ 0#1)) 2#7
  | .pandn pd pa pb => encCX (c 0x0C#6) (0#2 ++ pd) (0#1 ++ (pa ++ 0#1)) (0#1 ++ (pb ++ 0#1)) 3#7
  | .pnot pd pa => encCX (c 0x0C#6) (0#2 ++ pd) (0#1 ++ (pa ++ 0#1)) z 4#7
  | .pset pd => encCX (c 0x0C#6) (0#2 ++ pd) z z 5#7
  | .pclr pd => encCX (c 0x0C#6) (0#2 ++ pd) z z 6#7
  | .prd rd => encCX (c 0x0C#6) rd z z 8#7
  | .pwr ra => encCX (c 0x0C#6) 0#5 (encSrc ra) z 9#7
  | .csel rd pn ra rb => encCX (c 0x0D#6) rd (encSrc ra) (encSrc rb) (0#3 ++ pn)
  | .cseln rd pn ra rb => encCX (c 0x0D#6) rd (encSrc ra) (encSrc rb) (1#3 ++ pn)
  | .br disp => encCB (c 0x10#6) 0#5 disp
  | .bp pn disp => encCB (c 0x11#6) (0#1 ++ pn) disp
  | .bpn pn disp => encCB (c 0x11#6) (1#1 ++ pn) disp
  | .call rd disp => encCB (c 0x12#6) rd disp
  | .jr ra => encCX (c 0x13#6) 0#5 (encSrc ra) z 0#7
  | .callr rd ra => encCX (c 0x13#6) rd (encSrc ra) z 1#7
  | .ret ra => encCX (c 0x13#6) 0#5 (encSrc ra) z 2#7
  | .lpset0 count disp => encCL (c 0x14#6) count disp
  | .lpset1 count disp => encCL (c 0x15#6) count disp
  | .lpsetr0 rc disp => encCL (c 0x16#6) (encSrc rc ++ 0#6) disp
  | .lpsetr1 rc disp => encCL (c 0x17#6) (encSrc rc ++ 0#6) disp
  | .spawn rd ra level => encCI (c 0x18#6) rd (encSrc ra) (0#11 ++ level)
  | .yield => encCI (c 0x18#6) 0#5 z 0x400#13
  | .exit => encCI (c 0x18#6) 0#5 z 0x800#13
  | .sys num => encCI (c 0x19#6) 0#5 z (0#1 ++ num)
  | .brk num => encCI (c 0x19#6) 0#5 z (1#1 ++ num)
  | .mfs rd spr => encCI (c 0x1A#6) rd z spr
  | .mts spr ra => encCI (c 0x1B#6) 0#5 (encSrc ra) spr
  | .ifence => encCI (c 0x1C#6) 0#5 z 0#13
  | .ckpt ra => encCI (c 0x1C#6) 0#5 (encSrc ra) 0x400#13
  | .wfe rd mask => encCI (c 0x1C#6) rd z (8#5 ++ mask)
  | .ctxnew rd ra => encCX (c 0x1D#6) rd (encSrc ra) z (0#3 ++ 0#4)
  | .ctxgrant rd ra rb => encCX (c 0x1D#6) rd (encSrc ra) (encSrc rb) (0#3 ++ 1#4)
  | .ctxrevoke rd ra tk => encCX (c 0x1D#6) rd (encSrc ra) z (tk ++ 2#4)
  | .ctxstart rd ra => encCX (c 0x1D#6) rd (encSrc ra) z (0#3 ++ 3#4)
  | .ctxstop rd ra tk => encCX (c 0x1D#6) rd (encSrc ra) z (tk ++ 4#4)
  | .ctxsave rd ra rb tk => encCX (c 0x1D#6) rd (encSrc ra) (encSrc rb) (tk ++ 5#4)
  | .ctxload rd ra rb tk => encCX (c 0x1D#6) rd (encSrc ra) (encSrc rb) (tk ++ 6#4)
  | .ctxinfo rd ra rb => encCX (c 0x1D#6) rd (encSrc ra) (encSrc rb) (0#3 ++ 7#4)
  | .reflect rd ra => encCX (c 0x1D#6) rd (encSrc ra) z (0#3 ++ 8#4)
  | .ldB rt m sc => encCM (c 0x20#6) rt m false sc.code false
  | .ldBu rt m sc => encCM (c 0x21#6) rt m false sc.code false
  | .ldH rt m sc => encCM (c 0x22#6) rt m false sc.code false
  | .ldHu rt m sc => encCM (c 0x23#6) rt m false sc.code false
  | .ldW rt m sc => encCM (c 0x24#6) rt m false sc.code false
  | .ldWu rt m sc => encCM (c 0x25#6) rt m false sc.code false
  | .ldD rt m sc => encCM (c 0x26#6) rt m false sc.code false
  | .ldv rt m sc => encCM (c 0x27#6) rt m false sc.code false
  | .stB m rt sc md => encCM (c 0x28#6) rt.r m rt.t sc.code md.code
  | .stH m rt sc md => encCM (c 0x29#6) rt.r m rt.t sc.code md.code
  | .stW m rt sc md => encCM (c 0x2A#6) rt.r m rt.t sc.code md.code
  | .stD m rt sc md => encCM (c 0x2B#6) rt.r m rt.t sc.code md.code
  | .stv m rt sc md => encCM (c 0x2C#6) rt.r m rt.t sc.code md.code
  | .amo op rd ra rb sc => encCX (c 0x2D#6) rd (encSrc ra) (encSrc rb) (op.code ++ sc.code)
  | .cas rd ra rb sc => encCX (c 0x2E#6) rd (encSrc ra) (encSrc rb) (0#4 ++ sc.code)
  | .fence sc => encCI (c 0x2F#6) 0#5 z (0#10 ++ sc.code)
  | .fenceW sc => encCI (c 0x2F#6) 0#5 z (0x80#10 ++ sc.code)
  | .syncinit rd ra => encCI (c 0x30#6) rd (encSrc ra) 0x0#13
  | .syncarr rd ra => encCI (c 0x30#6) rd (encSrc ra) 0x400#13
  | .syncwait rd ra => encCI (c 0x30#6) rd (encSrc ra) 0x800#13
  | .waitt mask => encCI (c 0x31#6) 0#5 z (0#5 ++ mask)
  | .waitany rd mask => encCI (c 0x31#6) rd z (4#5 ++ mask)
  | .waitanyF rd ra mask => encCI (c 0x31#6) rd (encSrc ra) (8#5 ++ mask)
  | .sendm rd ra rb => encCX (c 0x32#6) rd (encSrc ra) (encSrc rb) 0#7
  | .reply ra rb => encCX (c 0x33#6) 0#5 (encSrc ra) (encSrc rb) 0#7
  | .tagctlLd ra tag => encCI (c 0x34#6) 0#5 (encSrc ra) (0#5 ++ tag)
  | .tagctlEn tag => encCI (c 0x34#6) 0#5 z (4#5 ++ tag)
  | .tagctlDis tag => encCI (c 0x34#6) 0#5 z (8#5 ++ tag)
  | .tagctlPon tag => encCI (c 0x34#6) 0#5 z (12#5 ++ tag)
  | .tagctlPoff tag => encCI (c 0x34#6) 0#5 z (16#5 ++ tag)
  | .tagctlRd rd tag => encCI (c 0x34#6) rd z (20#5 ++ tag)
  | .qenq ra rb pn => encCX (c 0x35#6) 0#5 (encSrc ra) (encSrc rb) (0#1 ++ (pn ++ 0#3))
  | .qdeq rd ra pn => encCX (c 0x35#6) rd (encSrc ra) z (0#1 ++ (pn ++ 1#3))
  | .qsteal rd ra pn => encCX (c 0x35#6) rd (encSrc ra) z (0#1 ++ (pn ++ 2#3))
  | .qenqBind q ra => encCX (c 0x35#6) (1#4 ++ q) (encSrc ra) z 4#7
  | .qdeqBind q ra => encCX (c 0x35#6) (1#4 ++ q) (encSrc ra) z 5#7
  | .qstealBind q ra => encCX (c 0x35#6) (1#4 ++ q) (encSrc ra) z 6#7
  | .pf m => encCM (c 0x36#6) 0#5 m false 0#3 false
  | .pfL2 m => encCM (c 0x36#6) 1#5 m false 0#3 false
  | .qpop rd q fa => encCX (c 0x37#6) rd (0#2 ++ (q ++ BitVec.ofBool fa)) z 0#7
  | .qpush q fa rb => encCX (c 0x37#6) 0#5 (0#2 ++ (q ++ BitVec.ofBool fa)) (encSrc rb) 1#7
  | .qpopv rd q fa => encCX (c 0x37#6) rd (0#2 ++ (q ++ BitVec.ofBool fa)) z 2#7
  | .qpushv q fa rb => encCX (c 0x37#6) 0#5 (0#2 ++ (q ++ BitVec.ofBool fa)) (encSrc rb) 3#7
  | .mma c' ha hb k => encCX (c 0x38#6) (0#1 ++ c') (0#2 ++ (ha ++ 0#1)) (0#2 ++ (hb ++ 0#1)) (0#2 ++ k)
  | .mmas c' ha hb k => encCX (c 0x38#6) (0#1 ++ c') (0#2 ++ (ha ++ 0#1)) (0#2 ++ (hb ++ 0#1)) (1#2 ++ k)
  | .mmac c' src hb k => encCX (c 0x38#6) (0#1 ++ c') (0#1 ++ (src ++ 0#1)) (0#2 ++ (hb ++ 0#1)) (2#2 ++ k)
  | .mxfmt sat fa fb fd => encCI (c 0x39#6) 0#5 z (BitVec.ofBool sat ++ (fa ++ (fb ++ fd)))
  | .accz t => encCX (c 0x3A#6) (0#1 ++ t) z z 0#7
  | .accrd t ra => encCX (c 0x3A#6) (0#1 ++ t) (encSrc ra) z 0x20#7
  | .accdc t hd w => encCX (c 0x3A#6) (0#1 ++ t) z (0#2 ++ (hd ++ 0#1)) (2#2 ++ w)
  | .hld ht m sc => encCM (c 0x3B#6) (0#2 ++ ht) m false sc.code false
  | .hst m ht sc md => encCM (c 0x3C#6) (0#2 ++ ht) m false sc.code md.code
  | .hset hd idx rb => encCX (c 0x3D#6) (0#2 ++ hd) z (encSrc rb) (0#2 ++ (idx ++ 0#2))
  | .hget rd hs idx => encCX (c 0x3D#6) rd (0#2 ++ (hs ++ 0#1)) z (0#2 ++ (idx ++ 1#2))
  | .hgat rd hs rb m => encCX (c 0x3D#6) rd (0#2 ++ (hs ++ 0#1)) (encSrc rb) (0#2 ++ (m ++ 2#2))
  | .hsca op hd ra rb m => encCX (c 0x3D#6) (0#2 ++ hd) (encSrc ra) (encSrc rb) (op.code ++ (m ++ 3#2))
  | .semwait n => encCI (c 0x3E#6) 0#5 z (0#9 ++ n)
  | .sempost n cnt => encCI (c 0x3E#6) 0#5 z (1#3 ++ (cnt ++ n))
  | .copy rd ra rb sc => encCX (c 0x3F#6) rd (encSrc ra) (encSrc rb) (0#2 ++ (sc.code ++ 0#2))
  | .copym rd ra rb sc => encCX (c 0x3F#6) rd (encSrc ra) (encSrc rb) (0#2 ++ (sc.code ++ 1#2))
  | .copyx rd ra rb sc => encCX (c 0x3F#6) rd (encSrc ra) (encSrc rb) (0#2 ++ (sc.code ++ 2#2))
  | .vadd d a' b m t => encCX (a 0x01#6) d (encSrc a') (encSrc b) (m ++ t.code)
  | .vsub d a' b m t => encCX (a 0x02#6) d (encSrc a') (encSrc b) (m ++ t.code)
  | .vmul d a' b m t => encCX (a 0x03#6) d (encSrc a') (encSrc b) (m ++ t.code)
  | .vdiv d a' b m t => encCX (a 0x04#6) d (encSrc a') (encSrc b) (m ++ t.code)
  | .vmin d a' b m t => encCX (a 0x05#6) d (encSrc a') (encSrc b) (m ++ t.code)
  | .vmax d a' b m t => encCX (a 0x06#6) d (encSrc a') (encSrc b) (m ++ t.code)
  | .vsqrt d a' m t => encCX (a 0x07#6) d (encSrc a') z (m ++ t.code)
  | .vand d a' b m t => encCX (a 0x08#6) d (encSrc a') (encSrc b) (m ++ t.code)
  | .vor d a' b m t => encCX (a 0x09#6) d (encSrc a') (encSrc b) (m ++ t.code)
  | .vxor d a' b m t => encCX (a 0x0A#6) d (encSrc a') (encSrc b) (m ++ t.code)
  | .vshl d a' b m t => encCX (a 0x0B#6) d (encSrc a') (encSrc b) (m ++ t.code)
  | .vshr d a' b m t => encCX (a 0x0C#6) d (encSrc a') (encSrc b) (m ++ t.code)
  | .vsra d a' b m t => encCX (a 0x0D#6) d (encSrc a') (encSrc b) (m ++ t.code)
  | .vabs d a' m t => encCX (a 0x0E#6) d (encSrc a') z (m ++ t.code)
  | .vneg d a' m t => encCX (a 0x0F#6) d (encSrc a') z (m ++ t.code)
  | .vfmaF32 d a' b c' => encCX (a 0x10#6) d (encSrc a') (encSrc b) (encSrc c' ++ 0#1)
  | .vfnmaF32 d a' b c' => encCX (a 0x10#6) d (encSrc a') (encSrc b) (encSrc c' ++ 1#1)
  | .vfmaF64 d a' b c' => encCX (a 0x11#6) d (encSrc a') (encSrc b) (encSrc c' ++ 0#1)
  | .vfnmaF64 d a' b c' => encCX (a 0x11#6) d (encSrc a') (encSrc b) (encSrc c' ++ 1#1)
  | .vfmaF16 d a' b c' => encCX (a 0x12#6) d (encSrc a') (encSrc b) (encSrc c' ++ 0#1)
  | .vfnmaF16 d a' b c' => encCX (a 0x12#6) d (encSrc a') (encSrc b) (encSrc c' ++ 1#1)
  | .vfmaBf16 d a' b c' => encCX (a 0x13#6) d (encSrc a') (encSrc b) (encSrc c' ++ 0#1)
  | .vfnmaBf16 d a' b c' => encCX (a 0x13#6) d (encSrc a') (encSrc b) (encSrc c' ++ 1#1)
  | .vcmp cond k a' b m t => encCX (a 0x14#6) (cond.code ++ k) (encSrc a') (encSrc b) (m ++ t.code)
  | .vsel d a' b m t => encCX (a 0x15#6) d (encSrc a') (encSrc b) (m ++ t.code)
  | .vcvt d a' b m form => encCX (a 0x16#6) d (encSrc a') (encSrc b) (m ++ form)
  | .vbcast d a' t => encCI (a 0x17#6) d (encSrc a') (t.code ++ 0#9)
  | .vmovx d a' t lane => encCI (a 0x18#6) d (encSrc a') (t.code ++ lane)
  | .vperm d a' b m t => encCX (a 0x19#6) d (encSrc a') (encSrc b) (m ++ t.code)
  | .vzip d a' b m t => encCX (a 0x1A#6) d (encSrc a') (encSrc b) (m ++ t.code)
  | .vunzip d a' b m t => encCX (a 0x1B#6) d (encSrc a') (encSrc b) (m ++ t.code)
  | .vrsum d a' m t => encCX (a 0x1C#6) d (encSrc a') (0#5 ++ 0#1) (m ++ t.code)
  | .vrmax d a' m t => encCX (a 0x1C#6) d (encSrc a') (1#5 ++ 0#1) (m ++ t.code)
  | .vrmin d a' m t => encCX (a 0x1C#6) d (encSrc a') (2#5 ++ 0#1) (m ++ t.code)
  | .vdot d a' b m => encCX (a 0x1D#6) d (encSrc a') (encSrc b) (m ++ 3#4)
  | .kand d a' b => encCX (a 0x1E#6) (0#2 ++ d) (0#2 ++ (a' ++ 0#1)) (0#2 ++ (b ++ 0#1)) 0#7
  | .kor d a' b => encCX (a 0x1E#6) (0#2 ++ d) (0#2 ++ (a' ++ 0#1)) (0#2 ++ (b ++ 0#1)) 1#7
  | .kxor d a' b => encCX (a 0x1E#6) (0#2 ++ d) (0#2 ++ (a' ++ 0#1)) (0#2 ++ (b ++ 0#1)) 2#7
  | .kandn d a' b => encCX (a 0x1E#6) (0#2 ++ d) (0#2 ++ (a' ++ 0#1)) (0#2 ++ (b ++ 0#1)) 3#7
  | .knot d a' => encCX (a 0x1E#6) (0#2 ++ d) (0#2 ++ (a' ++ 0#1)) z 4#7
  | .kfromx d a' => encCX (a 0x1E#6) (0#2 ++ d) (encSrc a') z 5#7
  | .ktox d a' => encCX (a 0x1E#6) d (0#2 ++ (a' ++ 0#1)) z 6#7
  | .vaddi d a' t imm => encCI (a 0x1F#6) d (encSrc a') (t.code ++ (0#2 ++ imm))
  | .vshli d a' t amount => encCI (a 0x1F#6) d (encSrc a') (t.code ++ (1#2 ++ (0#1 ++ amount)))
  | .vshri d a' t amount => encCI (a 0x1F#6) d (encSrc a') (t.code ++ (2#2 ++ (0#1 ++ amount)))
  | .vsrai d a' t amount => encCI (a 0x1F#6) d (encSrc a') (t.code ++ (3#2 ++ (0#1 ++ amount)))
  | .scfg u a' idx => encCI (a 0x20#6) (u ++ 0#3) (encSrc a') (0#10 ++ idx)
  | .sbindPop u => encCI (a 0x21#6) (u ++ 0#3) z 0#13
  | .sbindPush u => encCI (a 0x21#6) (u ++ 0#3) z 1#13
  | .sunbind u => encCI (a 0x22#6) (u ++ 0#3) z 0#13
  | .sstat d u => encCI (a 0x23#6) (u ++ 0#3) (d ++ 0#1) 0#13
  | .repImm n cnt => encCB (a 0x24#6) n (1#1 ++ (0#2 ++ cnt))
  | .repReg n a' => encCB (a 0x24#6) n (0#1 ++ (encSrc a' ++ 0#12))
  | .longOpBlock _ => 0#32
  | .fillWordUpdate _ _ => 0#32
  | .qregEnqueueDrain _ _ => 0#32
  | .qregFetchAhead _ _ => 0#32
  | .matrixRequestStart _ => 0#32
  | .matrixRequestEnd _ => 0#32
  | .formatBubbleEnd _ => 0#32
  | .accrdDeliver _ => 0#32
  | .copyEngineStart _ => 0#32
  | .copyLineWrite _ _ => 0#32
  | .copyReleased _ => 0#32
  | .copyVisible _ => 0#32
  | .streamFetchAhead _ _ => 0#32
  | .streamPushStore _ _ => 0#32
  | .replayWord _ => 0#32
  | .answerArrival _ _ => 0#32
  | .ageBoost _ _ => 0#32
  | .messageArrival _ => 0#32
  | .messageResend _ => 0#32
  | .handlerStart _ => 0#32
  | .upcallStart _ => 0#32
  | .dispatcherStep _ => 0#32
  | .crewStart _ => 0#32
  | .timeSliceExpiry _ _ => 0#32
  | .checkpointDeadlineExpiry _ _ => 0#32
  | .contextResume _ _ => 0#32
  | .parkedMessageMoveIn _ => 0#32
  | .timeBaseTick => 0#32
  | .powerStateEntry _ => 0#32
  | .wakeEvent _ => 0#32
  | .throttleStep _ => 0#32
  | .homeGrant _ _ => 0#32
  | .efInvalidationLands _ _ => 0#32
  | .invalidationResend _ _ => 0#32
  | .isolationTimeout _ _ => 0#32
  | .frameDelivery _ => 0#32
  | .pageRequestSend _ => 0#32
  | .pageRequestTimeout _ _ => 0#32
  | .partitionReset _ => 0#32
  | .restartPoint _ => 0#32
  | .faultPacketEnqueue _ => 0#32
  | .heldRecordFlush => 0#32
  | .acceptTableWrite _ => 0#32
  | .debugRelease _ => 0#32
  | .debugRetire _ => 0#32
  | .retiredEntryFree _ _ => 0#32
  | .debugMirrorWrite _ => 0#32
  | .flitReplay _ => 0#32
  | .notAnInstruction _ _ => 0#32
  | .instructionFetchFault => 0#32
  | .storeCompletion _ _ => 0#32
  | .atsTranslationCompletion _ _ _ => 0#32
  | .throttleSignal _ _ _ => 0#32
  | .isolationReport _ _ => 0#32
  | .frameArrival _ _ _ => 0#32
  | .ingestConfigWrite _ _ _ => 0#32
  | .hostLaunchWrite _ _ => 0#32
  | .lstatRead _ => 0#32
  | .ltolWrite _ _ => 0#32
  | .vfBindingWrite _ _ => 0#32
  | .hostBar2Read _ _ _ => 0#32
  | .hostBar2Write _ _ _ _ _ => 0#32
  | .registerWrite _ _ => 0#32
  | .pageResponse _ _ _ _ => 0#32
  | .atsInvalidateRequest _ _ => 0#32
  | .priEnableToggle _ => 0#32
  | .prdropRead _ => 0#32
  | .peerPushArrival _ => 0#32
  | .mgmtCreateContext _ => 0#32
  | .mgmtSetAccept _ _ _ => 0#32
  | .packageIdAssign _ => 0#32
  | .routeTableWrite _ _ => 0#32
  | .exportTableWrite _ _ _ _ _ => 0#32
  | .moduleReset _ => 0#32
  | .recoveryGo _ _ => 0#32
  | .recoveryProg _ _ => 0#32
  | .svnRaise => 0#32
  | .softErrorDetect _ => 0#32
  | .scrubRead _ => 0#32
  | .ellostRead => 0#32
  | .flitReceive _ _ => 0#32
  | .retrainComplete _ _ => 0#32
  | .linkCounterRead _ _ => 0#32
  | .linkRetrainCommand _ => 0#32
  | .hostLinkDown _ => 0#32
  | .functionLevelReset _ => 0#32
  | .trustDieError => 0#32
  | .powerLoss => 0#32
  | .hostLinkUp _ => 0#32
  | .mgmtRangeGrant _ _ _ _ _ _ => 0#32

end Sys2Proof
end

