-- ==== Sys2Proof/Config.lean ====
section
/-! DEFINITION. What an implementation fixes, and the free values: constants with no body, so that nothing can be proved
of them. -/
namespace Sys2Proof.Config

/-- R66, R424, R444: the value of the n-th reply link, opaque to software (DESIGN CHOICE, log 5). -/
opaque linkValue : Nat → DWord

/-- R129: whether a fetch of a word that the instruction cache holds returns the cached word (DESIGN CHOICE, log 6). -/
opaque fetchCached : Nat → Bool

/-- A byte whose value the spec leaves open, by the serial of the event that left it so and its place: second-tier memory
whose key was destroyed (R473, DESIGN CHOICE, log 7), a share byte outside the ranges of the checkpoint table after the resume (R76, R435,
DESIGN CHOICE, log 8). -/
opaque lostByte : Nat → Nat → Byte

/-- R175: the core-clock periods that have passed within the current tick, before reduction to the clock in effect
(DESIGN CHOICE, log 9). -/
opaque cyclePhase : Nat → Nat

/-- R343: a byte of the first 4 KiB of a `ctxsave` image, whose contents the spec does not give (DESIGN CHOICE, log 10). -/
opaque imageByte : Nat → Nat → Byte

/-- R77, R230, R401: a dword whose value the spec leaves open at one point of a run (DESIGN CHOICE, log 11). -/
opaque freeDword : Nat → DWord

/-- R379: the stack of a channel has a spare row left for the repair of a row, by the row's offset in the channel (DESIGN CHOICE, log 16). -/
opaque spareRow : Nat → Nat → Bool

/-- R132, R135: the hosts take a store later than the dies do, by the number of its grant (DESIGN CHOICE, log 101). -/
opaque lateAtHost : Nat → Bool

/-- R346: a byte of a line that stands under one key, read with another: by the keys, the line's number, what stands there and the byte's
place in the line (DEDUCED, log 38). -/
opaque otherKey : Nat → Nat → Nat → Nat → Nat → Byte

end Sys2Proof.Config
end

