-- ==== Sys2Proof/Machine/State.lean ====
section
/-! DEFINITION. The state of the part: plain data, one field for each piece of state the spec names, the model's own
fields marked so, and the state after start-up (R357). -/
namespace Sys2Proof.Machine

/-- Why the machine stops (each is safe: no claim about a next state follows from it). -/
inductive Fault
  /-- Raised by `step` when the trust die is not in normal mode (R476, R477, R480): nothing further runs until a
  module reset or a recovery load, which `agenda` must name. Safe. -/
  | halted
  deriving DecidableEq, Repr

/-- Why the model has no next state. -/
inductive Refusal
  /-- An instruction that has no meaning in the model. Safe. -/
  | notModelled (mnemonic : String)
  deriving DecidableEq, Repr

/-- A table keyed by numbers, ascending, a missing key standing for the default. -/
abbrev Tab (α : Type) := List (Nat × α)

/-! ### Fibres (R58 to R61) -/

/-- R60 state: free, ready, waiting, parked, frozen. -/
inductive FState | free | ready | waiting | parked | frozen
  deriving DecidableEq, Repr

/-- Model's own: exactly what a waiting fibre waits for; R60's wait and wop name it less exactly. -/
inductive WCond
  /-- Nothing, or the answer of its round trip, which readies it as it lands. -/
  | none
  | xreg (r : Reg)
  /-- A v source: full, or its stream holds more than `ahead` elements (R273). -/
  | vreg (r : Reg) (ahead : Nat)
  /-- A destination whose producer is in flight (R65). -/
  | xdst (r : Reg)
  /-- The same of a v register; one bound for pushing has space for its element after `ahead` others of the unit (R274). -/
  | vdst (r : Reg) (ahead : Nat)
  /-- Producers of its registers (R206). -/
  | producers
  | qpop (q n : Nat)
  | qpush (q n : Nat)
  | hw (mask : Byte)
  /-- R234: the fill word at a place, while its generation is this. -/
  | fill (a gen : Nat)
  /-- R238: eight fill words from a place, and the record of generations seen. -/
  | fills (a : Nat) (mask : Byte) (seen : DWord)
  | tokens (mask : Byte)
  | anyToken (mask : Byte)
  | sem (n : Nat)
  /-- R229: the fibre's accesses performed at a scope. -/
  | fence (sc : Scope)
  /-- R279: what the next word of a replay waits for. -/
  | replay
  deriving DecidableEq, Repr

/-- A run-queue entry (R58, R60): PC, status word, x1..x8, and the model's own fields. -/
structure Fibre where
  pc : DWord := 0
  st : FState := .free
  level : BitVec 2 := 0
  boost : Bool := false
  kind : BitVec 2 := 0
  fe : Byte := 0
  pred : Byte := 0
  tok : BitVec 16 := 0
  wop : Byte := 0
  age : BitVec 12 := 0
  wait : BitVec 4 := 0
  x : Vector DWord 8 := Vector.replicate 8 0
  cond : WCond := .none
  /-- Model's own: number of this life of the entry, which answers in flight name. -/
  uid : Nat := 0
  /-- Model's own: the crew the fibre counts for (R56). -/
  crew : Option Nat := none
  /-- Model's own: the reply link a handler owes an answer on (R206). -/
  owes : Option Nat := none
  /-- R389: retired by a resolver, its entry held until its last producer lands. -/
  retiring : Bool := false
  deriving DecidableEq, Repr

/-- What a parked fibre waits for, and the data its upcall or packet carries (R421 to R424, R444). -/
structure Parking where
  entry : Nat
  uid : Nat
  dva : DWord
  access : BitVec 4
  level : BitVec 2
  pc : DWord
  word : Word
  other : Word
  wh : BitVec 2 := 0
  body : BitVec 5 := 0
  started : Bool := false
  link : Option Nat := none
  seq : Nat := 0
  deriving DecidableEq, Repr

/-! ### Where addresses lead -/

/-- What an address reaches after its checks (R78, R102, R349). -/
inductive Target
  | mem (a : Nat)                       -- memory, scratchpad or accumulators, by place
  | vreg (core : Nat) (off : Nat)       -- a v-register window
  | inbox (core : Nat) (off : Nat)
  | sem (cl : Nat) (i : Nat)
  | overman (quad : Nat) (off : Nat)
  | peer (pkg : Nat) (off : Nat)
  | host (port : Nat) (a : Nat)
  deriving DecidableEq, Repr

/-- Model's own: what the translations of an access have read (R90): the places of table entries, and the PPAs looked up in the range
table. -/
structure Lookups where
  ptes : List Nat := []
  ppas : List Nat := []
  deriving DecidableEq, Repr

/-! ### Streams, repetition, queue registers (R268, R278, R249) -/

/-- A pushed element that has not left its unit as stores (R274): the lanes to write and where (checked at issue, R414),
the item width in bits, and the element's value once it has arrived. -/
structure PushElem where
  items : List (Nat × Target)
  width : Nat
  md : StMode
  val : Option VWord
  tag : Nat
  pc : DWord := 0
  word : Word := 0
  adm : Lookups := {}
  deriving DecidableEq, Repr

/-- A stream unit (R269, R428 sbind). `bind`: 0 unbound, 1 pop, 2 push. `held`: elements fetched ahead. -/
structure Stream where
  dw : Vector DWord 7 := Vector.replicate 7 0
  pos : BitVec 48 := 0
  handle : HWord := 0
  bind : BitVec 2 := 0
  held : List VWord := []
  push : List PushElem := []
  /-- Model's own: the stored elements of a compressed handle, read at `sbind` (R294), and the number of the `sbind`. -/
  cnt : Nat := 0
  bindAt : Nat := 0
  deriving DecidableEq, Repr

/-- The repetition buffer and its replay state (R431). -/
structure Rep where
  body : Vector Word 32 := Vector.replicate 32 0
  act : Bool := false
  len : BitVec 5 := 0
  next : BitVec 5 := 0
  left : BitVec 17 := 0
  repat : DWord := 0
  /-- Model's own: the `rep` word, for a fault's packet (R416). -/
  wd : Word := 0
  /-- Model's own: the primary has parked or frozen, so that the replay ends before the unit at its PC issues (R416, R426). -/
  alone : Bool := false
  /-- Model's own: the loop levels whose counts fall by one as the replay completes (R281, R439). -/
  ends : BitVec 2 := 0
  deriving DecidableEq, Repr

/-- q2 or q3 (R249, R430): capability value, direction (0 unbound, 1 enqueue, 2 dequeue, 3 steal), buffer; and the queue
it is bound to. -/
structure QReg where
  cap : DWord := 0
  dir : BitVec 2 := 0
  qid : Nat := 0
  buf : List DWord := []
  /-- Model's own: the moments at which the elements of an enqueue buffer were pushed. -/
  ords : List Nat := []
  /-- Model's own: the binding was written into the cage, and the reload finds its queue (R433). -/
  written : Bool := false
  deriving DecidableEq, Repr

/-! ### Messages (R239 to R245) -/

/-- A message (R239): header dword 0, reply link, six arguments. -/
structure Msg where
  hdr : DWord := 0
  link : DWord := 0
  args : Vector DWord 6 := Vector.replicate 6 0
  deriving DecidableEq, Repr

/-- Where an accepted message goes (R244). -/
inductive Route | handler | q1 | held
  deriving DecidableEq, Repr

/-- A message in an inbox slot or in the cage's parked buffer. `order`: order of acceptance. `die`: it came from another
die (R67). -/
structure InSlot where
  msg : Msg := {}
  tag : Nat := 0
  route : Route := .handler
  order : Nat := 0
  die : Bool := false
  popped : Nat := 0
  link : Option Nat := none
  /-- Model's own: the handler-table entry of its tag when it was accepted or delivered (R246). -/
  entry : DWord := 0
  /-- The slot reserved for a reply that is parked (R74). -/
  slot : Option Nat := none
  deriving DecidableEq, Repr

/-- A long context operation (R429): its progress word, its image address, and the life of the entry that owns its token. -/
structure LongOp where
  word : DWord
  image : DWord
  uid : Nat
  deriving DecidableEq, Repr

/-- A cut-short `accrd` (R286, R430): tile, next row, rows left; and the model's own: the dwords still to deliver, none when
the tile gives them. -/
structure CutRead where
  tile : Nat
  row : Nat
  left : Nat
  dws : Option (List DWord) := none
  deriving DecidableEq, Repr

/-! ### The state of one context on one core: live while it is resident, the cage image otherwise (R75, R428, R389) -/

/-- The primary fibre's registers, the run queue, and all else that a cage holds (DESIGN CHOICE, log 82). -/
structure Img where
  x : Vector DWord 32 := Vector.replicate 32 0
  xfull : Word := 0xFFFFFFFF
  v : Vector VWord 32 := Vector.replicate 32 0
  vfull : Word := 0xFFFFFFFF
  k : Vector Word 8 := Vector.replicate 8 0
  h : Vector HWord 8 := Vector.replicate 8 0
  fmt : DWord := 0x7F3330
  fctl : DWord := 0
  fstatus : DWord := 0
  lb : Vector DWord 2 := Vector.replicate 2 0
  le : Vector DWord 2 := Vector.replicate 2 0
  lc : Vector DWord 2 := Vector.replicate 2 0
  streams : Vector Stream 4 := Vector.replicate 4 {}
  rep : Rep := {}
  q0 : List DWord := []
  /-- Cut-short `accrd`s (R286, R430), oldest first. -/
  cuts : List CutRead := []
  qreg : Vector QReg 2 := Vector.replicate 2 {}
  fifoL : List DWord := []
  fifoR : List DWord := []
  handlers : Tab DWord := []
  rq : Tab Fibre := []
  inbox : Tab InSlot := []
  ires : DWord := 0
  parked : List InSlot := []
  /-- R69: messages that have come for a Saved context, whose image holds its parked buffer: they follow it once it is loaded. -/
  kept : List InSlot := []
  /-- The long operations that the primary has issued, oldest first: the first is in progress (R429, R437). -/
  ops : List LongOp := []
  /-- Cause, table and tick of the last stop (R428). -/
  cause : BitVec 3 := 0
  table : DWord := 0
  stopTick : DWord := 0
  /-- Parkings of the run queue's entries, oldest first (R422). -/
  parkings : List Parking := []
  /-- Model's own: the primary has stopped at a `ckpt` naming this table (R72). -/
  atCkpt : Option DWord := none
  /-- Model's own: a fault of the primary has stopped the fetching ahead of its streams until it issues again (R403). -/
  hush : Bool := false
  /-- Cage dwords, by offset, written with values that the fields above cannot hold, until the check of R433 (R75). -/
  odd : Tab DWord := []
  deriving DecidableEq, Repr

/-! ### Contexts (R42, R338) -/

/-- R46. -/
inductive CState | created | running | stopped | saved | revoked
  deriving DecidableEq, Repr

/-- A range-table entry in use (R93). -/
structure Range where
  base : BitVec 53
  limit : BitVec 53
  target : BitVec 53
  dt : Bool
  scrub : Bool
  rights : BitVec 6
  deriving DecidableEq, Repr

/-- A valid capability slot (R339). -/
structure Cap where
  qid : Nat
  gen : BitVec 16
  steal : Bool
  deq : Bool
  enq : Bool
  deriving DecidableEq, Repr

/-- A range taken out of a table when a context was created (R52, R345, R499): the table's context and generation, and the
entry as it stood. -/
structure Removal where
  ctx : Nat
  gen : BitVec 16
  piece : Range
  deriving DecidableEq, Repr

/-- A context: its RCB (R338), range table, rights map, capability table, accept dword. -/
structure Ctx where
  gen : BitVec 16 := 0
  parent : Option (Nat × BitVec 16) := none
  depth : Nat := 0
  part : Bool := true
  trest : Bool := false
  st : CState := .created
  prio : BitVec 3 := 0
  scap : BitVec 3 := 5
  order : BitVec 4 := 0
  base : BitVec 12 := 0
  busy : Bool := false
  deadline : Word := 10000
  slice : Word := 100000
  budget : DWord := 0xFFFFFFFFFFFFFFFF
  thr : BitVec 63 := 0
  shoff : Byte := 0
  shlen : BitVec 9 := 188
  cageoff : BitVec 13 := 6016
  lq : Nat := 0
  fq : Option Nat := none
  dq : Nat := 0
  ptroot : BitVec 53 := 0
  seed : BitVec 16 := 0
  dmask : Byte := 0
  pno : BitVec 6 := 0
  ltol : Word := 0
  chmap : HWord := 0
  svarea : BitVec 53 := 0
  ranges : List Range := []
  rights : Tab Byte := []
  caps : Tab Cap := []
  accept : DWord := 0
  /-- R457: the widest scope demoted, as the sc code; 0 before the first demotion. -/
  demoted : BitVec 3 := 0
  /-- R52, R345: what was taken out of other tables for this context. -/
  removed : List Removal := []
  /-- R218: stopped by an ancestor's `ctxstop` while it was Running. -/
  stoppedBy : Option Nat := none
  /-- R438: a `ctxstop` that takes it to Stopped is in progress. -/
  stopping : Bool := false
  /-- Model's own: the linear number below which its cores stay stopped while one is (R437). -/
  stopUpTo : Nat := 0
  /-- Model's own: stopped for a restart point of its subtree (R395). -/
  pausing : Bool := false
  /-- R219: saved with an ancestor's image, while it was Stopped. -/
  savedBy : Option Nat := none
  /-- R454: the partition's dirty ring is in overflow. -/
  overflow : Bool := false
  /-- Model's own: the queues that this context created, whose generations revocation bumps (R473). -/
  queues : List Nat := []
  deriving DecidableEq, Repr

/-- A queue-controller queue (R497): generation, the places of its ring's 4 KiB granules, log2 capacity, indices, count. -/
structure Queue where
  gen : BitVec 16 := 0
  ring : List Nat
  cap : Nat
  h : Nat := 0
  t : Nat := 0
  count : Nat := 0
  /-- The context whose launch queue this is (R316). -/
  launchOf : Option Nat := none
  /-- The partition whose dirty ring this is (R350), by its context's number. -/
  ringOf : Option Nat := none
  deriving DecidableEq, Repr

/-! ### Accesses -/

/-- Who made an access: core, context and its generation, entry, and the life of the entry. -/
structure Who where
  core : Nat
  ctx : Nat
  gen : BitVec 16
  entry : Nat
  uid : Nat
  deriving DecidableEq, Repr

/-- A register that an answer fills. -/
inductive Dst
  | none
  | x (r : Reg)
  | v (r : Reg) (lanes : Word) (push : Option (Nat × Nat))   -- byte lanes written; stream unit and push tag
  | h (r : BitVec 3)
  | xp (r : Reg) (p : BitVec 3)
  deriving DecidableEq, Repr

/-- What a round trip does when it is performed (R223). -/
inductive Job
  | load (t : Target) (size : Nat) (signed : Bool)
  | gather (ts : List (Nat × Target)) (size : Nat)
  | value (v : VWord)      -- the element that a pop has taken (R64)
  | amo (t : Target) (op : AmoOp) (v : DWord)
  | cas (t : Target) (exp v : DWord)
  | arrive (a : Nat)
  | enq (qid : Nat) (v : DWord)
  | deq (qid : Nat) (steal : Bool)
  | send (mid : Nat)
  | outcome (v : DWord)
  deriving DecidableEq, Repr

/-- Model's own: what a fault that comes with an answer takes back of a pair (R161, R403): the core's registers before the unit and
after it, the destinations of its round trips, and the first number that it used. -/
structure Undo where
  before : Img
  after : Img
  dsts : List Dst
  first : Nat
  deriving DecidableEq, Repr

/-- A round trip under way (R223): its fibre, its destination, what it does, the scopes of its release and of its acquire. -/
structure Flight where
  who : Who
  dst : Dst
  job : Job
  rel : Option Scope := none
  acq : Option Scope := none
  pc : DWord := 0
  word : Word := 0
  other : Word := 0
  wh : BitVec 2 := 0
  /-- The fabric port that a request to a peer left on (R351, R465). -/
  port : Option Nat := none
  /-- The loop counts before the unit's end check, which a fault at the answer undoes (R409). -/
  lc : Vector DWord 2 := Vector.replicate 2 0
  /-- The address that it was made with. -/
  dva : DWord := 0
  adm : Lookups := {}
  /-- Model's own: what a late fault takes back of the pair that made it. -/
  undo : Option Undo := none
  deriving DecidableEq, Repr

/-- What a store writes (R225, R299): bytes; an atomic lane of a scatter, with the scatter it belongs to, its lane, and the
lanes that passed their checks (R455); or a syncinit (R234). -/
inductive StoreOp
  | bytes (b : Bytes)
  | scat (op : ScatOp) (t : Fmt) (v : DWord) (group lane : Nat) (passed : Byte)
  | init (target : Word) (expected : BitVec 16)
  deriving DecidableEq, Repr

/-- A store that has issued (R118 to R122). `granted`: its home has granted ownership. `stale`: the dies whose
invalidation has not landed, and the bytes they still read. -/
structure PStore where
  who : Who
  t : Target
  op : StoreOp
  md : StMode
  rel : Option Scope := none
  /-- Its place in the order of the core's accesses. -/
  ord : Nat := 0
  granted : Bool := false
  /-- Order of its grant among grants (R111). -/
  gord : Nat := 0
  stale : List Nat := []
  old : List Host.Cell := []
  resent : Tab Nat := []
  isolating : Tab Nat := []
  sentTick : Nat := 0
  port : Option Nat := none
  pc : DWord := 0
  word : Word := 0
  dva : DWord := 0
  adm : Lookups := {}
  /-- R116: the fibres that have acquired it, by a chain of releases and acquires. -/
  hb : List Who := []
  /-- R114: the fibres that have read it before the hosts had it, and the number of the reading access. -/
  obs : List (Who × Nat) := []
  deriving DecidableEq, Repr

/-- A release that has been performed (R115, R117), for as long as a store that it publishes is on its way to some die. `key`, `len`:
where an acquire meets it; `since`, `upTo`: the grants between which its value stands there; `pos`: its place in a queue. -/
structure Rel where
  key : Nat
  len : Nat
  core : Nat
  sc : Scope
  since : Nat
  upTo : Option Nat := none
  pos : Nat := 0
  stores : List Nat
  deriving DecidableEq, Repr

/-- A `fence.w` (R230): the fibre's stores numbered below `id` come before those above it, at a scope. -/
structure WBar where
  who : Who
  id : Nat
  sc : Scope
  deriving DecidableEq, Repr

/-! ### Engines -/

/-- A destination line of a copy (R123, R124). -/
structure CLine where
  src : List (Target × Nat)
  dst : Target
  len : Nat
  /-- Its first byte, as an offset in the copy. -/
  off : Nat := 0
  buf : Option Bytes := none
  done : Bool := false
  /-- A peer has performed or refused it (R125, R453). -/
  acked : Bool := false
  /-- The port that it was pushed on. -/
  port : Option Nat := none
  deriving DecidableEq, Repr

/-- A copy (R309 to R315). `cl`: the cluster whose engine it is queued at, none for a package engine. -/
structure Copy where
  who : Who
  cl : Option Nat
  scope : Scope
  lines : List CLine
  started : Bool := false
  released : Bool := false
  visible : Bool := false
  rtok : Option (BitVec 3)
  vtok : Option (BitVec 3)
  fill : Option Nat          -- fill-word offset, counted in each destination cluster
  /-- Host pages it is held on (R349): port, page, and the first address in it. -/
  held : List (Nat × Nat × DWord) := []
  peerFault : Option DWord := none
  dva : DWord := 0
  /-- The source address. -/
  sva : DWord := 0
  adm : Lookups := {}
  deriving DecidableEq, Repr

/-- A request of the matrix unit (R285, R302, R305 to R307): with the handles and FMT it carries. -/
inductive MOp
  | product (c : Nat) (a : Option HWord) (src : Nat) (b : HWord) (k : Nat)
  | zero (t : Nat)
  | read (t : Nat) (row : Nat) (col : Nat) (left : Nat)
  | down (t : Nat) (d : HWord) (w : Nat)
  deriving DecidableEq, Repr

/-- An accepted matrix request. -/
structure MReq where
  who : Who
  id : Nat
  op : MOp
  fmt : DWord
  running : Bool := false
  deriving DecidableEq, Repr

/-- What reaches a fill word (R233). -/
structure FillOp where
  off : Nat
  bytes : Nat := 0
  arrivals : Nat := 0
  touched : Bool := false
  /-- Model's own: the cores whose arrivals are among them. -/
  cores : List Nat := []
  deriving DecidableEq, Repr

/-- A pending pre-emption request on a cluster (R71, R434). -/
structure PreReq where
  ctx : Nat
  tick : Nat
  byStop : Bool
  deriving DecidableEq, Repr

/-- A stop under way on a cluster (R72, R73): the context, the cause of R428, the table named. -/
structure Closing where
  ctx : Nat
  cause : Nat
  table : DWord
  ranges : List (Nat × Nat) := []
  deriving DecidableEq, Repr

/-- What a stop saved of a context on a cluster (R52, R72, R286): the whole share, or the ranges of a table by offset and
length in the share; and the accumulator tiles, when it held the cluster. -/
structure SaveRec where
  whole : Bool
  ranges : List (Nat × Nat)
  tiles : Bool
  deriving DecidableEq, Repr

/-- A power state of R39. -/
inductive Power | active | gated | retention | deep | parked
  deriving DecidableEq, Repr

/-- A core: what is resident, the round-robin of R69, the debug registers of R389, a dispatcher's reservation. -/
structure Core where
  res : Option Nat := none
  rr : Vector (BitVec 9) 4 := Vector.replicate 4 511#9
  reserved : Option Nat := none
  sel : Word := 0
  refused : Bool := false
  power : Power := .active
  /-- Model's own: the tick by which a core that something has called is Active again (R40). -/
  wakeBy : Option Nat := none
  /-- The context that was last stopped here (R329). -/
  last : Nat := 0
  deriving DecidableEq, Repr

/-- A cluster: MXISSUER (R178), the semaphores (R287), the matrix unit, what reaches its fill words, requests. -/
structure Cluster where
  mxissuer : BitVec 3 := 7
  hs : Vector (BitVec 16) 16 := Vector.replicate 16 0
  mreqs : List MReq := []
  lastFmt : Option DWord := none
  bubble : Bool := false
  fills : List FillOp := []
  advanced : List Nat := []
  /-- Model's own: fill words in use (R458, DEDUCED, log 12): the identity of the context that uses each, and its offset. -/
  words : List (Nat × Nat) := []
  preq : List PreReq := []
  /-- The ticks at which the slices of contexts began (R329), by context. -/
  slices : Tab Nat := []
  /-- R73: contexts whose fibres have stopped here and whose cages are not yet written. -/
  closing : List Closing := []
  /-- The 128-byte lines that the instruction cache holds (R129), by number of the line. -/
  icache : Tab Nat := []
  failed : Bool := false
  offline : Bool := false
  power : Power := .active
  deriving DecidableEq, Repr

/-- A fault packet (R382): dwords 0 to 6, the count of reflections, and the rest of dword 7, which a `reflect` copies (R222). -/
structure Packet where
  ctx : DWord
  d1 : DWord
  pc : DWord
  d3 : DWord
  addr : DWord
  extra : DWord
  d6 : DWord
  refl : BitVec 4 := 0
  d7 : Word := 0
  deriving DecidableEq, Repr

/-- A quadrant: packet sequence, packets that its overman holds for space and those that cores keep beyond 64 of them, with the
contexts to route them from and their class (R385), the hold of its dispatcher (R322). -/
structure Quad where
  seq : Word := 0
  waiting : List (Nat × Nat × Packet) := []
  kept : List (List Nat × Nat × Packet) := []
  hold : Option Nat := none
  spareUsed : Bool := false
  power : Power := .active
  deriving DecidableEq, Repr

/-- A launch record taken from the head of its queue (R392), waiting for a place or for its start. -/
structure Launch where
  ctx : Nat
  gen : BitVec 16
  addr : DWord
  entry : DWord
  arg : DWord
  place : DWord
  wide : Bool
  level : BitVec 2
  order : Nat
  done : DWord
  quad : Nat
  seq : Nat
  placed : Option Nat := none        -- base of the node it is placed on
  started : Bool := false
  live : Nat := 0                    -- members and light fibres that have not ended (R56)
  deriving DecidableEq, Repr

/-- R319, R124: a status write of a dispatcher that waits for a copy that owns its line: under which context, of which record, with which
word; the arrival that follows it (0 for none); whether a failure sends a packet (R392). -/
structure LateStatus where
  ctx : Nat
  addr : DWord
  word : DWord
  done : DWord := 0
  quad : Nat
  tells : Bool := true
  deriving DecidableEq, Repr

/-- R455: an atomic scatter that the end of its context tears. -/
structure Torn where
  core : Nat
  pc : DWord
  ctx : DWord
  syn : DWord
  deriving DecidableEq, Repr

/-- R471, R474: a function-level reset whose later steps wait for the end of its tick: its virtual function and context, the tick, the
clusters that its contexts held, and the scatters that it has torn. -/
structure Flr where
  vf : Nat
  ctx : Nat
  gen : BitVec 16
  tick : Nat
  held : List Nat
  torn : List Torn
  deriving DecidableEq, Repr

/-- A message in flight (R240 to R243). -/
structure MFlight where
  who : Who
  dst : BitVec 64
  msg : Msg
  toCtx : Nat
  toCore : Nat
  peer : Bool
  isReply : Bool
  slot : Option Nat          -- the slot a reply takes
  reserve : Option (Nat × Nat)   -- the sender's reserved slot and its link
  resends : Nat := 0
  waitTill : Option Nat := none
  flight : Option Nat := none    -- the flight that carries its outcome
  port : Option Nat := none
  linkId : Option Nat := none
  /-- Delivered again after a restore (R396). -/
  again : Bool := false
  deriving DecidableEq, Repr

/-- What a reply link names (R241, R424, R445). -/
inductive LinkKind
  | message (core ctx slot : Nat) (gen : BitVec 16) (rtag prio : Nat) (peer : Bool)
  | remote (pkg lid : Nat) (link : DWord) (prio : Nat)
  | upcall (core ctx entry uid : Nat)
  | composer (core ctx entry uid : Nat)
  deriving DecidableEq, Repr

/-- A reply link: what it names, its value, the context whose fibres may answer, whether it was answered. -/
structure Link where
  kind : LinkKind
  value : DWord := 0
  answerer : Nat
  answererGen : BitVec 16
  replied : Bool := false
  deriving DecidableEq, Repr

/-! ### The edges of the package -/

/-- A raw frame between its arrival and its delivery (R354, R355, R467). -/
structure Frame where
  seq : Word
  data : Bytes
  bad : Bool
  tick : Nat
  deriving DecidableEq, Repr

/-- A flit that its sender keeps until it is acknowledged (R462): its sequence number, the packet that it carries, whether it has been sent, and
the ticks at which it was sent again (R463). -/
structure HeldFlit where
  seq : BitVec 12
  pkt : Nat
  out : Bool
  replays : List Nat := []
  deriving DecidableEq, Repr

/-- A link's status block (R464) and replay buffer (R462). `state` as R464 (DESIGN CHOICE, log 83). -/
structure PLink where
  state : BitVec 3 := 2
  /-- The link has gone down or failed, and no retrain has succeeded since (R465, R466). -/
  failed : Bool := false
  downtick : Word := 0
  replays : Word := 0
  crcerr : Word := 0
  retrains : BitVec 16 := 0
  badframes : BitVec 16 := 0
  txSeq : BitVec 12 := 0
  rxSeq : BitVec 12 := 0
  buffer : List HeldFlit := []
  lanes : Nat := 2
  spareUsed : Bool := false
  failures : Nat := 0
  wantReplay : Bool := false
  askReplay : Bool := false
  /-- The ticks at which a replay of the flit that is awaited was asked for (R463). -/
  asks : List Nat := []
  deriving DecidableEq, Repr

/-- A fabric port: its link and its ingest block (R353). -/
structure Port where
  link : PLink := {}
  ing : Vector DWord 4 := #v[0x0007000000000000, 1, 0, 0]
  frames : List Frame := []
  /-- The tick in which the port's ingress link went down, until the frame that this cut short has been taken (R467). -/
  cut : Option Nat := none
  deriving DecidableEq, Repr

/-- A page-request record (R446): requester, page, tick sent, who joined. -/
structure PageRec where
  group : Nat
  rid : Nat
  page : Nat
  sent : Option Nat
  joined : List Who
  copies : List Nat
  successes : Nat := 0
  deriving DecidableEq, Repr

/-- A translation that a port has asked its host for (R349): for a fibre, which parks if the page is not present, for a held copy, or for a
block of a long operation. -/
structure Ask where
  who : Who
  page : Nat
  copy : Option Nat := none
  parking : Option Parking := none
  deriving DecidableEq, Repr

/-- A host port (R347, R349, R447). -/
structure HostPort where
  up : Bool := true
  recs : List PageRec := []
  alloc : Nat := 512
  prdrop : Word := 0
  prtime : Word := 100000000
  stopped : List Nat := []
  ats : List Nat := []
  asking : List Ask := []
  /-- The uncorrectable internal error that the port reports through AER (R480). -/
  aer : Bool := false
  deriving DecidableEq, Repr

/-- A virtual function (R347, R348). -/
structure VF where
  bind : DWord := 0
  lstat : Bool := false
  winbase : DWord := 0
  deriving DecidableEq, Repr

/-- An export-table entry (R352), its four dwords. -/
structure Export where
  d0 : DWord
  d1 : DWord
  d2 : DWord
  d3 : DWord
  deriving DecidableEq, Repr

/-- An error record (R398). -/
structure ErrRec where
  sev : Byte
  unit : Byte
  loc : BitVec 16
  seq : Word
  tick : DWord
  wh : DWord
  ctx : DWord
  syn : DWord
  fclass : Byte
  action : Byte
  count : DWord
  deriving DecidableEq, Repr

/-- The error log (R397). -/
structure ErrLog where
  recs : Tab ErrRec := []
  total : Nat := 0
  tail : BitVec 10 := 0
  held : List ErrRec := []
  lostCorrected : Word := 0
  lostOther : Word := 0
  seq : Word := 0
  deriving DecidableEq, Repr

/-- A die: its clock (R481, R175), its link (R464). `cyc`: core-clock periods in fifths. -/
structure Die where
  cyc : Nat := 0
  /-- Model's own: how far CYCLE has been seen to go within the tick (DESIGN CHOICE, log 9). -/
  phase : Nat := 0
  level : BitVec 4 := 0
  target : BitVec 4 := 0
  cause : Byte := 0
  thtick : DWord := 0
  lastRec : Option Nat := none
  link : PLink := {}
  power : Power := .active
  deriving DecidableEq, Repr

/-- A firmware image in module flash (R477). -/
structure Flash where
  valid : Bool := true
  svn : Word := 0
  version : DWord := 0
  deriving DecidableEq, Repr

/-- Start-up and recovery (R475 to R478). `mode`: 0 normal, 1 recovery, 2 halted. -/
structure Boot where
  step : BitVec 4 := 7
  mode : BitVec 4 := 0
  cause : Byte := 0
  dead : Byte := 0
  svn : Word := 0
  minSvn : Word := 0
  version : DWord := 0
  raddr : DWord := 0
  rlen : DWord := 0
  flash : Flash := {}
  deriving DecidableEq, Repr

/-- A location with errors (R379): its key, the ticks of its correctable errors, whether it is hard; whether an uncorrectable error has
been found there, and whether the word has been rewritten since. -/
structure HardLoc where
  site : Site
  ticks : List Nat
  /-- The first bytes and the lengths of the words of memory that have failed there. -/
  places : List (Nat × Nat) := []
  count : DWord := 0
  hard : Bool := false
  failed : Bool := false
  rewritten : Bool := false
  deriving DecidableEq, Repr


/-- A range of memory whose bytes the spec leaves open: second-tier memory whose key was destroyed unscrubbed (R473), or
share bytes that a checkpoint table did not name (R76). It reads as free bytes. -/
structure LostRange where
  lo : Nat
  hi : Nat
  serial : Nat
  deriving DecidableEq, Repr

/-- A restart point of a subtree (R395): its contexts and their states, what their cores, clusters and crews held, and the
bytes of its shares, tiles and dirty-track ranges, with the places and the MPA ranges of those; and what reached it since
(R396). -/
structure RPoint where
  ctx : Nat
  gen : BitVec 16
  tick : Nat
  states : Tab CState
  imgs : Tab Img
  saves : Tab SaveRec
  sems : Tab (Vector (BitVec 16) 16)
  launches : Tab Launch
  places : List (Nat × Nat)
  mpas : List (Nat × Nat)
  bytes : List Host.Cell
  lost : List LostRange
  inbound : List MFlight := []
  deriving DecidableEq, Repr

/-- The unit that issues (R169): core, context, entry, PC, the address after it, and its words. -/
structure UnitCtx where
  core : Nat := 0
  ctx : Nat := 0
  entry : Nat := 0
  pc : DWord := 0
  unitEnd : DWord := 0
  word : Word := 0
  other : Word := 0
  /-- 0 lone word, 1 C word of a pair, 2 A word of a pair, 3 repetition body word (R382). -/
  wh : BitVec 2 := 0
  body : BitVec 5 := 0
  /-- The A word of the pair that the C word leads. -/
  pair : Option Instr := none
  /-- The registers as they stood before the pair (R161). -/
  view : Option Img := none
  deriving DecidableEq, Repr

/-- One move of the part: a step that has no encoding, or a core that issues its next unit. -/
inductive Move
  | event (i : Instr)
  | core (n : Nat)
  deriving DecidableEq, Repr

/-- The whole part. -/
structure State where
  /-- Model's own: who moves next, oldest first; empty, the model chooses (DESIGN CHOICE, log 1). -/
  agenda : List Move := []
  /-- Model's own: a counter that numbers operations and free values. -/
  fresh : Nat := 1
  /-- Model's own: the first core that has yet to issue in this round; beyond the cores, what the tick has had. -/
  turn : Nat := 0
  /-- The cycles that have passed in this tick, and that no core has issued in this one. The model's own (DESIGN CHOICE, log 1). -/
  cycle : Nat := 0
  lull : Bool := true
  /-- Model's own: the time base has just advanced, and nothing but starts of crews has happened since (R325). -/
  edge : Bool := false
  unit : UnitCtx := {}
  /-- Model's own: what the translations of the unit have read. -/
  lookups : Lookups := {}
  /-- TICK (R175). -/
  tick : Nat := 0
  /-- Live compute dies (R2). -/
  dies : Nat := 8
  mem : List Host.Cell := []
  lost : List LostRange := []
  /-- R346: the key under which a line of the second tier stands, by the line's number, where a partition has written it. -/
  keyed : Tab Nat := []
  cores : Tab Core := []
  imgs : Tab Img := []
  clusters : Tab Cluster := []
  quads : Tab Quad := []
  die : Tab Die := []
  ctxs : Tab Ctx := []
  gens : Tab (BitVec 16) := []
  queues : Tab Queue := []
  qgens : Tab (BitVec 16) := []
  /-- R288: semaphore counts that a context keeps for a cluster it does not hold, by ctx × 512 + cluster. -/
  sems : Tab (Vector (BitVec 16) 16) := []
  /-- What stops saved (R52), by ctx × 512 + cluster. -/
  saves : Tab SaveRec := []
  flights : Tab Flight := []
  stores : Tab PStore := []
  /-- R455: lanes of scatters that were taken out without being performed. -/
  undone : List PStore := []
  /-- Model's own: the releases that have been performed and publish stores still on their way (R115). -/
  rels : List Rel := []
  wbars : List WBar := []
  copies : Tab Copy := []
  launches : Tab Launch := []
  /-- R124: the dispatchers' status writes that wait, oldest first. -/
  late : List LateStatus := []
  /-- R320: the contexts whose launch queues are not empty, in the order of the dispatchers' FIFOs. -/
  launchFifo : List Nat := []
  msgs : Tab MFlight := []
  links : Tab Link := []
  ports : Tab Port := []
  hosts : Tab HostPort := []
  vfs : Tab VF := []
  routes : Tab (BitVec 128) := []
  exports : Tab Export := []
  pkg : Option (BitVec 10) := none
  log : ErrLog := {}
  saved : List ErrRec := []
  boot : Boot := {}
  hard : List HardLoc := []
  rpoints : List RPoint := []
  rintervals : Tab Nat := []
  /-- R395: the second-tier restart area that the host reserves for a partition, by its number: first MPA and length. -/
  rareas : Tab (Nat × Nat) := []
  /-- Model's own: function-level resets whose tick has not ended (R474). -/
  flrs : List Flr := []
  /-- R450: accesses refused: the home's die, the silent die, and the numbers of the partitions whose reset ends it. -/
  isolated : List (Nat × Nat × List Nat) := []
  /-- Model's own: the numbers of partitions that have taken an uncorrectable error, each of which R393 resets. -/
  resetting : List Nat := []
  /-- Model's own: values returned to a host by its last read (R348), or to a peer package by its last atomic (R133). -/
  hostOut : List DWord := []
  /-- Model's own: the code of the last answer to a push or message of a peer package (R242, R352, R452), 0 for one accepted. -/
  peerOut : Option Nat := none
  deriving DecidableEq, Repr

/-- The services context after start-up (R357 step 6, R43, R479): context 0 at depth 0, Running, as the firmware image gives it
(DESIGN CHOICE, log 3), its RCB otherwise at the reset column of R338. -/
def servicesCtx : Ctx := { st := .running, lq := 0, dq := 1, queues := [0, 1] }

/-- The queues of the services context, their rings right below the control area (DESIGN CHOICE, log 3). -/
def servicesQueues : Tab Queue :=
  [(0, { ring := [0x1FFDFFFE000], cap := 9, launchOf := some 0 }), (1, { ring := [0x1FFDFFFF000], cap := 9, ringOf := some 0 })]

/-- The part after normal start-up (R357 step 7): tick 0, the services context created, memory empty. -/
def State.reset : State := { ctxs := [(0, servicesCtx)], queues := servicesQueues, qgens := [(0, 0), (1, 0)] }

end Sys2Proof.Machine
end

