-- ==== Sys2Proof/Machine/Bits.lean ====
section
/-! DEFINITION. Bit fields, byte order, sign extension, and tables keyed by numbers. -/
namespace Sys2Proof.Machine

/-- Bits [hi:lo] of a value (R12). -/
def bits (v : Nat) (hi lo : Nat) : Nat := (v >>> lo) % 2 ^ (hi + 1 - lo)

/-- Bits [hi:lo] of a dword. -/
def fld (v : DWord) (hi lo : Nat) : Nat := bits v.toNat hi lo

/-- Replace bits [hi:lo] of a dword. -/
def setFld (v : DWord) (hi lo : Nat) (x : Nat) : DWord :=
  BitVec.ofNat 64 (v.toNat - (bits v.toNat hi lo) * 2 ^ lo + (x % 2 ^ (hi + 1 - lo)) * 2 ^ lo)

/-- A Bool as a bit. -/
def b2n (b : Bool) : Nat := if b then 1 else 0

/-- The dword of a number, modulo 2^64. -/
def dw (n : Nat) : DWord := BitVec.ofNat 64 n

/-- sext (R179): the low n bits read as two's complement. -/
def sext (v : DWord) (n : Nat) : DWord :=
  let x := v.toNat % 2 ^ n
  if 2 ^ n ≤ 2 * x then BitVec.ofInt 64 ((x : Int) - (2 ^ n : Nat)) else BitVec.ofNat 64 x

/-- zext (R179). -/
def zext (v : DWord) (n : Nat) : DWord := BitVec.ofNat 64 (v.toNat % 2 ^ n)

/-- A number of w bits read as two's complement. -/
def sgn (w : Nat) (x : Nat) : Int := if 2 ^ w ≤ 2 * (x % 2 ^ w) then (x % 2 ^ w : Nat) - (2 ^ w : Nat) else (x % 2 ^ w : Nat)

/-- An integer modulo 2^w. -/
def wrap (w : Nat) (x : Int) : Nat := (x % (2 ^ w : Nat)).toNat

/-- The bytes of a number, lowest first (R11). -/
def toBytes : Nat → Nat → Bytes
  | 0, _ => []
  | n + 1, v => BitVec.ofNat 8 v :: toBytes n (v / 256)

/-- The number of some bytes, lowest first (R11). -/
def ofBytes : Bytes → Nat
  | [] => 0
  | b :: bs => b.toNat + 256 * ofBytes bs

/-- Element i, of w bits, of a wide value (R11). -/
def lane (v : Nat) (w i : Nat) : Nat := (v >>> (w * i)) % 2 ^ w

/-- A wide value from its elements of w bits, lowest first. -/
def ofLanes (w : Nat) : List Nat → Nat
  | [] => 0
  | x :: xs => x % 2 ^ w + 2 ^ w * ofLanes w xs

/-- Dword i of a handle. -/
def hdw (h : HWord) (i : Nat) : DWord := h.extractLsb' (64 * i) 64

/-- A handle with dword i replaced. -/
def setHdw (h : HWord) (i : Nat) (v : DWord) : HWord :=
  BitVec.ofNat 512 (ofLanes 64 ((List.range 8).map fun j => if j = i then v.toNat else (hdw h j).toNat))

/-- The entry of a table, if it is there. -/
def tget {α : Type} : Tab α → Nat → Option α
  | [], _ => none
  | (k, v) :: t, n => if n = k then some v else if n < k then none else tget t n

/-- A table with one entry set, keys ascending. -/
def tset {α : Type} : Tab α → Nat → α → Tab α
  | [], n, x => [(n, x)]
  | (k, v) :: t, n, x => if n = k then (n, x) :: t else if n < k then (n, x) :: (k, v) :: t else (k, v) :: tset t n x

/-- A table without one entry. -/
def tdel {α : Type} : Tab α → Nat → Tab α
  | [], _ => []
  | (k, v) :: t, n => if n = k then t else (k, v) :: tdel t n

/-- Keys strictly rising. -/
def tsorted {α : Type} : Tab α → Bool
  | [] => true
  | [_] => true
  | (a, _) :: (b, y) :: t => decide (a < b) && tsorted ((b, y) :: t)

/-- The lowest of n indexes from k that satisfies a test. -/
def lowestFrom (f : Nat → Bool) : Nat → Nat → Option Nat
  | 0, _ => none
  | n + 1, k => if f k then some k else lowestFrom f n (k + 1)

/-- The lowest index below n that satisfies a test. -/
def lowest (n : Nat) (f : Nat → Bool) : Option Nat := lowestFrom f n 0

/-- The indexes of the set bits among the n lowest. -/
def ones (v n : Nat) : List Nat := (List.range n).filter fun i => v.testBit i

/-- Put an element into a list that ascends by a key, after those of its own key. -/
def insertBy {α : Type} (key : α → Nat) (x : α) : List α → List α
  | [] => [x]
  | y :: ys => if key x < key y then x :: y :: ys else y :: insertBy key x ys

/-- A list in ascending order of a key, equals in the order they stood. -/
def sortBy {α : Type} (key : α → Nat) (l : List α) : List α := l.foldl (fun r x => insertBy key x r) []

end Sys2Proof.Machine
end

