-- ==== Sys2Proof/Machine/Mem.lean ====
section
/-! DEFINITION. Memory: one canonical list of bytes by place, and where each kind of memory lies in it (DESIGN CHOICE, log 2). -/
namespace Sys2Proof.Machine

/-- The place of a byte of an HBM channel (R98): second-tier addresses lie below 2^41 as they are (R96). -/
def hbmPlace (ch loc : Nat) : Nat := 2 ^ 44 + ch * 0x60000000 + loc
/-- The place of a byte of host memory at a port's I/O virtual address (R349). -/
def hostPlace (port a : Nat) : Nat := 2 ^ 52 + port * 2 ^ 50 + a
/-- The place of a scratchpad byte (R30). -/
def spadPlace (cl off : Nat) : Nat := 2 ^ 54 + cl * 2 ^ 20 + off
/-- The place of an accumulator byte (R102: tile t at t × 0x4000). -/
def accPlace (cl off : Nat) : Nat := 2 ^ 55 + cl * 2 ^ 18 + off

/-- A scratchpad place's cluster and offset. -/
def spadOf (a : Nat) : Option (Nat × Nat) :=
  if 2 ^ 54 ≤ a ∧ a < 2 ^ 55 then some ((a - 2 ^ 54) / 2 ^ 20, (a - 2 ^ 54) % 2 ^ 20) else none

/-- An accumulator place's cluster and offset. -/
def accOf (a : Nat) : Option (Nat × Nat) :=
  if 2 ^ 55 ≤ a then some ((a - 2 ^ 55) / 2 ^ 18, (a - 2 ^ 55) % 2 ^ 18) else none

/-- True for a place of paged memory that the home L2s keep coherent: HBM or the second tier. -/
def isHomed (a : Nat) : Bool := decide (a < 2 ^ 52)

/-- What an unlisted place reads as: zero (R480; DESIGN CHOICE, log 2). -/
def unlisted : Byte := 0

/-- The byte listed for a place. -/
def cellGet : List Host.Cell → Nat → Byte
  | [], _ => unlisted
  | (k, v) :: t, n => if n = k then v else if n < k then unlisted else cellGet t n

/-- A list with one byte set, kept canonical. -/
def cellSet : List Host.Cell → Nat → Byte → List Host.Cell
  | [], n, x => if x = unlisted then [] else [(n, x)]
  | (k, v) :: t, n, x =>
    if n = k then (if x = unlisted then t else (n, x) :: t)
    else if n < k then (if x = unlisted then (k, v) :: t else (n, x) :: (k, v) :: t)
    else (k, v) :: cellSet t n x

/-- Addresses strictly rising from a bound, no entry equal to what an unlisted place reads as. -/
def cellsFrom : Nat → List Host.Cell → Bool
  | _, [] => true
  | n, (k, v) :: t => decide (n ≤ k) && v != unlisted && cellsFrom (k + 1) t

/-- The canonical form of memory. -/
def Memory.wf (m : List Host.Cell) : Bool := cellsFrom 0 m

/-- The open range that a place lies in (R473, R76). -/
def lostAt (s : State) (a : Nat) : Option LostRange := s.lost.find? fun r => decide (r.lo ≤ a ∧ a < r.hi)

/-- The byte at a place, as its home holds it. -/
def State.byte (s : State) (a : Nat) : Byte :=
  match lostAt s a with
  | some r => Config.lostByte r.serial a
  | none => cellGet s.mem a

/-- Write n bytes from a list's head at rising places. -/
def cellsSet (m : List Host.Cell) : Nat → Bytes → List Host.Cell
  | _, [] => m
  | a, b :: bs => cellsSet (cellSet m a b) (a + 1) bs

/-- Open ranges without the lines from one place up to another. -/
def cutLost (rs : List LostRange) (lo hi : Nat) : List LostRange :=
  rs.flatMap fun r =>
    if r.lo < hi ∧ lo < r.hi then
      (if r.lo < lo then [{ r with hi := lo }] else []) ++ (if hi < r.hi then [{ r with lo := hi }] else [])
    else [r]

/-- The lines of n bytes made plain bytes where they were open, before part of them is written (R346: the line is the unit of
a key). -/
def State.claim (s : State) (a n : Nat) : State :=
  let lo := a / 128 * 128
  let hi := (a + n + 127) / 128 * 128
  if s.lost.any fun r => decide (r.lo < hi ∧ lo < r.hi) then
    { s with mem := cellsSet s.mem lo ((List.range (hi - lo)).map fun i => s.byte (lo + i)), lost := cutLost s.lost lo hi }
  else s

/-- Write bytes at rising places. -/
def State.putBytes (s : State) (a : Nat) (bs : Bytes) : State :=
  let s := s.claim a bs.length
  { s with mem := cellsSet s.mem a bs }

/-- Read n bytes at rising places, as the homes hold them. -/
def State.getBytes (s : State) (a n : Nat) : Bytes := (List.range n).map fun i => s.byte (a + i)

/-- Zero a range of places. -/
def State.zeroRange (s : State) (lo hi : Nat) : State :=
  { s with mem := s.mem.filter fun c => !(decide (lo ≤ c.1) && decide (c.1 < hi)),
           lost := cutLost s.lost lo hi }

/-- Copy n bytes from one place to another. -/
def State.copyRange (s : State) (src dst n : Nat) : State :=
  let s1 := s.zeroRange dst (dst + n)
  if s.lost.any fun r => decide (r.lo < src + n ∧ src < r.hi) then { s1 with mem := cellsSet s1.mem dst (s.getBytes src n) }
  else
    let cells := s.mem.filter fun c => decide (src ≤ c.1 ∧ c.1 < src + n)
    { s1 with mem := cells.foldl (fun m c => cellSet m (dst + (c.1 - src)) c.2) s1.mem }

/-- The granted store whose old bytes a die still reads at a place (R120): the earliest granted that has not landed there. -/
def staleStore (s : State) (die a : Nat) : Option PStore :=
  (s.stores.map Prod.snd).foldl (fun best p =>
    if p.granted && p.stale.contains die && p.old.any (fun c => c.1 == a) then
      match best with
      | some q => if p.gord < q.gord then some p else some q
      | none => some p
    else best) none

/-- The byte at a place as the agents of a die read it; `none` names the trust die, which keeps no copies. -/
def State.byteFor (s : State) (die : Option Nat) (a : Nat) : Byte :=
  match die with
  | none => s.byte a
  | some d =>
    match staleStore s d a with
    | some p => (p.old.find? fun c => c.1 == a).elim (s.byte a) Prod.snd
    | none => s.byte a

/-- Read n bytes as a die reads them. -/
def State.getFor (s : State) (die : Option Nat) (a n : Nat) : Bytes := (List.range n).map fun i => s.byteFor die (a + i)

/-- Read a little-endian number as a die reads it. -/
def State.readFor (s : State) (die : Option Nat) (a n : Nat) : Nat := ofBytes (s.getFor die a n)

/-- Write a little-endian number of n bytes. -/
def State.writeNat (s : State) (a n v : Nat) : State := s.putBytes a (toBytes n v)

end Sys2Proof.Machine
end

