-- ==== Sys2Proof/Machine/Ops.lean ====
section
/-! DEFINITION. The named operations over the state: accessors, location IDs and nodes, links, the error log, and taking
a fault: the freeze, its packet and its routing (R186, R382 to R387), with the release beside it (R389, R405). -/
namespace Sys2Proof.Machine

/-! ### Accessors -/

def State.core (s : State) (n : Nat) : Core := (tget s.cores n).getD {}
def State.setCore (s : State) (n : Nat) (c : Core) : State := { s with cores := tset s.cores n c }
def State.cluster (s : State) (n : Nat) : Cluster := (tget s.clusters n).getD {}
def State.setCluster (s : State) (n : Nat) (c : Cluster) : State := { s with clusters := tset s.clusters n c }
def State.quad (s : State) (n : Nat) : Quad := (tget s.quads n).getD {}
def State.setQuad (s : State) (n : Nat) (q : Quad) : State := { s with quads := tset s.quads n q }
def State.dieOf (s : State) (n : Nat) : Die := (tget s.die n).getD {}
def State.setDie (s : State) (n : Nat) (d : Die) : State := { s with die := tset s.die n d }
def State.port (s : State) (n : Nat) : Port := (tget s.ports n).getD {}
def State.setPort (s : State) (n : Nat) (p : Port) : State := { s with ports := tset s.ports n p }
def State.host (s : State) (n : Nat) : HostPort := (tget s.hosts n).getD {}
def State.setHost (s : State) (n : Nat) (p : HostPort) : State := { s with hosts := tset s.hosts n p }
def State.vf (s : State) (n : Nat) : VF := (tget s.vfs n).getD {}
def State.setVf (s : State) (n : Nat) (v : VF) : State := { s with vfs := tset s.vfs n v }
def State.ctx (s : State) (n : Nat) : Ctx := (tget s.ctxs n).getD { st := .revoked }
def State.setCtx (s : State) (n : Nat) (c : Ctx) : State := { s with ctxs := tset s.ctxs n c }

/-- R43, R46: the context number names a context that lives. -/
def State.isLive (s : State) (n : Nat) : Bool :=
  match tget s.ctxs n with
  | some c => c.st != .revoked
  | none => false

/-- The key of a context's state on a core. -/
def imgKey (core ctx : Nat) : Nat := core * 4096 + ctx

/-- A context's state on a core: live while it is resident, the cage image otherwise (R73 to R75, R389). -/
def State.img (s : State) (core ctx : Nat) : Img := (tget s.imgs (imgKey core ctx)).getD {}
def State.setImg (s : State) (core ctx : Nat) (i : Img) : State := { s with imgs := tset s.imgs (imgKey core ctx) i }

/-- A run-queue entry (R58); one that is not listed is free. -/
def Img.fibre (i : Img) (e : Nat) : Fibre := (tget i.rq e).getD {}
def Img.setFibre (i : Img) (e : Nat) (f : Fibre) : Img := { i with rq := tset i.rq e f }

/-- A number no operation has used, and the state that has used it. -/
def State.next (s : State) : Nat × State := (s.fresh, { s with fresh := s.fresh + 1 })

/-- A free value: one dword the spec leaves open (DESIGN CHOICE, log 11). -/
def State.freeVal (s : State) : DWord × State := (Config.freeDword s.fresh, { s with fresh := s.fresh + 1 })

/-! ### Cores, clusters, LIDs (R25, R47, R48). A core is numbered 9 × linear cluster + slot. -/

/-- The linear cluster number of a core. -/
def clOf (core : Nat) : Nat := core / 9
/-- The slot of a core in its cluster. -/
def slotOf (core : Nat) : Nat := core % 9
/-- The die of a core. -/
def dieOfCore (core : Nat) : Nat := core / 576
/-- The quadrant of a core, numbered through the package. -/
def quadOf (core : Nat) : Nat := core / 144
/-- The core in a slot of a cluster. -/
def coreAt (cl slot : Nat) : Nat := cl * 9 + slot
/-- R25: the LID of a core. -/
def lidOf (core : Nat) : Nat := clOf core * 128 + slotOf core * 8
/-- R25: the LID of a quadrant's overman. -/
def overmanLid (quad : Nat) : Nat := quad * 2048 + 120

/-- R26: an LID names an agent or structure of a part with n live dies. -/
def lidNames (dies lid : Nat) : Bool :=
  let slot := bits lid 6 3
  decide (lid % 8 = 0) && decide (bits lid 15 13 < dies) && (decide (slot ≤ 10) || (slot == 15 && bits lid 10 7 == 0))

/-- The worker core that a cluster's MXISSUER names (R178). -/
def State.issuerCore (s : State) (cl : Nat) : Nat := coreAt cl (s.cluster cl).mxissuer.toNat

/-- R47, R48: a context's node contains a core. -/
def State.nodeHas (s : State) (c : Ctx) (core : Nat) : Bool :=
  let slot := if slotOf core = 8 then (s.cluster (clOf core)).mxissuer.toNat else slotOf core
  let n := clOf core * 8 + slot
  n >>> c.order.toNat == c.base.toNat >>> c.order.toNat

/-- A context's node touches a cluster. -/
def nodeTouches (c : Ctx) (cl : Nat) : Bool :=
  if 3 ≤ c.order.toNat then (cl * 8) >>> c.order.toNat == c.base.toNat >>> c.order.toNat else c.base.toNat / 8 == cl

/-- A cluster lies within a context's node (R314, R353). -/
def nodeHolds (c : Ctx) (cl : Nat) : Bool := decide (3 ≤ c.order.toNat) && nodeTouches c cl

/-- The clusters a node touches, ascending. -/
def nodeClusters (c : Ctx) : List Nat :=
  let n := if 3 ≤ c.order.toNat then 2 ^ (c.order.toNat - 3) else 1
  (List.range n).map fun i => c.base.toNat / 8 + i

/-- The worker cores of a node, ascending. -/
def nodeCores (order base : Nat) : List Nat :=
  (List.range (2 ^ order)).map fun i => coreAt ((base + i) / 8) ((base + i) % 8)

/-- The cores of a context on a cluster: its workers, and the copy core when its node contains it. -/
def State.ctxCoresOn (s : State) (c : Ctx) (cl : Nat) : List Nat :=
  ((List.range 9).map (coreAt cl)).filter fun k => s.nodeHas c k

/-- R288: the context that holds a cluster's semaphores, matrix unit and copy core. -/
def State.holder (s : State) (cl : Nat) : Option Nat := (s.core (s.issuerCore cl)).res

/-- R45: a context's identity. -/
def State.ctxid (s : State) (n : Nat) : DWord :=
  let c := s.ctx n
  dw (c.pno.toNat * 2 ^ 35 + c.depth * 2 ^ 32 + c.gen.toNat * 2 ^ 16 + n)

/-- A context and its ancestors, nearest first (R383); the tree is at most 8 deep (R43). -/
def State.upFrom (s : State) (n : Nat) : List Nat :=
  let rec go : Nat → Nat → List Nat
    | 0, _ => []
    | f + 1, n => n :: (match (s.ctx n).parent with | some (p, _) => go f p | none => [])
  go 8 n

/-- R213: one context is a strict descendant of another. -/
def State.isBelow (s : State) (n anc : Nat) : Bool := (s.upFrom n).tail.contains anc

/-- The live contexts of a subtree, its root included, in ascending number. -/
def State.subtree (s : State) (n : Nat) : List Nat :=
  (s.ctxs.map Prod.fst).filter fun m => s.isLive m && (m == n || s.isBelow m n)

/-- The context that is a context's partition (R43). -/
def State.partitionOf (s : State) (n : Nat) : Nat := ((s.upFrom n).find? fun m => (s.ctx m).part).getD n

/-- The live context whose number and generation an identity names (R45, R213). -/
def State.named (s : State) (v : DWord) : Option Nat :=
  let n := fld v 11 0
  if s.isLive n && (s.ctx n).gen.toNat == fld v 31 16 then some n else none

/-! ### The error log (R397, R398) -/

/-- The number of unconsumed records. -/
def ErrLog.unread (l : ErrLog) : Nat := (l.total + 1024 - l.tail.toNat) % 1024

/-- Write a record that has a place. -/
def ErrLog.put (l : ErrLog) (r : ErrRec) : ErrLog :=
  { l with recs := tset l.recs (l.total % 1024) r, total := l.total + 1 }

/-- R397: a record that is corrected, sev 0 or 1 of a storage array (units 0x01 to 0x10). -/
def ErrRec.correctable (r : ErrRec) : Bool := (r.action == 1 || r.action == 2)

/-- R397: write a record, or drop, replace or hold one when the log is full. -/
def ErrLog.add (l : ErrLog) (r : ErrRec) : ErrLog :=
  let r := { r with seq := l.seq }
  let l := { l with seq := l.seq + 1 }
  let sat (w : Word) : Word := if w = 0xFFFFFFFF then w else w + 1
  if l.unread < 1023 then l.put r
  else if r.correctable then { l with lostCorrected := sat l.lostCorrected }
  else
    match ((List.range l.unread).map fun i => (l.tail.toNat + i) % 1024).find? fun i =>
      ((tget l.recs i).map ErrRec.correctable).getD false with
    | some i => { l with recs := tset l.recs i r }
    | none => if l.held.length < 64 then { l with held := l.held ++ [r] } else { l with lostOther := sat l.lostOther }

/-- A record with the fields that most rules give, the rest zero. -/
def State.logRec (s : State) (sev unit loc action : Nat) (wh ctx syn : DWord) (fclass : Nat := 0) (count : Nat := 0) : State :=
  let r : ErrRec :=
    { sev := BitVec.ofNat 8 sev, unit := BitVec.ofNat 8 unit, loc := BitVec.ofNat 16 loc, seq := 0, tick := dw s.tick,
      wh := wh, ctx := ctx, syn := syn, fclass := BitVec.ofNat 8 fclass, action := BitVec.ofNat 8 action,
      count := dw count }
  { s with log := s.log.add r }

/-- R376, R450, R466: an uncorrectable error of a partition: its record with action 3, and the reset that follows it. -/
def State.machineCheck (s : State) (p sev unit loc : Nat) (wh syn : DWord) (count : Nat := 0) : State :=
  let n := (s.ctx p).pno.toNat
  if s.resetting.contains n then s
  else { s.logRec sev unit loc 3 wh (s.ctxid p) syn 0 count with resetting := s.resetting ++ [n] }

/-! ### Fault classes (R380) -/

/-- The fault classes of R380 that the model raises. -/
inductive Cls
  | ill | place | light | empty | qempty | qfull | hwait | align | spr | loop | rep | stream | fpe | sys | brk
  | mxissue | mxfmt | mxarg | hfmt | hregion | hctx | copyarg | msgfmt | notarget | link | cap | qbind | ctxfmt
  | kind | nolid | window | rights | tfmt | stage2 | hostpg | peer | fillw | overlap | page | launch | preset
  | other (c : BitVec 6)
  deriving DecidableEq, Repr

/-- The 6-bit code of a class (R380). -/
def Cls.code : Cls → Nat
  | .ill => 0x01 | .place => 0x02 | .light => 0x03 | .empty => 0x04 | .qempty => 0x05 | .qfull => 0x06 | .hwait => 0x07
  | .align => 0x08 | .spr => 0x09 | .loop => 0x0A | .rep => 0x0B | .stream => 0x0C | .fpe => 0x0D | .sys => 0x0E
  | .brk => 0x0F | .mxissue => 0x10 | .mxfmt => 0x11 | .mxarg => 0x12 | .hfmt => 0x13 | .hregion => 0x14 | .hctx => 0x15
  | .copyarg => 0x16 | .msgfmt => 0x17 | .notarget => 0x18 | .link => 0x19 | .cap => 0x1A | .qbind => 0x1B
  | .ctxfmt => 0x1C | .kind => 0x20 | .nolid => 0x21 | .window => 0x22 | .rights => 0x23 | .tfmt => 0x24 | .stage2 => 0x25
  | .hostpg => 0x26 | .peer => 0x27 | .fillw => 0x28 | .overlap => 0x29 | .page => 0x2F | .launch => 0x30
  | .preset => 0x31 | .other c => c.toNat

/-! ### Fault packets and their routing -/

/-- What a fault says of its unit and its place: dwords 1 to 5 of a packet (R382). -/
structure FaultAt where
  core : Nat
  ctx : Nat
  entry : Nat
  kind : Nat := 0
  level : Nat := 0
  lid : Nat
  source : Nat := 0
  wh : Nat := 0
  body : Nat := 0
  pc : DWord := 0
  word : Word := 0
  other : Word := 0
  deriving DecidableEq, Repr

/-- R382: the packet of a fault, with the quadrant's sequence number. -/
def mkPacket (s : State) (f : FaultAt) (cls : Cls) (addr extra : DWord) : Packet :=
  { ctx := s.ctxid f.ctx
    d1 := dw (f.lid * 2 ^ 48 + f.entry * 2 ^ 40 + f.kind * 2 ^ 38 + f.level * 2 ^ 36 + cls.code * 2 ^ 30 + f.wh * 2 ^ 28 +
      f.body * 2 ^ 23 + f.source * 2 ^ 21)
    pc := f.pc
    d3 := dw (f.other.toNat * 2 ^ 32 + f.word.toNat)
    addr := addr
    extra := extra
    d6 := dw ((s.tick % 2 ^ 32) * 2 ^ 32 + (s.quad (quadOf f.core)).seq.toNat) }

/-- R383: the first context of a list whose accept mask has a class's bit, and its fault queue; a context without a fault
queue is passed over (DESIGN CHOICE, log 87). -/
def State.accepter (s : State) (cs : List Nat) (cls : Nat) : Option (Nat × Nat) :=
  (cs.find? fun n => (s.ctx n).accept.getLsbD cls && (s.ctx n).fq.isSome).map fun n => (n, ((s.ctx n).fq).getD 0)

/-- R383 to R386: a packet goes to the first accepting context of a list, to wait for its queue's space at the overman;
unaccepted, it becomes a record of the error log. An overman that holds 64 takes no more (R385). -/
def State.routePacket (s : State) (quad : Nat) (cs : List Nat) (cls : Nat) (p : Packet) : State :=
  let qd := s.quad quad
  if 64 ≤ qd.waiting.length then s.setQuad quad { qd with kept := qd.kept ++ [(cs, cls, p)] }
  else match s.accepter cs cls with
    | some (n, q) => s.setQuad quad { qd with waiting := qd.waiting ++ [(q, n, p)] }
    | none => s.logRec 0 0 (fld p.d1 63 48) 8 0 p.ctx p.d1 cls

/-- R385: an overman with room takes the packets that cores have kept, oldest first. -/
def State.takeKept (s : State) (quad : Nat) : State :=
  let ks := (s.quad quad).kept
  ks.foldl (fun s k => s.routePacket quad k.1 k.2.1 k.2.2) (s.setQuad quad { s.quad quad with kept := [] })

/-- Send a fault packet from a core's quadrant, routed from a list of contexts (R383). -/
def State.sendPacket (s : State) (f : FaultAt) (cls : Cls) (addr extra : DWord) (cs : List Nat) : State :=
  let p := mkPacket s f cls addr extra
  let q := quadOf f.core
  let qd := s.quad q
  (s.setQuad q { qd with seq := qd.seq + 1 }).routePacket q cs cls.code p

/-- What a fibre's fault says of it. -/
def State.faultAt (s : State) (core ctx entry : Nat) : FaultAt :=
  let f := (s.img core ctx).fibre entry
  { core := core, ctx := ctx, entry := entry, kind := f.kind.toNat, level := f.level.toNat, lid := lidOf core, pc := f.pc }

/-! ### Taking a fault: freeze, and release (R186, R381, R403, R405) -/

/-- A frozen status word: wait and wop 0, level and kind kept (R403). -/
def Fibre.frozen (f : Fibre) : Fibre := { f with st := .frozen, wait := 0, wop := 0, cond := .none, boost := false }

/-- A fibre whose unit has not issued waits; its age and its boost stay until it issues (R69). -/
def Fibre.waits (f : Fibre) (wait wop : Nat) (c : WCond) : Fibre :=
  { f with st := .waiting, wait := BitVec.ofNat 4 wait, wop := BitVec.ofNat 8 wop, cond := c }

/-- R403: a primary that freezes fetches no stream elements ahead until it issues again. -/
def Img.hushed (i : Img) (entry : Nat) : Img := if entry = 0 then { i with hush := true } else i

/-- R416, R426: a replay pauses as the primary parks or freezes, and ends before the unit at the PC issues. -/
def Img.pauseRep (i : Img) (entry : Nat) : Img := if entry = 0 ∧ i.rep.act then { i with rep := { i.rep with alone := true } } else i

/-- R186: move a fibre to frozen and send its fault packet from its context. `fa` says what the packet says of the unit. -/
def State.freeze (s : State) (fa : FaultAt) (cls : Cls) (addr extra : DWord) : State :=
  let i := s.img fa.core fa.ctx
  let s := s.setImg fa.core fa.ctx ((i.setFibre fa.entry (i.fibre fa.entry).frozen).pauseRep fa.entry |>.hushed fa.entry)
  s.sendPacket fa cls addr extra (s.upFrom fa.ctx)

/-- R405, R61: a frozen fibre becomes ready and issues from its PC; the status word is otherwise as it stands. -/
def State.release (s : State) (core ctx entry : Nat) : State :=
  let i := s.img core ctx
  s.setImg core ctx (i.setFibre entry { i.fibre entry with st := .ready, wait := 0, wop := 0, cond := .none, age := 0 })

/-- A fibre becomes waiting, with a reason and an operand (R60, R169). -/
def Fibre.waiting (f : Fibre) (wait wop : Nat) (c : WCond) : Fibre :=
  { f with st := .waiting, wait := BitVec.ofNat 4 wait, wop := BitVec.ofNat 8 wop, cond := c, age := 0, boost := false }

/-- A waiting or parked fibre becomes ready (R61, R69). -/
def Fibre.woken (f : Fibre) : Fibre := { f with st := .ready, wait := 0, wop := 0, cond := .none, age := 0, boost := false }

/-! ### Reply links (R241, R424, R444) -/

/-- The value of a new reply link: one that no other link has (DESIGN CHOICE, log 5). -/
def State.linkVal (s : State) : DWord :=
  let v := Config.linkValue s.fresh
  (((List.range (s.links.length + 2)).map fun k => v + dw k).find? fun v =>
    v != 0 && !s.links.any fun p => p.2.value == v).getD v

/-- A new reply link: its number, its value, the state that holds it. -/
def State.newLink (s : State) (l : Link) : Nat × DWord × State :=
  (s.fresh, s.linkVal, { s with links := tset s.links s.fresh { l with value := s.linkVal }, fresh := s.fresh + 1 })

/-- The link that a value names (R247), among those not replied to. -/
def State.findLink (s : State) (v : DWord) : Option (Nat × Link) := s.links.find? fun p => !p.2.replied && p.2.value == v

/-- Mark a link replied. -/
def State.markReplied (s : State) (id : Nat) : State :=
  match tget s.links id with
  | some l => { s with links := tset s.links id { l with replied := true } }
  | none => s

/-! ### Tokens (R235, R283) -/

/-- The two-bit code of a token. -/
def Fibre.token (f : Fibre) (i : Nat) : Nat := bits f.tok.toNat (2 * i + 1) (2 * i)
/-- Set a token: 0 idle, 1 pending, 2 complete. -/
def Fibre.setToken (f : Fibre) (i v : Nat) : Fibre :=
  { f with tok := BitVec.ofNat 16 (f.tok.toNat - f.token i * 4 ^ i + v * 4 ^ i) }

/-- The fibre that an access names, if this life of the entry goes on (R206: token events of an ended fibre are discarded). -/
def State.who? (s : State) (w : Who) : Option Fibre :=
  let f := (s.img w.core w.ctx).fibre w.entry
  if (s.ctx w.ctx).gen == w.gen && f.uid == w.uid && f.st != .free then some f else none

/-- Change the fibre that an access names, if it still lives. -/
def State.updWho (s : State) (w : Who) (g : Fibre → Fibre) : State :=
  match s.who? w with
  | some f => let i := s.img w.core w.ctx; s.setImg w.core w.ctx (i.setFibre w.entry (g f))
  | none => s

/-- A waiting or parked fibre whose unit has not issued becomes ready: its age and its boost stay until it issues (R60, R69). -/
def Fibre.readied (f : Fibre) : Fibre := { f with st := .ready, wait := 0, wop := 0, cond := .none }

/-- Complete a token of a fibre, and ready it if it waits on that token (R61, R236). -/
def Fibre.completeToken (f : Fibre) (i : Nat) : Fibre :=
  let f := if f.token i = 1 then f.setToken i 2 else f
  if f.st == .waiting && f.wait == 4 && f.wop.getLsbD i then f.readied else f

end Sys2Proof.Machine
end

