-- ==== Sys2Proof/Machine/Names.lean ====
section
/-! DEFINITION. What the words of an instruction say of the registers it names and of the fibres that may issue it
(R62, R170, R171, R174, R280). -/
namespace Sys2Proof.Machine

/-- A register that a field names: its file (0 x, 1 v, 2 k) and number. -/
abbrev RegName := Nat × Nat

/-- The registers of a memory operand. -/
def memNames (m : MemOp) : List RegName := m.srcs.map fun x => (0, x.r.toNat)

/-- A mask field that governs lanes names k1 to k7 (R165). -/
def maskNames (m : BitVec 3) : List RegName := if m = 0#3 then [] else [(2, m.toNat)]

/-- R261: the forms of `vcvt` that take two sources. -/
def cvtTwo (form : BitVec 4) : Bool := [0, 1, 8, 15].contains form.toNat

/-- The x, v and k registers that an instruction's fields name, in field order. -/
def instrNames : Instr → List RegName
  | .add rd ra rb _ => [(0, rd.toNat)] ++ [(0, ra.r.toNat)] ++ [(0, rb.r.toNat)]
  | .sub rd ra rb _ => [(0, rd.toNat)] ++ [(0, ra.r.toNat)] ++ [(0, rb.r.toNat)]
  | .mul rd ra rb _ => [(0, rd.toNat)] ++ [(0, ra.r.toNat)] ++ [(0, rb.r.toNat)]
  | .mulh rd ra rb => [(0, rd.toNat)] ++ [(0, ra.r.toNat)] ++ [(0, rb.r.toNat)]
  | .mulhu rd ra rb => [(0, rd.toNat)] ++ [(0, ra.r.toNat)] ++ [(0, rb.r.toNat)]
  | .div rd ra rb _ => [(0, rd.toNat)] ++ [(0, ra.r.toNat)] ++ [(0, rb.r.toNat)]
  | .divu rd ra rb _ => [(0, rd.toNat)] ++ [(0, ra.r.toNat)] ++ [(0, rb.r.toNat)]
  | .rem rd ra rb _ => [(0, rd.toNat)] ++ [(0, ra.r.toNat)] ++ [(0, rb.r.toNat)]
  | .remu rd ra rb _ => [(0, rd.toNat)] ++ [(0, ra.r.toNat)] ++ [(0, rb.r.toNat)]
  | .and rd ra rb => [(0, rd.toNat)] ++ [(0, ra.r.toNat)] ++ [(0, rb.r.toNat)]
  | .or rd ra rb => [(0, rd.toNat)] ++ [(0, ra.r.toNat)] ++ [(0, rb.r.toNat)]
  | .xor rd ra rb => [(0, rd.toNat)] ++ [(0, ra.r.toNat)] ++ [(0, rb.r.toNat)]
  | .shl rd ra rb _ => [(0, rd.toNat)] ++ [(0, ra.r.toNat)] ++ [(0, rb.r.toNat)]
  | .shr rd ra rb _ => [(0, rd.toNat)] ++ [(0, ra.r.toNat)] ++ [(0, rb.r.toNat)]
  | .sra rd ra rb _ => [(0, rd.toNat)] ++ [(0, ra.r.toNat)] ++ [(0, rb.r.toNat)]
  | .min rd ra rb => [(0, rd.toNat)] ++ [(0, ra.r.toNat)] ++ [(0, rb.r.toNat)]
  | .max rd ra rb => [(0, rd.toNat)] ++ [(0, ra.r.toNat)] ++ [(0, rb.r.toNat)]
  | .minu rd ra rb => [(0, rd.toNat)] ++ [(0, ra.r.toNat)] ++ [(0, rb.r.toNat)]
  | .maxu rd ra rb => [(0, rd.toNat)] ++ [(0, ra.r.toNat)] ++ [(0, rb.r.toNat)]
  | .adds rd ra rb => [(0, rd.toNat)] ++ [(0, ra.r.toNat)] ++ [(0, rb.r.toNat)]
  | .subs rd ra rb => [(0, rd.toNat)] ++ [(0, ra.r.toNat)] ++ [(0, rb.r.toNat)]
  | .clz rd ra => [(0, rd.toNat)] ++ [(0, ra.r.toNat)]
  | .ctz rd ra => [(0, rd.toNat)] ++ [(0, ra.r.toNat)]
  | .popc rd ra => [(0, rd.toNat)] ++ [(0, ra.r.toNat)]
  | .addi rd ra _ => [(0, rd.toNat)] ++ [(0, ra.r.toNat)]
  | .andi rd ra _ => [(0, rd.toNat)] ++ [(0, ra.r.toNat)]
  | .ori rd ra _ => [(0, rd.toNat)] ++ [(0, ra.r.toNat)]
  | .xori rd ra _ => [(0, rd.toNat)] ++ [(0, ra.r.toNat)]
  | .shli rd ra _ _ => [(0, rd.toNat)] ++ [(0, ra.r.toNat)]
  | .shri rd ra _ _ => [(0, rd.toNat)] ++ [(0, ra.r.toNat)]
  | .srai rd ra _ _ => [(0, rd.toNat)] ++ [(0, ra.r.toNat)]
  | .li rd _ _ => [(0, rd.toNat)]
  | .lik rd _ _ => [(0, rd.toNat)]
  | .lea rt m => [(0, rt.toNat)] ++ memNames m
  | .cmp _ _ _ ra rb => [(0, ra.r.toNat)] ++ [(0, rb.r.toNat)]
  | .cmpi _ _ ra _ => [(0, ra.r.toNat)]
  | .pand _ _ _ => []
  | .por _ _ _ => []
  | .pxor _ _ _ => []
  | .pandn _ _ _ => []
  | .pnot _ _ => []
  | .pset _ => []
  | .pclr _ => []
  | .prd rd => [(0, rd.toNat)]
  | .pwr ra => [(0, ra.r.toNat)]
  | .csel rd _ ra rb => [(0, rd.toNat)] ++ [(0, ra.r.toNat)] ++ [(0, rb.r.toNat)]
  | .cseln rd _ ra rb => [(0, rd.toNat)] ++ [(0, ra.r.toNat)] ++ [(0, rb.r.toNat)]
  | .br _ => []
  | .bp _ _ => []
  | .bpn _ _ => []
  | .call rd _ => [(0, rd.toNat)]
  | .jr ra => [(0, ra.r.toNat)]
  | .callr rd ra => [(0, rd.toNat)] ++ [(0, ra.r.toNat)]
  | .ret ra => [(0, ra.r.toNat)]
  | .lpset0 _ _ => []
  | .lpset1 _ _ => []
  | .lpsetr0 rc _ => [(0, rc.r.toNat)]
  | .lpsetr1 rc _ => [(0, rc.r.toNat)]
  | .spawn rd ra _ => [(0, rd.toNat)] ++ [(0, ra.r.toNat)]
  | .yield => []
  | .exit => []
  | .sys _ => []
  | .brk _ => []
  | .mfs rd _ => [(0, rd.toNat)]
  | .mts _ ra => [(0, ra.r.toNat)]
  | .ifence => []
  | .ckpt ra => [(0, ra.r.toNat)]
  | .wfe rd _ => [(0, rd.toNat)]
  | .ctxnew rd ra => [(0, rd.toNat)] ++ [(0, ra.r.toNat)]
  | .ctxgrant rd ra rb => [(0, rd.toNat)] ++ [(0, ra.r.toNat)] ++ [(0, rb.r.toNat)]
  | .ctxrevoke rd ra _ => [(0, rd.toNat)] ++ [(0, ra.r.toNat)]
  | .ctxstart rd ra => [(0, rd.toNat)] ++ [(0, ra.r.toNat)]
  | .ctxstop rd ra _ => [(0, rd.toNat)] ++ [(0, ra.r.toNat)]
  | .ctxsave rd ra rb _ => [(0, rd.toNat)] ++ [(0, ra.r.toNat)] ++ [(0, rb.r.toNat)]
  | .ctxload rd ra rb _ => [(0, rd.toNat)] ++ [(0, ra.r.toNat)] ++ [(0, rb.r.toNat)]
  | .ctxinfo rd ra rb => [(0, rd.toNat)] ++ [(0, ra.r.toNat)] ++ [(0, rb.r.toNat)]
  | .reflect rd ra => [(0, rd.toNat)] ++ [(0, ra.r.toNat)]
  | .ldB rt m _ => [(0, rt.toNat)] ++ memNames m
  | .ldBu rt m _ => [(0, rt.toNat)] ++ memNames m
  | .ldH rt m _ => [(0, rt.toNat)] ++ memNames m
  | .ldHu rt m _ => [(0, rt.toNat)] ++ memNames m
  | .ldW rt m _ => [(0, rt.toNat)] ++ memNames m
  | .ldWu rt m _ => [(0, rt.toNat)] ++ memNames m
  | .ldD rt m _ => [(0, rt.toNat)] ++ memNames m
  | .ldv rt m _ => [(1, rt.toNat)] ++ memNames m
  | .stB m rt _ _ => [(0, rt.r.toNat)] ++ memNames m
  | .stH m rt _ _ => [(0, rt.r.toNat)] ++ memNames m
  | .stW m rt _ _ => [(0, rt.r.toNat)] ++ memNames m
  | .stD m rt _ _ => [(0, rt.r.toNat)] ++ memNames m
  | .stv m rt _ _ => [(1, rt.r.toNat)] ++ memNames m
  | .amo _ rd ra rb _ => [(0, rd.toNat)] ++ [(0, ra.r.toNat)] ++ [(0, rb.r.toNat)]
  | .cas rd ra rb _ => [(0, rd.toNat)] ++ [(0, ra.r.toNat)] ++ [(0, rb.r.toNat)]
  | .fence _ => []
  | .fenceW _ => []
  | .syncinit rd ra => [(0, rd.toNat)] ++ [(0, ra.r.toNat)]
  | .syncarr rd ra => [(0, rd.toNat)] ++ [(0, ra.r.toNat)]
  | .syncwait rd ra => [(0, rd.toNat)] ++ [(0, ra.r.toNat)]
  | .waitt _ => []
  | .waitany rd _ => [(0, rd.toNat)]
  | .waitanyF rd ra _ => [(0, rd.toNat)] ++ [(0, ra.r.toNat)]
  | .sendm rd ra rb => [(0, rd.toNat)] ++ [(0, ra.r.toNat)] ++ (if rb.r = 0#5 then [] else (List.range 6).map fun j => (0, rb.r.toNat + j))
  | .reply ra rb => [(0, ra.r.toNat)] ++ (if rb.r = 0#5 then [] else (List.range 5).map fun j => (0, rb.r.toNat + j))
  | .tagctlLd ra _ => [(0, ra.r.toNat)]
  | .tagctlEn _ => []
  | .tagctlDis _ => []
  | .tagctlPon _ => []
  | .tagctlPoff _ => []
  | .tagctlRd rd _ => [(0, rd.toNat)]
  | .qenq ra rb _ => [(0, ra.r.toNat)] ++ [(0, rb.r.toNat)]
  | .qdeq rd ra _ => [(0, rd.toNat)] ++ [(0, ra.r.toNat)]
  | .qsteal rd ra _ => [(0, rd.toNat)] ++ [(0, ra.r.toNat)]
  | .qenqBind _ ra => [(0, ra.r.toNat)]
  | .qdeqBind _ ra => [(0, ra.r.toNat)]
  | .qstealBind _ ra => [(0, ra.r.toNat)]
  | .pf m => memNames m
  | .pfL2 m => memNames m
  | .qpop rd _ _ => [(0, rd.toNat)]
  | .qpush _ _ rb => [(0, rb.r.toNat)]
  | .qpopv rd _ _ => [(1, rd.toNat)]
  | .qpushv _ _ rb => [(1, rb.r.toNat)]
  | .mma _ _ _ _ => []
  | .mmas _ _ _ _ => []
  | .mmac _ _ _ _ => []
  | .mxfmt _ _ _ _ => []
  | .accz _ => []
  | .accrd _ ra => [(0, ra.r.toNat)]
  | .accdc _ _ _ => []
  | .hld _ m _ => memNames m
  | .hst m _ _ _ => memNames m
  | .hset _ _ rb => [(0, rb.r.toNat)]
  | .hget rd _ _ => [(0, rd.toNat)]
  | .hgat rd _ rb m => [(1, rd.toNat)] ++ [(1, rb.r.toNat)] ++ maskNames m
  | .hsca _ _ ra rb m => [(1, ra.r.toNat)] ++ [(1, rb.r.toNat)] ++ maskNames m
  | .semwait _ => []
  | .sempost _ _ => []
  | .copy rd ra rb _ => [(0, rd.toNat)] ++ [(0, ra.r.toNat)] ++ [(0, rb.r.toNat)]
  | .copym rd ra rb _ => [(0, rd.toNat)] ++ [(0, ra.r.toNat)] ++ [(0, rb.r.toNat)]
  | .copyx rd ra rb _ => [(0, rd.toNat)] ++ [(0, ra.r.toNat)] ++ [(0, rb.r.toNat)]
  | .vadd d a b m _ => [(1, d.toNat)] ++ [(1, a.r.toNat)] ++ [(1, b.r.toNat)] ++ maskNames m
  | .vsub d a b m _ => [(1, d.toNat)] ++ [(1, a.r.toNat)] ++ [(1, b.r.toNat)] ++ maskNames m
  | .vmul d a b m _ => [(1, d.toNat)] ++ [(1, a.r.toNat)] ++ [(1, b.r.toNat)] ++ maskNames m
  | .vdiv d a b m _ => [(1, d.toNat)] ++ [(1, a.r.toNat)] ++ [(1, b.r.toNat)] ++ maskNames m
  | .vmin d a b m _ => [(1, d.toNat)] ++ [(1, a.r.toNat)] ++ [(1, b.r.toNat)] ++ maskNames m
  | .vmax d a b m _ => [(1, d.toNat)] ++ [(1, a.r.toNat)] ++ [(1, b.r.toNat)] ++ maskNames m
  | .vsqrt d a m _ => [(1, d.toNat)] ++ [(1, a.r.toNat)] ++ maskNames m
  | .vand d a b m _ => [(1, d.toNat)] ++ [(1, a.r.toNat)] ++ [(1, b.r.toNat)] ++ maskNames m
  | .vor d a b m _ => [(1, d.toNat)] ++ [(1, a.r.toNat)] ++ [(1, b.r.toNat)] ++ maskNames m
  | .vxor d a b m _ => [(1, d.toNat)] ++ [(1, a.r.toNat)] ++ [(1, b.r.toNat)] ++ maskNames m
  | .vshl d a b m _ => [(1, d.toNat)] ++ [(1, a.r.toNat)] ++ [(1, b.r.toNat)] ++ maskNames m
  | .vshr d a b m _ => [(1, d.toNat)] ++ [(1, a.r.toNat)] ++ [(1, b.r.toNat)] ++ maskNames m
  | .vsra d a b m _ => [(1, d.toNat)] ++ [(1, a.r.toNat)] ++ [(1, b.r.toNat)] ++ maskNames m
  | .vabs d a m _ => [(1, d.toNat)] ++ [(1, a.r.toNat)] ++ maskNames m
  | .vneg d a m _ => [(1, d.toNat)] ++ [(1, a.r.toNat)] ++ maskNames m
  | .vfmaF32 d a b c => [(1, d.toNat)] ++ [(1, a.r.toNat)] ++ [(1, b.r.toNat)] ++ [(1, c.r.toNat)]
  | .vfnmaF32 d a b c => [(1, d.toNat)] ++ [(1, a.r.toNat)] ++ [(1, b.r.toNat)] ++ [(1, c.r.toNat)]
  | .vfmaF64 d a b c => [(1, d.toNat)] ++ [(1, a.r.toNat)] ++ [(1, b.r.toNat)] ++ [(1, c.r.toNat)]
  | .vfnmaF64 d a b c => [(1, d.toNat)] ++ [(1, a.r.toNat)] ++ [(1, b.r.toNat)] ++ [(1, c.r.toNat)]
  | .vfmaF16 d a b c => [(1, d.toNat)] ++ [(1, a.r.toNat)] ++ [(1, b.r.toNat)] ++ [(1, c.r.toNat)]
  | .vfnmaF16 d a b c => [(1, d.toNat)] ++ [(1, a.r.toNat)] ++ [(1, b.r.toNat)] ++ [(1, c.r.toNat)]
  | .vfmaBf16 d a b c => [(1, d.toNat)] ++ [(1, a.r.toNat)] ++ [(1, b.r.toNat)] ++ [(1, c.r.toNat)]
  | .vfnmaBf16 d a b c => [(1, d.toNat)] ++ [(1, a.r.toNat)] ++ [(1, b.r.toNat)] ++ [(1, c.r.toNat)]
  | .vcmp _ k a b m _ => [(2, k.toNat)] ++ [(1, a.r.toNat)] ++ [(1, b.r.toNat)] ++ maskNames m
  | .vsel d a b m _ => [(1, d.toNat)] ++ [(1, a.r.toNat)] ++ [(1, b.r.toNat)] ++ maskNames m
  | .vcvt d a b m form => [(1, d.toNat)] ++ [(1, a.r.toNat)] ++ (if cvtTwo form then [(1, b.r.toNat)] else []) ++ maskNames m
  | .vbcast d a _ => [(1, d.toNat)] ++ [(0, a.r.toNat)]
  | .vmovx d a _ _ => [(0, d.toNat)] ++ [(1, a.r.toNat)]
  | .vperm d a b m _ => [(1, d.toNat)] ++ [(1, a.r.toNat)] ++ [(1, b.r.toNat)] ++ maskNames m
  | .vzip d a b m _ => [(1, d.toNat)] ++ [(1, a.r.toNat)] ++ [(1, b.r.toNat)] ++ maskNames m
  | .vunzip d a b m _ => [(1, d.toNat)] ++ [(1, a.r.toNat)] ++ [(1, b.r.toNat)] ++ maskNames m
  | .vrsum d a m _ => [(1, d.toNat)] ++ [(1, a.r.toNat)] ++ maskNames m
  | .vrmax d a m _ => [(1, d.toNat)] ++ [(1, a.r.toNat)] ++ maskNames m
  | .vrmin d a m _ => [(1, d.toNat)] ++ [(1, a.r.toNat)] ++ maskNames m
  | .vdot d a b m => [(1, d.toNat)] ++ [(1, a.r.toNat)] ++ [(1, b.r.toNat)] ++ maskNames m
  | .kand d a b => [(2, d.toNat)] ++ [(2, a.toNat)] ++ [(2, b.toNat)]
  | .kor d a b => [(2, d.toNat)] ++ [(2, a.toNat)] ++ [(2, b.toNat)]
  | .kxor d a b => [(2, d.toNat)] ++ [(2, a.toNat)] ++ [(2, b.toNat)]
  | .kandn d a b => [(2, d.toNat)] ++ [(2, a.toNat)] ++ [(2, b.toNat)]
  | .knot d a => [(2, d.toNat)] ++ [(2, a.toNat)]
  | .kfromx d a => [(2, d.toNat)] ++ [(0, a.r.toNat)]
  | .ktox d a => [(0, d.toNat)] ++ [(2, a.toNat)]
  | .vaddi d a _ _ => [(1, d.toNat)] ++ [(1, a.r.toNat)]
  | .vshli d a _ _ => [(1, d.toNat)] ++ [(1, a.r.toNat)]
  | .vshri d a _ _ => [(1, d.toNat)] ++ [(1, a.r.toNat)]
  | .vsrai d a _ _ => [(1, d.toNat)] ++ [(1, a.r.toNat)]
  | .scfg _ a _ => [(0, a.r.toNat)]
  | .sbindPop _ => []
  | .sbindPush _ => []
  | .sunbind _ => []
  | .sstat d _ => [(0, d.toNat)]
  | .repImm _ _ => []
  | .repReg _ a => [(0, a.r.toNat)]
  | .longOpBlock _ => []
  | .fillWordUpdate _ _ => []
  | .qregEnqueueDrain _ _ => []
  | .qregFetchAhead _ _ => []
  | .matrixRequestStart _ => []
  | .matrixRequestEnd _ => []
  | .formatBubbleEnd _ => []
  | .accrdDeliver _ => []
  | .copyEngineStart _ => []
  | .copyLineWrite _ _ => []
  | .copyReleased _ => []
  | .copyVisible _ => []
  | .streamFetchAhead _ _ => []
  | .streamPushStore _ _ => []
  | .replayWord _ => []
  | .answerArrival _ _ => []
  | .ageBoost _ _ => []
  | .messageArrival _ => []
  | .messageResend _ => []
  | .handlerStart _ => []
  | .upcallStart _ => []
  | .dispatcherStep _ => []
  | .crewStart _ => []
  | .timeSliceExpiry _ _ => []
  | .checkpointDeadlineExpiry _ _ => []
  | .contextResume _ _ => []
  | .parkedMessageMoveIn _ => []
  | .timeBaseTick => []
  | .powerStateEntry _ => []
  | .wakeEvent _ => []
  | .throttleStep _ => []
  | .homeGrant _ _ => []
  | .efInvalidationLands _ _ => []
  | .invalidationResend _ _ => []
  | .isolationTimeout _ _ => []
  | .frameDelivery _ => []
  | .pageRequestSend _ => []
  | .pageRequestTimeout _ _ => []
  | .partitionReset _ => []
  | .restartPoint _ => []
  | .faultPacketEnqueue _ => []
  | .heldRecordFlush => []
  | .acceptTableWrite _ => []
  | .debugRelease _ => []
  | .debugRetire _ => []
  | .retiredEntryFree _ _ => []
  | .debugMirrorWrite _ => []
  | .flitReplay _ => []
  | .notAnInstruction _ _ => []
  | .instructionFetchFault => []
  | .storeCompletion _ _ => []
  | .atsTranslationCompletion _ _ _ => []
  | .throttleSignal _ _ _ => []
  | .isolationReport _ _ => []
  | .frameArrival _ _ _ => []
  | .ingestConfigWrite _ _ _ => []
  | .hostLaunchWrite _ _ => []
  | .lstatRead _ => []
  | .ltolWrite _ _ => []
  | .vfBindingWrite _ _ => []
  | .hostBar2Read _ _ _ => []
  | .hostBar2Write _ _ _ _ _ => []
  | .registerWrite _ _ => []
  | .pageResponse _ _ _ _ => []
  | .atsInvalidateRequest _ _ => []
  | .priEnableToggle _ => []
  | .prdropRead _ => []
  | .peerPushArrival _ => []
  | .mgmtCreateContext _ => []
  | .mgmtSetAccept _ _ _ => []
  | .packageIdAssign _ => []
  | .routeTableWrite _ _ => []
  | .exportTableWrite _ _ _ _ _ => []
  | .moduleReset _ => []
  | .recoveryGo _ _ => []
  | .recoveryProg _ _ => []
  | .svnRaise => []
  | .softErrorDetect _ => []
  | .scrubRead _ => []
  | .ellostRead => []
  | .flitReceive _ _ => []
  | .retrainComplete _ _ => []
  | .linkCounterRead _ _ => []
  | .linkRetrainCommand _ => []
  | .hostLinkDown _ => []
  | .functionLevelReset _ => []
  | .trustDieError => []
  | .powerLoss => []
  | .hostLinkUp _ => []
  | .mgmtRangeGrant _ _ _ _ _ _ => []

/-- A-class instructions (R171). -/
def isAClass : Instr → Bool
  | .vadd _ _ _ _ _ => true
  | .vsub _ _ _ _ _ => true
  | .vmul _ _ _ _ _ => true
  | .vdiv _ _ _ _ _ => true
  | .vmin _ _ _ _ _ => true
  | .vmax _ _ _ _ _ => true
  | .vsqrt _ _ _ _ => true
  | .vand _ _ _ _ _ => true
  | .vor _ _ _ _ _ => true
  | .vxor _ _ _ _ _ => true
  | .vshl _ _ _ _ _ => true
  | .vshr _ _ _ _ _ => true
  | .vsra _ _ _ _ _ => true
  | .vabs _ _ _ _ => true
  | .vneg _ _ _ _ => true
  | .vfmaF32 _ _ _ _ => true
  | .vfnmaF32 _ _ _ _ => true
  | .vfmaF64 _ _ _ _ => true
  | .vfnmaF64 _ _ _ _ => true
  | .vfmaF16 _ _ _ _ => true
  | .vfnmaF16 _ _ _ _ => true
  | .vfmaBf16 _ _ _ _ => true
  | .vfnmaBf16 _ _ _ _ => true
  | .vcmp _ _ _ _ _ _ => true
  | .vsel _ _ _ _ _ => true
  | .vcvt _ _ _ _ _ => true
  | .vbcast _ _ _ => true
  | .vmovx _ _ _ _ => true
  | .vperm _ _ _ _ _ => true
  | .vzip _ _ _ _ _ => true
  | .vunzip _ _ _ _ _ => true
  | .vrsum _ _ _ _ => true
  | .vrmax _ _ _ _ => true
  | .vrmin _ _ _ _ => true
  | .vdot _ _ _ _ => true
  | .kand _ _ _ => true
  | .kor _ _ _ => true
  | .kxor _ _ _ => true
  | .kandn _ _ _ => true
  | .knot _ _ => true
  | .kfromx _ _ => true
  | .ktox _ _ => true
  | .vaddi _ _ _ _ => true
  | .vshli _ _ _ _ => true
  | .vshri _ _ _ _ => true
  | .vsrai _ _ _ _ => true
  | .scfg _ _ _ => true
  | .sbindPop _ => true
  | .sbindPush _ => true
  | .sunbind _ => true
  | .sstat _ _ => true
  | .repImm _ _ => true
  | .repReg _ _ => true
  | _ => false

/-- R62, R246, R249, R250: the C-class instructions that only the primary fibre may issue. -/
def primaryOnly : Instr → Bool
  | .lpset0 _ _ => true
  | .lpset1 _ _ => true
  | .lpsetr0 _ _ => true
  | .lpsetr1 _ _ => true
  | .ckpt _ => true
  | .ctxnew _ _ => true
  | .ctxgrant _ _ _ => true
  | .ctxrevoke _ _ _ => true
  | .ctxstart _ _ => true
  | .ctxstop _ _ _ => true
  | .ctxsave _ _ _ _ => true
  | .ctxload _ _ _ _ => true
  | .ctxinfo _ _ _ => true
  | .reflect _ _ => true
  | .ldv _ _ _ => true
  | .stv _ _ _ _ => true
  | .tagctlLd _ _ => true
  | .qenqBind _ _ => true
  | .qdeqBind _ _ => true
  | .qstealBind _ _ => true
  | .qpopv _ _ _ => true
  | .qpushv _ _ _ => true
  | .mma _ _ _ _ => true
  | .mmas _ _ _ _ => true
  | .mmac _ _ _ _ => true
  | .mxfmt _ _ _ _ => true
  | .accz _ => true
  | .accrd _ _ => true
  | .accdc _ _ _ => true
  | .hld _ _ _ => true
  | .hst _ _ _ _ => true
  | .hset _ _ _ => true
  | .hget _ _ _ => true
  | .hgat _ _ _ _ => true
  | .hsca _ _ _ _ _ => true
  | .qpop _ q _ => q != 4#3 && q != 5#3
  | .qpush q _ _ => q != 4#3 && q != 5#3
  | _ => false

end Sys2Proof.Machine
end

