-- ==== Sys2Proof/Machine/Access.lean ====
section
/-! DEFINITION. The checks on an address (R440), in their order: its kind (R78), the windows (R102 to R104), the walk of the
page table (R80 to R85), the range table (R94, R95), the rights (R87), the interleave (R98, R99). -/
namespace Sys2Proof.Machine

/-- The kinds of access that the checks tell apart (R87, R102, R423). -/
inductive AccKind
  | load | vload | store | vstore | amo (add : Bool) | fetch | pop | push | gather | scatter | scatterAmo | hload | hstore
  | copySrc | copyDst | peerPush
  deriving DecidableEq, Repr

/-- R87: the right an access needs, as its bit in R86. -/
def AccKind.right : AccKind → Nat
  | .load | .vload | .pop | .gather | .hload | .copySrc => 0
  | .store | .vstore | .push | .scatter | .hstore => 1
  | .fetch => 2
  | .amo _ | .scatterAmo => 3
  | .copyDst => 4
  | .peerPush => 5

/-- The access writes, so that the page's dirty bit must be set before it is visible (R84). -/
def AccKind.writes : AccKind → Bool
  | .load | .vload | .pop | .gather | .hload | .copySrc | .fetch => false
  | _ => true

/-- R423: the access code of an upcall. -/
def AccKind.code : AccKind → Nat
  | .load | .vload => 0
  | .store | .vstore | .peerPush => 1
  | .amo _ => 2
  | .fetch => 3
  | .pop => 4
  | .push => 5
  | .gather => 6
  | .scatter | .scatterAmo => 7
  | .copySrc => 8
  | .copyDst => 9
  | .hload | .hstore => 10

/-- How a check fails (R440). -/
inductive AFail
  | trap (cls : Cls) (addr extra : DWord)
  | page (dva : DWord) (level : Nat)
  | stage2 (ppa dva : DWord)
  | hostMiss (port page : Nat) (dva : DWord) (walk : Bool)
  | isolated (ch mpa : Nat)
  /-- R82: it fails after others of its unit have passed, which have left a state. -/
  | after (s : State) (f : AFail)
  deriving DecidableEq, Repr

/-- R82: a check that follows others of its unit, which have left a state. -/
def checkedAfter {α : Type} (s : State) (e : Except AFail α) : Except AFail α :=
  match e with
  | .ok a => .ok a
  | .error f => .error (.after s f)

/-- R78: what kind of address a value is. -/
inductive Kind
  | none | paged | peer (pkg off : Nat) | onchip (lid off : Nat) | local (off : Nat)
  deriving DecidableEq, Repr

/-- R78. -/
def classify (v : DWord) : Kind :=
  if fld v 63 56 ≠ 0 then .none
  else match fld v 55 54 with
    | 0 => .paged
    | 1 => .peer (fld v 53 44) (fld v 43 0)
    | 2 => if fld v 53 40 = 0 then .onchip (fld v 39 24) (fld v 23 0) else .none
    | _ => if fld v 53 40 = 0x3FFF then .local (fld v 23 0) else .none

/-! ### Keys (R346) -/

/-- The byte ranges [a, a + n) and [b, b + m) overlap. -/
def overlap (a n b m : Nat) : Bool := decide (a < b + m ∧ b < a + n)

/-- R346, R479: the key of a context: that of its partition, by number and generation; the services context holds none, and reads lines as
their partitions wrote them (DEDUCED, log 38). -/
def State.keyOf (s : State) (ctx : Nat) : Option Nat :=
  let p := s.partitionOf ctx
  if p = 0 then none else some ((s.ctx p).gen.toNat * 4096 + p)

/-- A place of the second tier. -/
def inTier1 (a : Nat) : Bool := decide (a < 2 ^ 41)

/-- R346: bytes at rising places as they read under a context's partition: those of lines under another key are not what was written. -/
def State.clear (s : State) (ctx a : Nat) (bs : Bytes) : Bytes :=
  if s.keyed.isEmpty || !inTier1 a then bs
  else match s.keyOf ctx with
    | none => bs
    | some k => bs.zipIdx.map fun b =>
      let n := (a + b.2) / 128
      match tget s.keyed n with
      | some j => if j = k then b.1 else Config.otherKey j k n (ofBytes (s.getBytes (128 * n) 128)) ((a + b.2) % 128)
      | none => b.1

/-- R346: the lines of n bytes stand under the key of a context's partition, which is about to write part of them. -/
def State.rekey (s : State) (ctx a n : Nat) : State :=
  if !inTier1 a then s
  else match s.keyOf ctx with
    | none => s
    | some k => (List.range ((a + n + 127) / 128 - a / 128)).foldl (fun (s : State) i =>
      let l := a / 128 + i
      match tget s.keyed l with
      | some j => if j = k then s else { s.putBytes (128 * l) (s.clear ctx (128 * l) (s.getBytes (128 * l) 128)) with keyed := tset s.keyed l k }
      | none => { s with keyed := tset s.keyed l k }) s

/-- A number of n bytes as a context reads it on a die. -/
def State.readAs (s : State) (ctx : Nat) (die : Option Nat) (a n : Nat) : Nat := ofBytes (s.clear ctx a (s.getFor die a n))

/-! ### Queues in memory (R497) -/

/-- R497: the place of the element at an index. -/
def Queue.slot (q : Queue) (i : Nat) : Nat :=
  let o := 8 * (i % 2 ^ q.cap)
  q.ring.getD (o / 4096) 0 + o % 4096

/-- R320: a context joins its FIFO as its launch queue goes from empty to non-empty. -/
def State.joinFifo (s : State) (q : Queue) : State :=
  match q.launchOf with
  | some n => if q.count = 0 then { s with launchFifo := s.launchFifo ++ [n] } else s
  | none => s

/-- R497: append an element, if the ring has space. -/
def State.enqueue (s : State) (qid : Nat) (v : DWord) : Option State :=
  match tget s.queues qid with
  | some q =>
    if q.count < 2 ^ q.cap then
      let s := s.writeNat (q.slot q.t) 8 v.toNat
      some ({ s with queues := tset s.queues qid { q with t := q.t + 1, count := q.count + 1 } }.joinFifo q)
    else none
  | none => none

/-- R454: a dequeue of the overflow element ends the partition's overflow. -/
def State.ringTaken (s : State) (q : Queue) (v : DWord) : State :=
  match q.ringOf with
  | some n => if v = 3#64 ∧ (s.ctx n).overflow then s.setCtx n { s.ctx n with overflow := false } else s
  | none => s

/-- R497: take the head element. -/
def State.dequeue (s : State) (qid : Nat) : Option (DWord × State) :=
  match tget s.queues qid with
  | some q =>
    if q.count = 0 then none
    else
      let v := dw (ofBytes (s.getBytes (q.slot q.h) 8))
      some (v, { s with queues := tset s.queues qid { q with h := q.h + 1, count := q.count - 1 } }.ringTaken q v)
  | none => none

/-- R497: take the tail element. -/
def State.steal (s : State) (qid : Nat) : Option (DWord × State) :=
  match tget s.queues qid with
  | some q =>
    if q.count = 0 then none
    else
      let v := dw (ofBytes (s.getBytes (q.slot (q.t - 1)) 8))
      some (v, { s with queues := tset s.queues qid { q with t := q.t - 1, count := q.count - 1 } }.ringTaken q v)
  | none => none

/-- R350, R454: log a page newly dirty in a dirty-track range, or the overflow element when one slot is left. -/
def State.logDirty (s : State) (ctx : Nat) (v : DWord) : State :=
  let p := s.partitionOf ctx
  let c := s.ctx p
  if c.overflow then s
  else match tget s.queues c.dq with
    | some q =>
      if q.count + 2 ≤ 2 ^ q.cap then (s.enqueue c.dq v).getD s
      else if q.count + 1 = 2 ^ q.cap then
        let s := (s.enqueue c.dq 3#64).getD s
        s.setCtx p { s.ctx p with overflow := true }
      else s
    | none => s

/-- R248: the slot of a context's table that a register value names, if it holds a queue of the right generation. -/
def State.capIn (s : State) (ctx : Nat) (c : DWord) : Option Cap :=
  if fld c 63 12 ≠ 0 then none
  else match tget (s.ctx ctx).caps c.toNat with
    | some k => match tget s.queues k.qid with
      | some q => if q.gen = k.gen then some k else none
      | none => none
    | none => none

/-- R248: the right that a binding's direction needs (R430). -/
def Cap.allows (k : Cap) (dir : Nat) : Bool := if dir = 1 then k.enq else if dir = 2 then k.deq else k.steal

/-! ### Machine-physical addresses (R96 to R99, R349) -/

/-- R97: the channels of a partition, ascending. -/
def channelSet (c : Ctx) : List Nat :=
  (List.range 512).filter fun ch => c.chmap.getLsbD ch && c.dmask.getLsbD (ch / 64)

/-- R98: the channel and the byte within it of a pool address. -/
def interleave (set : List Nat) (seed p : Nat) : Nat × Nat :=
  let n := set.length
  let g := p >>> 12
  let row := g / n
  let col := g - row * n
  let h := (((row ^^^ (seed * 2 ^ 16 ||| seed)) * 0x9E3779B1) % 2 ^ 32) >>> 16
  (set.getD ((col + h) % n) 0, row * 4096 + p % 4096)

/-- R99: the channel whose L2 is home of an MPA's line. -/
def homeChannel (s : State) (c : Ctx) (mpa : Nat) : Nat :=
  let set := channelSet c
  if set.isEmpty then
    let all := List.range (64 * s.dies)
    (interleave all 0 (mpa % 2 ^ 52 % (all.length * 0x60000000))).1
  else if mpa.testBit 52 then (interleave set c.seed.toNat (mpa % 2 ^ 52 % (set.length * 0x60000000))).1
  else (interleave set c.seed.toNat mpa).1

/-- The place of an MPA: second tier, a host's memory (R349), or a byte of a channel (R96, R98). -/
def mpaPlace (c : Ctx) (mpa : Nat) : Nat :=
  if mpa.testBit 52 then
    if mpa.testBit 51 then hostPlace (b2n (mpa.testBit 50)) (mpa % 2 ^ 50) else mpa % 2 ^ 41
  else let r := interleave (channelSet c) c.seed.toNat mpa; hbmPlace r.1 r.2

/-- R94: the entry that maps a PPA, and the MPA it gives. -/
def rangeOf (c : Ctx) (ppa : Nat) : Option (Range × Nat) :=
  (c.ranges.find? fun r => decide (r.base.toNat ≤ ppa ∧ ppa < r.limit.toNat)).map fun r =>
    (r, r.target.toNat + (ppa - r.base.toNat))

/-- The place or host page of a translated MPA (R349, R440 step 11). `walk`: the access is the walk's own. -/
def mpaTarget (s : State) (c : Ctx) (dva : DWord) (mpa : Nat) (walk : Bool) : Except AFail Target :=
  if mpa.testBit 52 && mpa.testBit 51 then
    let port := if mpa.testBit 50 then 1 else 0
    let a := mpa % 2 ^ 50
    let h := s.host port
    if !h.up then .error (.trap .hostpg dva (dw (4 + a / 4096 * 2 ^ 12)))
    else if h.ats.contains (a / 4096) then .ok (.host port a)
    else .error (.hostMiss port (a / 4096) dva walk)
  else .ok (.mem (mpaPlace c mpa))

/-- The place of a target in memory or in a host's memory. -/
def Target.place : Target → Nat
  | .mem a => a
  | .host p a => hostPlace p a
  | _ => 0

/-! ### Grants, as the dies see them (R111, R119, R120, R122) -/

/-- Two places lie in one 128-byte line. -/
def sameLine (a b : Nat) : Bool := a / 128 == b / 128

/-- A store becomes visible die by die: one to a paged location with a home (R118). -/
def Target.homed : Target → Bool
  | .mem a => isHomed a
  | _ => false

/-- R132: what stands among the dies for the hosts, which are in system scope only. -/
def hostDie : Nat := 8

/-- A die takes the newest copy of a line: earlier grants on the line have landed there; none names every die, and the hosts. -/
def State.landLine (s : State) (die : Option Nat) (a before : Nat) : State :=
  { s with stores := s.stores.map fun p =>
      if p.2.granted && p.2.t.homed && sameLine p.2.t.place a && decide (p.2.gord < before) then
        (p.1, { p.2 with stale := match die with | some d => p.2.stale.filter (· != d) | none => [] })
      else p }

/-- R122: a write to a homed line takes its place in coherence order: what the writer's die, or with `ga` every die, then
reads. -/
def State.seenBy (s : State) (ga : Bool) (die : Option Nat) (a : Nat) : State :=
  s.landLine (if ga then none else die) a s.fresh

/-- R84: set bits of a table entry, with an atomic OR at package scope. -/
def State.orPte (s : State) (place bits : Nat) : State :=
  let s := if isHomed place then { s.seenBy true none place with fresh := s.fresh + 1 } else s
  s.writeNat place 8 (s.readFor none place 8 ||| bits)

/-- The channel whose L2 is home of a place of paged memory, for a context (R99). -/
def State.homeCh (s : State) (ctx a : Nat) : Nat :=
  if 2 ^ 44 ≤ a then (a - 2 ^ 44) / 0x60000000 else homeChannel s (s.ctx ctx) (2 ^ 52 + a)

/-- R450: the home of a place refuses a die. -/
def State.refuses (s : State) (ctx : Nat) (die : Option Nat) (a : Nat) : Bool :=
  isHomed a && s.isolated.any fun p => p.1 == s.homeCh ctx a / 64 && some p.2.1 == die

/-! ### The walk (R80 to R85, R95) -/

/-- What a walk ends with: the leaf's PPA, its domain, its level, the entry's place and value, and what the walk has read. -/
structure Leaf where
  ppa : Nat
  domain : Nat
  level : Nat
  pte : Nat
  place : Nat
  frame : Nat
  ptePpa : Nat
  reads : Lookups := {}
  deriving DecidableEq, Repr

/-- R85: an entry has the shape its level requires. -/
def pteShape (pte level : Nat) : Bool :=
  if pte.testBit 1 then
    decide (level ≤ 2) && bits pte 15 6 == 0 && !pte.testBit 2 && (level == 0 || bits pte (15 + 10 * level) 16 == 0)
  else decide (1 ≤ level) && bits pte 63 52 == 0 && bits pte 12 6 == 0 && bits pte 4 2 == 0

/-- More that a translation has read. -/
def Lookups.with (l : Lookups) (pte : Option Nat) (ppa : Nat) : Lookups :=
  { ptes := match pte with | some p => p :: l.ptes | none => l.ptes, ppas := ppa :: l.ppas }

/-- R80, R85, R95: walk from a node at a level down; a read that the entry's home refuses ends it (R450). -/
def walk (s : State) (ctx : Nat) (die : Option Nat) (dva : DWord) (reads : Lookups) : Nat → Nat → Except AFail Leaf
  | 0, _ => .error (.page dva 0)
  | fuel + 1, node =>
    let c := s.ctx ctx
    let level := fuel
    let idx := bits dva.toNat (25 + 10 * level) (16 + 10 * level)
    let ppa := node + 8 * idx
    match rangeOf c ppa with
    | none => .error (.stage2 (dw ppa) dva)
    | some (r, mpa) =>
      if !r.rights.getLsbD 0 then .error (.stage2 (dw ppa) dva)
      else match mpaTarget s c dva mpa true with
        | .error e => .error e
        | .ok t =>
          let pte := s.readAs ctx die t.place 8
          if s.refuses ctx die t.place then .error (.isolated (s.homeCh ctx t.place) mpa)
          else if !pte.testBit 0 then .error (.page dva level)
          else if !pteShape pte level then .error (.trap .tfmt dva (dw level))
          else
            let tier := if pte.testBit 5 then 2 ^ 52 else 0
            let reads := reads.with (some t.place) ppa
            if pte.testBit 1 then
              let frame := tier + bits pte 51 16 * 2 ^ 16
              .ok { ppa := frame + dva.toNat % 2 ^ (16 + 10 * level), domain := bits pte 63 52, level := level, pte := pte,
                    place := t.place, frame := frame, ptePpa := ppa, reads := reads }
            else walk s ctx die dva reads fuel (tier + bits pte 51 13 * 2 ^ 13)

/-- The walk of a context's table for an address. -/
def State.walkOf (s : State) (ctx : Nat) (die : Option Nat) (dva : DWord) : Except AFail Leaf :=
  walk s ctx die dva {} 4 (s.ctx ctx).ptroot.toNat

/-- R82, R84: the accessed and dirty bits of a leaf entry that a translation sets. -/
def adBits (write : Bool) : Nat := if write then 24 else 8

/-- R440 steps 6 to 11: translate a paged address for an access that needs a right. The state gains the accessed and dirty
bits and the dirty ring's element (DEDUCED, log 37), and what the translation has read (R90). -/
def translate (s : State) (ctx : Nat) (die : Option Nat) (dva : DWord) (right : Nat) (write : Bool) :
    Except AFail (State × Target × Nat) :=
  let c := s.ctx ctx
  match s.walkOf ctx die dva with
  | .error e => .error e
  | .ok l =>
    let updates := (l.pte &&& adBits write) != adBits write
    let nodeW := ((rangeOf c l.ptePpa).map fun x => x.1.rights.getLsbD 1).getD false
    if updates && !nodeW then .error (.stage2 (dw l.ptePpa) dva)
    else match rangeOf c l.ppa with
      | none => .error (.stage2 (dw l.ppa) dva)
      | some (r, mpa) =>
        let dom := (tget c.rights l.domain).getD 0
        if !r.rights.getLsbD right then .error (.stage2 (dw l.ppa) dva)
        else if !dom.getLsbD right then
          .error (.trap .rights dva (dw (2 ^ right + (r.rights.toNat &&& dom.toNat) % 64 * 2 ^ 8)))
        else match mpaTarget s c dva mpa false with
          | .error e => .error e
          | .ok t =>
            if s.refuses ctx die t.place then .error (.isolated (s.homeCh ctx t.place) mpa)
            else
              let s1 := if updates then s.orPte l.place (adBits write) else s
              let newDirty := write && !l.pte.testBit 4
              let frameMpa := ((rangeOf c l.frame).map Prod.snd).getD 0
              let s2 := if newDirty && r.dt then s1.logDirty ctx (dw (frameMpa / 2 ^ 16 * 2 ^ 16 + l.level)) else s1
              let reads := l.reads.with none l.ppa
              .ok ({ s2 with lookups := { ptes := reads.ptes ++ s2.lookups.ptes, ppas := reads.ppas ++ s2.lookups.ppas } }, t, mpa)

/-- A translation outside any unit, which no unit's access is admitted by. -/
def State.translated (s : State) (ctx : Nat) (die : Option Nat) (dva : DWord) (right : Nat) (write : Bool) : Except AFail (State × Target × Nat) :=
  (translate s ctx die dva right write).map fun r => ({ r.1 with lookups := s.lookups }, r.2)

/-- R82, R84: the accessed bit of the leaf that a translation used, where a later check of the access then failed (DEDUCED, log 18). -/
def State.markAccessed (s : State) (ctx : Nat) (die : Option Nat) (dva : DWord) : State :=
  let c := s.ctx ctx
  match classify dva with
  | .paged =>
    match s.walkOf ctx die dva with
    | .ok l =>
      if !l.pte.testBit 3 && ((rangeOf c l.ptePpa).map fun x => x.1.rights.getLsbD 1).getD false then s.orPte l.place 8 else s
    | .error _ => s
  | _ => s

/-- The address of a failed check whose walk ended at a leaf (R440 steps 9 to 11). -/
def AFail.walked : AFail → Option DWord
  | .trap .rights a _ => some a
  | .trap .hostpg a _ => some a
  | .stage2 _ a => some a
  | .hostMiss _ _ a false => some a
  | _ => none

/-! ### The windows (R102 to R104) -/

/-- What R102 and R104 allow at a slot's offset, for an access from the same cluster or from elsewhere. -/
inductive WinRes
  | ok (t : Target)
  | badOffset
  | badKind
  deriving DecidableEq, Repr

/-- R102: a scalar load, store, `amo` or `cas`; a pushed item and a scattered lane count as scalar stores (R276, R299). -/
def AccKind.scalarLoad : AccKind → Bool
  | .load => true
  | _ => false
def AccKind.scalarStore : AccKind → Bool
  | .store | .push | .scatter | .scatterAmo => true
  | _ => false
def AccKind.scalarAmo : AccKind → Bool
  | .amo _ => true
  | _ => false
/-- R102, R104, R388: a store of 8 bytes, which a semaphore and the overman window take; an atomic lane is none (DEDUCED, log 43). -/
def AccKind.plainStore : AccKind → Bool
  | .store | .push | .scatter => true
  | _ => false

/-- R102, R104, R388: the offset and kind conditions of a window. `off` lies in the window of `lid`. A gather on chip outside the scratchpad of its
own cluster is WINDOW with reason 2 (DESIGN CHOICE, log 43). -/
def windowAt (lid off size : Nat) (same : Bool) (k : AccKind) : WinRes :=
  let slot := bits lid 6 3
  let cl := lid / 128
  let scalar := k.scalarLoad || k.scalarStore || k.scalarAmo
  if slot ≤ 8 then
    if off + size ≤ 0x400 then
      if (if same then scalar || k == .vload || k == .vstore || k == .copyDst
          else k.scalarLoad || k.scalarStore || k == .vstore || k == .copyDst)
      then .ok (.vreg (coreAt cl slot) off) else .badKind
    else if 0x1000 ≤ off ∧ off + size ≤ 0x2000 then
      if k.scalarLoad then .ok (.inbox (coreAt cl slot) (off - 0x1000)) else .badKind
    else .badOffset
  else if slot = 9 then
    if off + size ≤ 0x40000 then
      if (if same then scalar || k == .vload || k == .vstore || k == .copyDst
          else k.scalarLoad || k.scalarStore || k == .vstore || k == .copyDst)
      then .ok (.mem (accPlace cl off)) else .badKind
    else .badOffset
  else if slot = 10 then
    if off + size ≤ 0x100000 then
      if (if same then k != .fetch && k != .peerPush
          else scalar || k == .vstore || k == .hstore || k == .copyDst)
      then .ok (.mem (spadPlace cl off)) else .badKind
    else if 0x100000 ≤ off ∧ off + size ≤ 0x100080 then
      if size = 8 ∧ (k = .load ∨ k.plainStore ∨ k = .amo true) then .ok (.sem cl ((off - 0x100000) / 8)) else .badKind
    else .badOffset
  else
    let q := lid / 2048
    let a := off - 0x400000
    if off < 0x8000 ∨ (0x400000 ≤ off ∧ a < 144 * 0x10000 ∧ a % 0x10000 < 0x8818) then
      if size = 8 ∧ (k = .load ∨ k.plainStore) then .ok (.overman q off) else .badKind
    else .badOffset

/-- The share of a context: the bytes [lo, hi) of each cluster's scratchpad (R50, R338). -/
def shareOf (c : Ctx) : Nat × Nat := (c.shoff.toNat * 4096, (c.shoff.toNat + c.shlen.toNat) * 4096)

/-- A range of scratchpad bytes lies in a context's share on a cluster (R103). -/
def inShare (c : Ctx) (cl off size : Nat) : Bool :=
  nodeTouches c cl && decide ((shareOf c).1 ≤ off ∧ off + size ≤ (shareOf c).2)

/-- R51, R103: a range of scratchpad bytes meets the cages of a context on a cluster. -/
def inCages (c : Ctx) (cl off size : Nat) : Bool :=
  nodeTouches c cl && overlap off size (c.cageoff.toNat * 128) (min 8 (2 ^ c.order.toNat) * 34816)

/-- R103, R388: the node condition of a window. -/
def State.nodeCond (s : State) (ctx : Nat) (t : Target) (size : Nat) (k : AccKind) : Bool :=
  let c := s.ctx ctx
  match t with
  | .vreg core _ => s.nodeHas c core
  | .inbox core _ => s.nodeHas c core
  | .sem cl _ => s.holder cl == some ctx
  | .overman _ off => if off < 0x8000 ∧ k.plainStore then (s.upFrom (off / 8)).contains ctx && s.isLive (off / 8) else true
  | .mem a =>
    match spadOf a, accOf a with
    | some (cl, off), _ => inShare c cl off size && !inCages c cl off size
    | none, some (cl, _) => s.nodeHas c (s.issuerCore cl)
    | none, none => true
  | _ => true

/-- R276, R311: the accesses that, on chip, may read the scratchpad of the issuing agent's own cluster and nothing else (DEDUCED, log 43). -/
def AccKind.ownSpadOnly : AccKind → Bool
  | .pop | .copySrc => true
  | _ => false

/-- R440 steps 2, 3 and 5, for an on-chip or local address. `cl`: the issuing agent's cluster. -/
def State.onChip (s : State) (ctx cl : Nat) (k : AccKind) (a : DWord) (lid off size : Nat) : Except AFail Target :=
  let slot := bits lid 6 3
  if k.ownSpadOnly && !(lid == cl * 128 + 80 && decide (off < 0x100000)) then .error (.trap .kind a 5)
  else if !lidNames s.dies lid then .error (.trap .nolid a 0)
  else match windowAt lid off size (lid / 128 == cl) k with
    | .badOffset => .error (.trap .window a (dw (1 + slot * 256)))
    | .badKind => .error (.trap .window a (dw (2 + slot * 256)))
    | .ok t => if s.nodeCond ctx t size k then .ok t else .error (.trap .window a (dw (3 + slot * 256)))

/-- R107: the accesses a peer address takes; a pushed item and a scattered lane are none (DESIGN CHOICE, log 88). -/
def AccKind.peerOk : AccKind → Bool
  | .store | .vstore | .hstore | .amo _ | .copyDst => true
  | _ => false

/-- R107: the accesses that pull. -/
def AccKind.pulls : AccKind → Bool
  | .load | .vload | .pop | .gather | .hload | .copySrc => true
  | _ => false

/-- R440 steps 2 to 11: what an address reaches, for an access of a context's fibre on a core, translated on a die (R92: none is the
trust die). -/
def State.resolveOn (s : State) (die : Option Nat) (core ctx : Nat) (k : AccKind) (a : DWord) (size : Nat) : Except AFail (State × Target) :=
  match classify a with
  | .none => .error (.trap .kind a 1)
  | .paged =>
    match translate s ctx die a k.right k.writes with
    | .error e => .error e
    | .ok (s, t, _) => .ok (s, t)
  | .peer pkg off =>
    if k = .fetch then .error (.trap .kind a 2)
    else if k.pulls then .error (.trap .kind a 3)
    else if s.pkg = some (BitVec.ofNat 10 pkg) then .error (.trap .kind a 4)
    else if k.peerOk then .ok (s, .peer pkg off)
    else .error (.trap .kind a 5)
  | .onchip lid off =>
    if k = .fetch then .error (.trap .kind a 2)
    else (s.onChip ctx (clOf core) k a lid off size).map fun t => (s, t)
  | .local off =>
    if k = .fetch then .error (.trap .kind a 2)
    else (s.onChip ctx (clOf core) k a (clOf core * 128 + 80) off size).map fun t => (s, t)

/-- The same, translated on the core's die. -/
def State.resolve (s : State) (core ctx : Nat) (k : AccKind) (a : DWord) (size : Nat) : Except AFail (State × Target) :=
  s.resolveOn (some (dieOfCore core)) core ctx k a size

/-- R232, R440 step 4: a fill-word operand, of `n` fill words, reaches a cluster and an offset. -/
def State.fillWord (s : State) (core ctx : Nat) (a : DWord) (n : Nat) : Except AFail (Nat × Nat) :=
  let go (lid off : Nat) : Except AFail (Nat × Nat) :=
    if !lidNames s.dies lid then .error (.trap .nolid a 0)
    else if bits lid 6 3 ≠ 10 ∨ 0x100000 ≤ off then .error (.trap .fillw a 1)
    else if off % 16 ≠ 0 then .error (.trap .fillw a 2)
    else if inShare (s.ctx ctx) (lid / 128) off (16 * n) then .ok (lid / 128, off)
    else .error (.trap .fillw a 3)
  match classify a with
  | .none => .error (.trap .kind a 1)
  | .onchip lid off => go lid off
  | .local off => go (clOf core * 128 + 80) off
  | _ => .error (.trap .fillw a 1)

end Sys2Proof.Machine
end

