-- ==== Sys2Proof/Machine/Operands.lean ====
section
/-! DEFINITION. The operands of a unit: registers with their full bits and modes (R168, R169), the streams bound to v0 to v3
(R268 to R276), the order in which a unit's conditions are met, and the end of a unit (R161, R201, R403). -/
namespace Sys2Proof.Machine

/-! ### Outcomes of a unit -/

/-- Why a unit does not take effect. -/
inductive Stop
  | trap (cls : Cls) (addr extra : DWord)          -- a guard fails: the fibre freezes (R19, R403)
  | body (cls : Cls) (extra : DWord)               -- a word captured for repetition fails: where is 0 (R415)
  | wait (wait wop : Nat) (c : WCond)              -- an unmet condition: the fibre waits (R169)
  | hold                                           -- held back from issue, the fibre stays ready (R331)
  | park (f : AFail) (access : Nat)                -- the fibre parks (R421, R444, R349)
  | after (s : State) (x : Stop)                   -- a guard fails after translations that have left a state (R82)
  deriving DecidableEq, Repr

/-- How a unit ends. -/
inductive Ctl
  | fall                                           -- next = unit_end, with the end check of R201
  | jump (t : DWord)                               -- a transfer of control
  | past (e t : DWord)                             -- `rep`: end check at e, next = t (R281)
  | freeze (cls : Cls) (extra : DWord) (pc : DWord)  -- `sys`, `brk` (R207)
  | ended                                          -- `exit`: the entry is free or retiring (R206)
  | ckpt (t : DWord) (next : Ctl)                  -- stop after this unit, which otherwise ends so (R210)
  deriving DecidableEq, Repr

/-- The effect of an instruction: the state it leaves and how the unit ends, or why it takes no effect. -/
abbrev Res := Except Stop (State × Ctl)

/-- An address check that fails: a fault, or a parking (R440). -/
def AFail.stop (k : Nat) : AFail → Stop
  | .trap c a x => .trap c a x
  | .after s f => .after s (f.stop k)
  | f => .park f k

/-- A guard of a word, as opposed to a wait. -/
def Stop.isGuard : Stop → Bool
  | .trap _ _ _ => true
  | .body _ _ => true
  | .park _ _ => true
  | .after _ x => x.isGuard
  | _ => false

/-- R82: a guard that follows translations of its unit, which have left a state. -/
def guardedAfter {α : Type} (s : State) (e : Except Stop α) : Except Stop α :=
  match e with
  | .ok a => .ok a
  | .error x => .error (if x.isGuard then .after s x else x)

/-- Lift an address check. -/
def chk {α : Type} (k : Nat) (e : Except AFail α) : Except Stop α :=
  match e with
  | .ok a => .ok a
  | .error f => .error (f.stop k)

/-- A guard line (R19). -/
def guardC (ok : Bool) (cls : Cls) (addr extra : DWord := 0) : Except Stop Unit :=
  if ok then .ok () else .error (.trap cls addr extra)

/-! ### The issuing fibre -/

/-- The state of the issuing context on the issuing core. -/
def State.me (s : State) : Img := s.img s.unit.core s.unit.ctx
def State.setMe (s : State) (i : Img) : State := s.setImg s.unit.core s.unit.ctx i
/-- The registers a word reads: as they stood before the pair (R161). -/
def State.view (s : State) : Img := s.unit.view.getD s.me
/-- The issuing fibre. -/
def State.myFibre (s : State) : Fibre := s.me.fibre s.unit.entry
def State.setMyFibre (s : State) (f : Fibre) : State := s.setMe (s.me.setFibre s.unit.entry f)
/-- is_primary (R186). -/
def State.isPrimary (s : State) : Bool := s.unit.entry == 0
/-- The issuing context. -/
def State.myCtx (s : State) : Ctx := s.ctx s.unit.ctx
/-- Who the issuing fibre's accesses are made by. -/
def State.who (s : State) : Who :=
  { core := s.unit.core, ctx := s.unit.ctx, gen := s.myCtx.gen, entry := s.unit.entry, uid := s.myFibre.uid }

/-- An x register of the issuing fibre: x0 reads 0; a light fibre has its own x1 to x8 (R58, R173). -/
def State.xVal (s : State) (r : Reg) : DWord :=
  if r = 0#5 then 0
  else if s.isPrimary then s.view.x[r.toNat]
  else (s.view.fibre s.unit.entry).x.toArray.getD (r.toNat - 1) 0

/-- Full bit of an x register (R64, R173). -/
def State.xFull (s : State) (r : Reg) : Bool :=
  if r = 0#5 then true
  else if s.isPrimary then s.view.xfull.getLsbD r.toNat
  else (s.view.fibre s.unit.entry).fe.getLsbD (r.toNat - 1)

/-- Write an x register and set its full bit (R179): writes to x0 are discarded. -/
def State.writeX (s : State) (r : Reg) (v : DWord) : State :=
  if r = 0#5 then s
  else if s.isPrimary then
    let i := s.me
    s.setMe { i with x := i.x.set r.toNat v, xfull := i.xfull ||| BitVec.ofNat 32 (2 ^ r.toNat) }
  else
    let f := s.myFibre
    s.setMyFibre { f with x := f.x.setIfInBounds (r.toNat - 1) v, fe := f.fe ||| BitVec.ofNat 8 (2 ^ (r.toNat - 1)) }

/-- Mark an x register empty (R64). -/
def State.emptyX (s : State) (r : Reg) : State :=
  if r = 0#5 then s
  else if s.isPrimary then
    let i := s.me
    s.setMe { i with xfull := i.xfull &&& ~~~(BitVec.ofNat 32 (2 ^ r.toNat)) }
  else
    let f := s.myFibre
    s.setMyFibre { f with fe := f.fe &&& ~~~(BitVec.ofNat 8 (2 ^ (r.toNat - 1))) }

/-- Mark a v register empty or full. -/
def Img.setVfull (i : Img) (r : Nat) (full : Bool) : Img :=
  { i with vfull := if full then i.vfull ||| BitVec.ofNat 32 (2 ^ r) else i.vfull &&& ~~~(BitVec.ofNat 32 (2 ^ r)) }

/-- A producer in flight will fill an x register of a fibre (R65). -/
def State.awaitsX (s : State) (core ctx entry : Nat) (r : Reg) : Bool :=
  s.flights.any fun p =>
    p.2.who.core == core && p.2.who.ctx == ctx && p.2.who.entry == entry &&
    (match p.2.dst with
     | .x q => q == r
     | .xp q _ => q == r
     | _ => false)

/-- A copy has yet to write bytes of a v register of a context's core (R64, R313). -/
def State.copyAwaits (s : State) (core r : Nat) : Bool :=
  s.copies.any fun p => p.2.lines.any fun l =>
    !l.done && (match l.dst with
      | .vreg k off => k == core && decide (off / 32 ≤ r ∧ r < (off + l.len + 31) / 32)
      | _ => false)

/-- A producer in flight will fill a v register (R65). -/
def State.awaitsV (s : State) (core ctx : Nat) (r : Reg) : Bool :=
  s.copyAwaits core r.toNat || s.flights.any fun p =>
    p.2.who.core == core && p.2.who.ctx == ctx &&
    (match p.2.dst with
     | .v q _ _ => q == r
     | _ => false)

/-! ### Predicates (R59, R195) -/

/-- R252: the neighbour of a core on one side, when both are occupied by one resident context. `left`: the left one. -/
def State.neighbour (s : State) (core ctx : Nat) (left : Bool) : Option Nat :=
  if slotOf core = 8 then none
  else
    let n := coreAt (clOf core) ((slotOf core + if left then 7 else 1) % 8)
    if (s.core core).res = some ctx ∧ (s.core n).res = some ctx then some n else none

/-- R244, R251: the messages waiting for q1, in acceptance order. -/
def Img.q1Slots (i : Img) : List (Nat × InSlot) :=
  sortBy (fun p => p.2.order) (i.inbox.filter fun p => p.2.route == .q1)

/-- R239: the dwords of a message. -/
def Msg.dwords (m : Msg) : List DWord := m.hdr :: m.link :: m.args.toList

/-- R251: the dwords in q1, oldest first. -/
def Img.q1 (i : Img) : List DWord := i.q1Slots.flatMap fun p => p.2.msg.dwords.drop p.2.popped

/-- R59: p10 and p11. -/
def QReg.isReady (q : QReg) : Bool :=
  if q.dir = 1#2 then decide (q.buf.length < 4) else q.dir != 0#2 && !q.buf.isEmpty

/-- R59, R252: p8 to p15 of a context's core. -/
def State.hwPreds (s : State) (core ctx : Nat) : Byte :=
  let i := s.img core ctx
  let conn := slotOf core != 8
  let room (left : Bool) : Bool :=
    match s.neighbour core ctx left with
    | some n => let j := s.img n ctx; decide ((if left then j.fifoR else j.fifoL).length < 8)
    | none => false
  BitVec.ofNat 8
    (b2n (!i.q0.isEmpty) + 2 * b2n (!i.q1.isEmpty) + 4 * b2n i.qreg[0].isReady + 8 * b2n i.qreg[1].isReady +
     16 * b2n (conn && !i.fifoL.isEmpty) + 32 * b2n (conn && !i.fifoR.isEmpty) + 64 * b2n (room true) + 128 * b2n (room false))

/-- The sixteen predicates that the issuing fibre reads. -/
def State.preds (s : State) : Nat :=
  (s.view.fibre s.unit.entry).pred.toNat + 256 * (s.hwPreds s.unit.core s.unit.ctx).toNat

def State.pred (s : State) (p : Nat) : Bool := s.preds.testBit p

/-- Write one of p0 to p7. -/
def State.writeP (s : State) (p : BitVec 3) (b : Bool) : State :=
  let f := s.myFibre
  let m := BitVec.ofNat 8 (2 ^ p.toNat)
  s.setMyFibre { f with pred := if b then f.pred ||| m else f.pred &&& ~~~m }

/-! ### Handles (R293 to R295) -/

/-- The fields of a handle that its users need. -/
structure HView where
  etype : Fmt
  nlev : Nat
  kind : Nat → Nat
  n : Nat
  ext : Nat → Nat
  seed : Nat
  o1 : Nat
  o0 : Nat
  base : DWord
  limit : DWord
  values : DWord
  aux0 : DWord
  aux1 : DWord

/-- R293. `nlev` counts levels. -/
def hview (h : HWord) : HView :=
  let d0 := hdw h 0; let d1 := hdw h 1; let d2 := hdw h 2
  { etype := Fmt.ofCode (BitVec.ofNat 4 (fld d0 35 32)), nlev := fld d0 29 28 + 1,
    kind := fun l => fld d0 (21 + 2 * l) (20 + 2 * l),
    n := ([6, 8, 12, 16, 24].getD (fld d0 19 17) 0),
    ext := fun l => fld d1 (15 + 16 * l) (16 * l), seed := fld d2 63 32, o1 := fld d2 31 16, o0 := fld d2 15 0,
    base := hdw h 3, limit := hdw h 4, values := hdw h 5, aux0 := hdw h 6, aux1 := hdw h 7 }

/-- R140: the formats with scales. -/
def blockScaled : Fmt → Bool
  | .f8a | .f8b | .f4 => true
  | _ => false

/-- R295. -/
def handleValid (h : HWord) : Bool :=
  let v := hview h
  let d0 := hdw h 0
  let k0 := v.kind 0
  !d0.getLsbD 31 && !d0.getLsbD 30 && fld d0 16 0 == 0 &&
  (List.range 4).all (fun l => v.kind l != 3 && (l == 0 || v.nlev ≤ l || v.kind l == 0)) &&
  (if k0 = 2 then fld d0 19 17 ≤ 4 else fld d0 19 17 == 0) &&
  (List.range 4).all (fun l => if l < v.nlev then decide (1 ≤ v.ext l) else v.ext l == 0) &&
  (!(k0 == 2 || blockScaled v.etype) || v.ext 0 % 48 == 0) &&
  !(k0 == 1 && blockScaled v.etype) &&
  decide (v.base.toNat < v.limit.toNat)

/-- R294: the product of the extents of levels 1 up. -/
def HView.nr (v : HView) : Nat := ((List.range 4).filter fun l => 1 ≤ l ∧ l < v.nlev).foldl (fun p l => p * v.ext l) 1

/-- R294: the stored elements of a dense or seeded handle. -/
def HView.count (v : HView) : Nat := if v.kind 0 = 2 then v.nr * (v.ext 0 / 48) * v.n else v.ext 0 * v.nr

/-! ### Streams (R268 to R276) -/

/-- R269: the reserved bits of dword 0. -/
def streamReserved : DWord := 0xFFFFFFFFFF0EF0F0

/-- R269 fields. -/
def Stream.fmt (t : Stream) : Fmt := Fmt.ofCode (BitVec.ofNat 4 (fld t.dw[0] 3 0))
def Stream.kind (t : Stream) : Nat := fld t.dw[0] 9 8
def Stream.mode (t : Stream) : StMode := StMode.ofCode (t.dw[0].getLsbD 20)
def Stream.lanes (t : Stream) : Nat := 256 / t.fmt.width
def Stream.isize (t : Stream) : Nat := t.fmt.width / 8

/-- R270: the dimensions in use, as (count, stride). -/
def Stream.dims (t : Stream) : List (Nat × Int) :=
  (List.range (fld t.dw[0] 11 10 + 1)).map fun e =>
    let d := t.dw.toArray.getD (2 + e) 0
    (fld d 31 0, sgn 32 (fld d 63 32))

/-- R270: N. -/
def Stream.items (t : Stream) : Nat :=
  match t.kind with
  | 0 => t.dims.foldl (fun p d => p * d.1) 1
  | 1 => fld t.dw[2] 31 0
  | _ => let v := hview t.handle; if v.kind 0 = 1 then t.cnt else v.count

/-- R270 kind 0: the offset of item j. -/
def affineOff : List (Nat × Int) → Nat → Int
  | [], _ => 0
  | (c, st) :: ds, j => (j % c : Nat) * st + affineOff ds (j / c)

/-- R111, R161: what the A word of a pair reads at a place: the bytes of the C word's store, which comes before it, where that covers them. -/
def State.afterWord (s : State) (core ctx : Nat) (t : Target) (n v : Nat) : Nat :=
  if s.unit.view.isNone then v
  else s.stores.foldl (fun v p =>
    match p.2.op, p.2.t == t || p.2.t.place != 0 with
    | .bytes bs, true =>
      if p.2.granted || p.2.who.core != core || p.2.who.ctx != ctx then v
      else (List.range n).foldl (fun v k =>
        let i := t.place + k - p.2.t.place
        if p.2.t.place ≤ t.place + k ∧ i < bs.length then v - lane v 8 k * 2 ^ (8 * k) + (bs.getD i 0).toNat * 2 ^ (8 * k) else v) v
    | _, _ => v) v

/-- R270: the address of item j; an index is read as a load (R276) (DEDUCED, log 40). -/
def State.itemAddr (s : State) (core ctx : Nat) (t : Stream) (j : Nat) : Except AFail (State × DWord) :=
  match t.kind with
  | 0 => .ok (s, BitVec.ofInt 64 ((t.dw[1].toNat : Int) + affineOff t.dims j))
  | 1 => do
    let w := if t.dw[0].getLsbD 16 then 4 else 2
    let a := t.dw[6] + dw (j * w)
    if a.toNat % w ≠ 0 then throw (.trap .align a (dw w))
    let (s, tg) ← s.resolve core ctx .pop a w
    .ok (s, t.dw[1] + dw (s.afterWord core ctx tg w (s.readAs ctx (some (dieOfCore core)) tg.place w) * t.isize))
  | _ => .ok (s, (hview t.handle).values + dw (j * t.isize))

/-- R276: item j is naturally aligned, lies in the handle's region for kind 2 (R295), and passes its address checks. -/
def State.itemTarget (s : State) (core ctx : Nat) (t : Stream) (k : AccKind) (j : Nat) : Except AFail (State × Target) := do
  let (s, a) ← s.itemAddr core ctx t j
  if a.toNat % t.isize ≠ 0 then .error (.trap .align a (dw t.isize))
  else
    let v := hview t.handle
    let bad := if a.toNat < v.base.toNat then a else if v.limit.toNat < a.toNat + t.isize then
      (if v.limit.toNat < a.toNat then a else v.limit) else a
    if t.kind = 2 ∧ (a.toNat < v.base.toNat ∨ v.limit.toNat < a.toNat + t.isize) then
      .error (.trap .hregion bad (dw (fld t.dw[0] 23 21)))
    else checkedAfter s (s.resolve core ctx k a t.isize)

/-- The targets of some items, in ascending order; the first that fails decides. -/
def State.itemTargets (s : State) (core ctx : Nat) (t : Stream) (k : AccKind) : List Nat → Except AFail (State × List Target)
  | [] => .ok (s, [])
  | j :: js => do
    let (s, x) ← s.itemTarget core ctx t k j
    let (s, xs) ← checkedAfter s (s.itemTargets core ctx t k js)
    .ok (s, x :: xs)

/-- The items of the element that starts at a position (R273). -/
def Stream.elemItems (t : Stream) (pos : Nat) : List Nat :=
  ((List.range t.lanes).map fun i => pos + i).filter fun j => decide (j < t.items)

/-- The stream unit that a v register is bound to (R268): v0 to v3. -/
def Img.boundTo (i : Img) (r : Reg) : Option Stream :=
  if h : r.toNat < 4 then (let t := i.streams[r.toNat]; if t.bind = 0#2 then none else some t) else none

/-- The reserved bits of a special register (R141, R142, R176, R178), and the low bits of lb and le (R208). -/
def sprReserved (code : Nat) : DWord :=
  match code with
  | 0x000 => 0xFFFFFFFFFF000003
  | 0x001 => 0xFFFFFFFFFFFFE0FC
  | 0x002 => 0xFFFFFFFFFFFFFFC0
  | 0x018 => 0xFFFFFFFFFFFFFFF8
  | 0x020 | 0x021 | 0x024 | 0x025 => 3
  | _ => 0

/-- R165: a scope by its sc code. -/
def scopeCode : Nat → Scope
  | 0 => .core | 1 => .cl | 2 => .qd | 3 => .di | 4 => .pk | _ => .sy

/-! ### The conditions of a unit, in field order (R169, R400) -/

/-- One operand of a word, in field order. -/
inductive Opnd
  | x (a : Src)                       -- an x source
  | v (a : Src)                       -- a v source
  | dx (r : Reg)                      -- an x destination
  | dv (r : Reg)                      -- a v destination
  | cond (ok : Bool) (wait wop : Nat) (c : WCond) -- a queue, or another condition of R169

/-- How many earlier v sources of a list name a register (R273: each field pops its own element). -/
def popsBefore (r : Reg) : List Opnd → Nat
  | [] => 0
  | .v a :: os => (if a.r = r then 1 else 0) + popsBefore r os
  | _ :: os => popsBefore r os

/-- The number of elements held ahead of the k-th pop decides whether it is there. -/
def elemHere (t : Stream) (k : Nat) : Bool := decide (k < t.held.length)

/-- A v source is full: its register, or the stream's next element (R169, R273). -/
def State.vReady (s : State) (r : Reg) (k : Nat) : Bool :=
  match s.me.boundTo r with
  | some t => if t.bind = 1#2 then elemHere t k else true
  | none => s.view.vfull.getLsbD r.toNat

/-- R404: the extra field of EMPTY. -/
def emptyExtra (r : Reg) (v bound : Bool) : DWord := dw (r.toNat + 256 * b2n v + 512 * b2n bound)

/-- R400 step 5: the first trap-mode source that is empty; a pop stream that is at its end or whose next item fails its checks counts as empty here,
since EMPTY comes before STREAM in R406 (DESIGN CHOICE, log 109). -/
def State.emptyTrap (s : State) : List Opnd → List Opnd → Except Stop Unit
  | _, [] => .ok ()
  | pre, o :: os =>
    match o with
    | .x a => if a.t && !s.xFull a.r then .error (.trap .empty 0 (emptyExtra a.r false false)) else s.emptyTrap (pre ++ [o]) os
    | .v a =>
      if a.t && !s.vReady a.r (popsBefore a.r pre) then
        .error (.trap .empty 0 (emptyExtra a.r true (s.me.boundTo a.r).isSome))
      else s.emptyTrap (pre ++ [o]) os
    | _ => s.emptyTrap (pre ++ [o]) os

/-- R404: the extra field of STREAM. -/
def streamExtra (u reason : Nat) : DWord := dw (u + 16 * reason)

/-- R273, R276, R414: the guards of one operand that pops a stream; the state that its items' translations leave. -/
def State.popGuard (s : State) (pre : List Opnd) : Opnd → Except Stop State
  | .v a =>
    match s.me.boundTo a.r with
    | none => .ok s
    | some t => do
      let k := popsBefore a.r pre
      let pos := t.pos.toNat + k * t.lanes
      guardC (t.bind == 1#2) .stream 0 (streamExtra a.r.toNat 7)
      guardC (decide (pos < t.items)) .stream 0 (streamExtra a.r.toNat 6)
      if elemHere t k then .ok s
      else (chk 4 (s.itemTargets s.unit.core s.unit.ctx t .pop (t.elemItems pos))).map Prod.fst
  | _ => .ok s

/-- R273, R276, R414: the guards of the streams that the operands pop. -/
def State.streamGuards (s : State) : List Opnd → List Opnd → Except Stop State
  | _, [] => .ok s
  | pre, o :: os => do
    let t ← s.popGuard pre o
    guardedAfter t (t.streamGuards (pre ++ [o]) os)

/-- R274: a destination that a unit is bound to: bound for pushing, and not at its end. -/
def State.pushGuards (s : State) : List Opnd → Except Stop Unit
  | [] => .ok ()
  | .dv r :: os => do
    match s.me.boundTo r with
    | none => pure ()
    | some t =>
      guardC (t.bind == 2#2) .stream 0 (streamExtra r.toNat 7)
      guardC (decide (t.pos.toNat < t.items)) .stream 0 (streamExtra r.toNat 6)
    s.pushGuards os
  | _ :: os => s.pushGuards os

/-- R274: the items that a push writes: lanes with mask bit 1 below item N. -/
def Stream.pushLanes (t : Stream) (mask : Nat) : List Nat :=
  (List.range t.lanes).filter fun j => mask.testBit j && decide (t.pos.toNat + j < t.items)

/-- R423: the access code of a push whose items fail: 4 for the read of an index, 5 for an item. -/
def State.pushCode (s : State) (core ctx : Nat) (t : Stream) : List Nat → Nat
  | [] => 5
  | j :: js =>
    match s.itemAddr core ctx t j, s.itemTarget core ctx t .push j with
    | .error _, _ => 4
    | .ok _, .error _ => 5
    | .ok _, .ok (s, _) => s.pushCode core ctx t js

/-- The targets of the items of a push (R276, R414). -/
def State.pushTargets (s : State) (core ctx : Nat) (t : Stream) (js : List Nat) : Except Stop (State × List Target) :=
  chk (s.pushCode core ctx t js) (s.itemTargets core ctx t .push js)

/-- R274, R414: the items that a push of a destination will write pass their checks. -/
def State.pushCheck (s : State) (r : Reg) (mask : Nat) : Except Stop State :=
  match s.me.boundTo r with
  | none => .ok s
  | some t => (s.pushTargets s.unit.core s.unit.ctx t ((t.pushLanes mask).map fun j => t.pos.toNat + j)).map Prod.fst

/-- The elements that the C word of a pair has popped from a register's stream, when the A word's conditions are taken (R161). -/
def State.popsEarlier (s : State) (r : Reg) : Nat :=
  match s.view.boundTo r, s.me.boundTo r with
  | some b, some t => b.held.length - t.held.length
  | _, _ => 0

/-- The elements that the units before one have pushed to a register's stream, and those that the C word of its pair has (R161). -/
def State.pushState (s : State) (r : Reg) : Option (Stream × Nat) :=
  (s.me.boundTo r).map fun t => match s.view.boundTo r with
    | some b => (b, t.push.length - b.push.length)
    | none => (t, 0)

/-- R274: a stream has space for an element after some others of its unit, and awaits no value of an earlier unit. -/
def Stream.room (t : Stream) (ahead : Nat) : Bool := decide (t.push.length + ahead < 8) && !t.push.any fun e => e.val.isNone

/-- The condition of one operand that is unmet, as a wait and its operand (R60, R169). -/
def State.unmet (s : State) (pre : List Opnd) : Opnd → Option (Nat × Nat × WCond)
  | .x a => if s.xFull a.r then none else some (1, a.r.toNat, .xreg a.r)
  | .v a =>
    let k := popsBefore a.r pre
    if s.vReady a.r k then none else some (1, a.r.toNat, .vreg a.r (s.popsEarlier a.r + k))
  | .dx r => if !s.xFull r && s.awaitsX s.unit.core s.unit.ctx s.unit.entry r then some (1, r.toNat, .xdst r) else none
  | .dv r =>
    match s.pushState r with
    | some (t, n) => if t.room n then none else some (1, r.toNat, .vdst r n)
    | none => if !s.view.vfull.getLsbD r.toNat && s.awaitsV s.unit.core s.unit.ctx r then some (1, r.toNat, .vdst r 0) else none
  | .cond ok w o c => if ok then none else some (w, o, c)

/-- The first unmet condition in field order. -/
def State.firstUnmet (s : State) : List Opnd → List Opnd → Option (Nat × Nat × WCond)
  | _, [] => none
  | pre, o :: os => match s.unmet pre o with
    | some w => some w
    | none => s.firstUnmet (pre ++ [o]) os

/-- A source, as opposed to a destination or a further condition. -/
def Opnd.isSrc : Opnd → Bool
  | .x _ | .v _ => true
  | _ => false

/-- The first source that is not full. -/
def State.srcUnmet (s : State) : List Opnd → List Opnd → Bool
  | _, [] => false
  | pre, o :: os => (o.isSrc && (s.unmet pre o).isSome) || s.srcUnmet (pre ++ [o]) os

/-- R169: the unit waits for its first unmet condition, if there is one. -/
def State.settle (s : State) (os : List Opnd) : Except Stop Unit :=
  match s.firstUnmet [] os with
  | some (w, o, c) => .error (.wait w o c)
  | none => .ok ()

/-- Before a word's own guards, R400: EMPTY, the stream guards, and the wait for a block-mode source whose value they need. -/
def State.enterFor (s : State) (need os : List Opnd) : Except Stop Unit := do
  s.emptyTrap [] os
  let t ← s.streamGuards [] os
  guardedAfter t (s.pushGuards os)
  if s.srcUnmet [] need then s.settle os else pure ()

/-- The same, where the guards need every source. -/
def State.enter (s : State) (os : List Opnd) : Except Stop Unit := s.enterFor os os

/-- All conditions of a word that has no guard of its own beyond them. -/
def State.ready (s : State) (os : List Opnd) : Except Stop Unit := do
  s.enter os
  s.settle os

/-! ### Reading and writing v registers -/

/-- The value of a v source: a register, or the k-th element held by its stream (R273). -/
def State.vVal (s : State) (r : Reg) (k : Nat) : VWord :=
  match s.me.boundTo r with
  | some t => t.held.getD k 0
  | none => s.view.v[r.toNat]

/-- Pop n elements from the stream of a register (R273). -/
def State.popV (s : State) (r : Reg) (n : Nat) : State :=
  match s.me.boundTo r with
  | some t =>
    let i := s.me
    let t' := { t with pos := BitVec.ofNat 48 (min (t.pos.toNat + n * t.lanes) t.items), held := t.held.drop n }
    s.setMe { i with streams := i.streams.setIfInBounds r.toNat t' }
  | none => s

/-- Read some v sources in field order, popping where they are bound for popping. -/
def State.readVs (s : State) (rs : List Reg) : List VWord × State :=
  let rec vals : List Reg → List Reg → List VWord
    | _, [] => []
    | pre, r :: rs => s.vVal r (pre.filter (· == r)).length :: vals (pre ++ [r]) rs
  (vals [] rs, [0#5, 1#5, 2#5, 3#5].foldl (fun st r =>
    let n := (rs.filter (· == r)).length
    if n = 0 then st else st.popV r n) s)

/-- The lanes of width w of `new` where the mask bit is 1, of `old` elsewhere (R167). -/
def mergeLanes (w mask : Nat) (new old : VWord) : VWord :=
  BitVec.ofNat 256 (ofLanes w ((List.range (256 / w)).map fun i =>
    if mask.testBit i then lane new.toNat w i else lane old.toNat w i))

/-- R274, R414: push an element: its items are checked and translated, the position advances, the element takes its place.
`val` is none for a value that arrives later; the number returned names the element. -/
def State.pushV (s : State) (r : Reg) (t : Stream) (val : Option VWord) (mask : Nat) : Except Stop (Nat × State) := do
  let ls := t.pushLanes mask
  let (s, ts) ← s.pushTargets s.unit.core s.unit.ctx t (ls.map fun j => t.pos.toNat + j)
  let tag := s.fresh
  let i := s.me
  let e : PushElem := { items := ls.zip ts, width := t.fmt.width, md := t.mode, val := val, tag := tag, pc := s.unit.pc, word := s.unit.word,
                        adm := s.lookups }
  let t' := { t with pos := BitVec.ofNat 48 (min (t.pos.toNat + t.lanes) t.items), push := t.push ++ [e] }
  .ok (tag, { s.setMe { i with streams := i.streams.setIfInBounds r.toNat t' } with fresh := tag + 1 })

/-- write_dst for a v register (R179): a stream-bound register is pushed, another takes the lanes of the mask. -/
def State.writeV (s : State) (r : Reg) (val : VWord) (w mask : Nat) : Except Stop State :=
  match s.me.boundTo r with
  | some t => do
    let (_, s) ← s.pushV r t (some val) mask
    .ok s
  | none =>
    let i := s.me
    let i := { i with v := i.v.set r.toNat (mergeLanes w mask val i.v[r.toNat]) }
    .ok (s.setMe (i.setVfull r.toNat true))

/-- kbit (R254) for every lane: all ones when m = 0, the mask register otherwise. -/
def State.kmask (s : State) (m : BitVec 3) : Nat := if m = 0#3 then 2 ^ 32 - 1 else s.view.k[m.toNat].toNat

/-! ### The end of a unit -/

/-- R201: the end check after a unit whose last word is at e: the state, and next if it is assigned. -/
def endCheck (i : Img) (e : DWord) : Img × Option DWord :=
  let lc0 := i.lc[0]; let lc1 := i.lc[1]
  if lc1 ≠ 0 ∧ e = i.le[1] ∧ 1 < lc1.toNat then ({ i with lc := #v[lc0, lc1 - 1] }, some i.lb[1])
  else
    let lc1' := if lc1 ≠ 0 ∧ e = i.le[1] then 0 else lc1
    if lc0 ≠ 0 ∧ e = i.le[0] then
      if 1 < lc0.toNat then ({ i with lc := #v[lc0 - 1, lc1'] }, some i.lb[0]) else ({ i with lc := #v[0, lc1'] }, none)
    else ({ i with lc := #v[lc0, lc1'] }, none)

/-- The effective level of a fibre (R60, R69). -/
def Fibre.effLevel (f : Fibre) : Nat := if f.boost then min 3 (f.level.toNat + 1) else f.level.toNat

/-- R69, R331: the place of an entry in the round-robin of its level: the boosted entries come after the others. -/
def Fibre.rrPos (f : Fibre) (entry : Nat) : BitVec 9 := BitVec.ofNat 9 (b2n f.boost * 256 + entry)

/-- The fibre that issued: its PC, its age, its boost (R69), and the round-robin of its level. -/
def State.issued (s : State) (pc : DWord) : State :=
  let f := s.myFibre
  let s := s.setMyFibre { f with pc := pc, age := 0, boost := false }
  let s := if s.isPrimary then s.setMe { s.me with hush := false } else s
  let c := s.core s.unit.core
  s.setCore s.unit.core { c with rr := c.rr.setIfInBounds f.effLevel (f.rrPos s.unit.entry) }

/-- What the packet of a fault on the issuing unit says of it (R404). -/
def State.unitFault (s : State) (wh : BitVec 2) : FaultAt :=
  let f := s.myFibre
  let u := s.unit
  let (word, other) := if wh = 2#2 then (u.other, u.word) else (u.word, u.other)
  { core := u.core, ctx := u.ctx, entry := u.entry, kind := f.kind.toNat, level := f.level.toNat, lid := lidOf u.core,
    wh := wh.toNat, body := u.body.toNat, pc := if wh = 2#2 then u.pc + 4 else u.pc, word := word, other := other }

/-- R349: the issuing fibre has asked for the translation of a host page. -/
def State.asked (s : State) (port page : Nat) : Bool := (s.host port).asking.any fun a => a.who == s.who && a.page == page && a.copy.isNone

/-- R349: a unit that a stop holds back until a host answers. -/
def Stop.awaitsHost (s : State) : Stop → Bool
  | .park (.hostMiss port page _ _) _ => s.asked port page
  | .park (.after _ (.hostMiss port page _ _)) _ => s.asked port page
  | .after _ x => x.awaitsHost s
  | _ => false

/-- R421, R444: park the issuing fibre; for a host page that no translation is held of, the port asks its host, and the fibre parks if
the page is not present (R349) (DEDUCED, log 15). -/
def State.parkMe (s : State) (wh : BitVec 2) (f : AFail) (access : Nat) : State :=
  let u := s.unit
  let i := s.me.pauseRep u.entry
  let fb := i.fibre u.entry
  let fa := s.unitFault wh
  let mk (dva : DWord) (level : Nat) : Parking :=
    { entry := u.entry, uid := fb.uid, dva := dva, access := BitVec.ofNat 4 access, level := BitVec.ofNat 2 level,
      pc := if u.wh = 3#2 then u.pc else fb.pc, word := fa.word, other := fa.other, wh := wh, body := u.body, seq := s.fresh }
  let parked (wop : Nat) : Fibre := { fb with st := .parked, wait := 6, wop := BitVec.ofNat 8 wop }
  match f with
  | .page dva level =>
    { s.setMe { i.setFibre u.entry (parked 0) with parkings := i.parkings ++ [mk dva level] } with fresh := s.fresh + 1 }
  | .stage2 ppa dva =>
    let composer := match s.myCtx.parent with
      | some (p, _) => p
      | none => u.ctx
    let (id, v, s) := s.newLink { kind := .composer u.core u.ctx u.entry fb.uid, answerer := composer, answererGen := (s.ctx composer).gen }
    let s := s.setMe { i.setFibre u.entry (parked 3) with parkings := i.parkings ++ [{ mk dva 0 with link := some id, started := true }] }
    { s.sendPacket fa .stage2 ppa v (s.upFrom composer) with fresh := s.fresh + 1 }
  | .hostMiss port page dva _ =>
    let h := s.host port
    if s.asked port page then s
    else { s.setHost port { h with asking := h.asking ++ [{ who := s.who, page := page, parking := some { mk dva 0 with started := true } }] } with
             fresh := s.fresh + 1 }
  | .isolated ch mpa => s.machineCheck (s.partitionOf u.ctx) 2 0x0C ch (dw mpa) 0
  | .trap _ _ _ => s
  | .after _ _ => s

/-- R82, R84, R350: what the translations of a unit have marked, in a state that they led to, stays though the unit has no effect: accessed
and dirty bits, and what the dirty ring has logged. -/
def State.keepMarks (s t : State) : State :=
  let s := t.lookups.ptes.foldl (fun (s : State) p =>
    let b := t.readFor none p 8 &&& 24
    if s.readFor none p 8 &&& b = b then s else s.orPte p b) s
  let p := s.partitionOf s.unit.ctx
  let dq := (s.ctx p).dq
  let s := match tget s.queues dq, tget t.queues dq with
    | some a, some b => (List.range (b.t - a.t)).foldl (fun (s : State) i =>
        (s.enqueue dq (dw (ofBytes (t.getBytes (a.slot (a.t + i)) 8)))).getD s) s
    | _, _ => s
  if (t.ctx p).overflow && !(s.ctx p).overflow then s.setCtx p { s.ctx p with overflow := true } else s

/-- R84: the walk of a check that failed at a leaf has set its accessed bit. -/
def State.walkedTo (s : State) (f : AFail) : State :=
  match f.walked with
  | some a => s.markAccessed s.unit.ctx (some (dieOfCore s.unit.core)) a
  | none => s

/-- A unit that takes no effect: the fibre freezes, waits, stays ready, or parks. -/
def State.stopUnit (s : State) (wh : BitVec 2) : Stop → State
  | .trap c a x => (s.walkedTo (.trap c a x)).freeze (s.unitFault wh) c a x
  | .body c x => s.freeze { s.unitFault wh with wh := 0 } c 0 x
  | .wait w o c => s.setMyFibre (s.myFibre.waits w o c)
  | .hold => s
  | .park f k => (s.walkedTo f).parkMe wh f k
  | .after t x => (s.keepMarks t).stopUnit wh x

end Sys2Proof.Machine
end

