-- ==== Sys2Proof/Machine/Cage.lean ====
section
/-! DEFINITION. The cage (R75, R428 to R431) as a view of a context's state on a core: every dword read and written, for a
cage that is not loaded and for the debug area (R389). -/
namespace Sys2Proof.Machine

/-! ### Status words (R60) -/

/-- R60: the state codes. -/
def FState.code : FState → Nat
  | .free => 0 | .ready => 1 | .waiting => 2 | .parked => 3 | .frozen => 4
def FState.ofCode : Nat → FState
  | 1 => .ready | 2 => .waiting | 3 => .parked | 4 => .frozen | _ => .free

/-- R60: the status word. -/
def Fibre.status (f : Fibre) : DWord :=
  dw (f.st.code * 2 ^ 61 + f.level.toNat * 2 ^ 59 + b2n f.boost * 2 ^ 58 + f.kind.toNat * 2 ^ 56 + f.fe.toNat * 2 ^ 48 +
    f.pred.toNat * 2 ^ 40 + f.tok.toNat * 2 ^ 24 + f.wop.toNat * 2 ^ 16 + f.age.toNat * 16 + f.wait.toNat)

/-- R60: the fields that a debug write sets (RW): level, fe, pred, tok, wop, wait. -/
def Fibre.setRw (f : Fibre) (v : DWord) : Fibre :=
  { f with level := BitVec.ofNat 2 (fld v 60 59), fe := BitVec.ofNat 8 (fld v 55 48), pred := BitVec.ofNat 8 (fld v 47 40),
           tok := BitVec.ofNat 16 (fld v 39 24), wop := BitVec.ofNat 8 (fld v 23 16), wait := BitVec.ofNat 4 (fld v 3 0) }

/-- R433, R61: what a waiting fibre whose status word was written waits for, by the wait and wop of the word; where they do not say it, its
unit decides as it becomes ready (DEDUCED, log 104). -/
def writtenCond (wait wop : Nat) : WCond :=
  match wait with
  | 1 => .xreg (BitVec.ofNat 5 wop)
  | 2 => if wop < 2 then .qpop wop 1 else .none
  | 4 => .tokens (BitVec.ofNat 8 wop)
  | 5 => .sem wop
  | 7 => .fence (scopeCode wop)
  | _ => .none

/-- Every field of a status word that stands in a cage. -/
def Fibre.setStatus (f : Fibre) (v : DWord) : Fibre :=
  { f.setRw v with st := FState.ofCode (fld v 63 61), cond := if v = f.status then f.cond else writtenCond (fld v 3 0) (fld v 23 16), boost := v.getLsbD 58, kind := BitVec.ofNat 2 (fld v 57 56),
                   age := BitVec.ofNat 12 (fld v 15 4) }

/-! ### Small accessors -/

/-- Dword j of a v register. -/
def vDword (v : VWord) (j : Nat) : DWord := dw (lane v.toNat 64 j)
/-- A v register with dword j replaced. -/
def setVDword (v : VWord) (j : Nat) (x : DWord) : VWord :=
  BitVec.ofNat 256 (ofLanes 64 ((List.range 4).map fun k => if k = j then x.toNat else lane v.toNat 64 k))

/-- R428 dword 10: the bindings of the four stream units. -/
def Img.sbinds (i : Img) : Nat :=
  i.streams[0].bind.toNat + 4 * i.streams[1].bind.toNat + 16 * i.streams[2].bind.toNat + 64 * i.streams[3].bind.toNat

/-- R429, R430: the word of a cut-short `accrd`. -/
def Img.accrdWord (i : Img) : Nat :=
  match i.cuts with
  | c :: _ => c.tile + c.row * 2 ^ 8 + c.left * 2 ^ 16
  | [] => 0

/-- A list made n long: cut, or padded with zeros. -/
def resize (l : List DWord) (n : Nat) : List DWord := (List.range n).map fun k => l.getD k 0

/-- A list with one place replaced. -/
def setAt (l : List DWord) (k : Nat) (v : DWord) : List DWord := l.set k v

/-- The slots of the inbox that hold a message (R428). -/
def Img.iocc (i : Img) : Nat := i.inbox.foldl (fun n p => n + 2 ^ p.1) 0

/-- R431: the replay state. -/
def Rep.word (r : Rep) : DWord := dw (b2n r.act * 2 ^ 63 + r.len.toNat * 2 ^ 58 + r.next.toNat * 2 ^ 53 + r.left.toNat)

/-! ### Reading -/

/-- The producers that still target a fibre's registers (R206): the register that its wait names, x before v before h. -/
def State.producer (s : State) (core ctx entry : Nat) : Option Nat :=
  let fl := s.flights.filter fun p => p.2.who.core == core && p.2.who.ctx == ctx && p.2.who.entry == entry
  let xs := fl.filterMap fun p => match p.2.dst with
    | .x r => some r.toNat
    | .xp r _ => some r.toNat
    | _ => none
  let vs := (fl.filterMap fun p => match p.2.dst with
    | .v r _ _ => some r.toNat
    | _ => none) ++ (if entry = 0 then (List.range 32).filter fun r => s.copyAwaits core r else [])
  let hs := fl.filterMap fun p => match p.2.dst with
    | .h r => some r.toNat
    | _ => none
  let least (l : List Nat) : Option Nat := l.foldl (fun m r => some (match m with | some k => min k r | none => r)) none
  (least xs).or ((least vs).or (least hs))


/-- R429: the progress word. -/
def Img.progress (i : Img) : DWord := (i.ops.head?.map LongOp.word).getD 0

/-- R428: header dword n. -/
def Img.header (i : Img) (id : DWord) (n : Nat) : DWord :=
  match n with
  | 0 => i.progress
  | 1 => (i.fibre 0).pc
  | 2 => id
  | 3 => i.fmt
  | 4 => i.fctl
  | 5 => i.fstatus
  | 6 => dw (i.vfull.toNat * 2 ^ 32 + i.xfull.toNat)
  | 7 => dw ((i.rq.filter fun p => p.2.st != .free).length * 2 ^ 16 + i.parked.length * 2 ^ 8 + i.inbox.length)
  | 8 => dw (i.cause.toNat * 2 ^ 61)
  | 9 => i.table
  | 10 => dw i.sbinds
  | 11 => (i.ops.head?.map LongOp.image).getD 0
  | 12 => i.stopTick
  | 13 => i.ires
  | 14 => dw i.iocc
  | _ => 0

/-- R430: queue registers, q0, neighbour FIFOs, from 0x0C00. -/
def Img.queueRegion (i : Img) (n : Nat) : DWord :=
  if n < 2 then (i.qreg.toArray.getD n {}).cap
  else if n < 4 then dw (i.qreg.toArray.getD (n - 2) {}).dir.toNat
  else if n < 12 then ((i.qreg.toArray.getD ((n - 4) / 4) {}).buf).getD ((n - 4) % 4) 0
  else if n = 12 then dw (i.qreg[0].buf.length + i.qreg[1].buf.length * 2 ^ 8)
  else if n = 16 then dw i.accrdWord
  else if n = 17 then dw i.q0.length
  else if 18 ≤ n ∧ n < 34 then i.q0.getD (n - 18) 0
  else if 34 ≤ n ∧ n < 42 then i.fifoL.getD (n - 34) 0
  else if n = 42 then dw i.fifoL.length
  else if 43 ≤ n ∧ n < 51 then i.fifoR.getD (n - 43) 0
  else if n = 51 then dw i.fifoR.length
  else 0

/-- R75: the dword at an offset of the cage of a context's core, as its fields stand. -/
def State.cageField (s : State) (core ctx off : Nat) : DWord :=
  let i := s.img core ctx
  let n := off / 8
  if off < 0x100 then i.header (s.ctxid ctx) n
  else if off < 0x200 then i.x.toArray.getD (n - 0x20) 0
  else if off < 0x600 then vDword (i.v.toArray.getD ((n - 0x40) / 4) 0) ((n - 0x40) % 4)
  else if off < 0x640 then (i.k.toArray.getD (n - 0xC0) 0).setWidth 64
  else if off = 0x640 then dw ((i.fibre 0).pred.toNat + 256 * (s.hwPreds core ctx).toNat)
  else if off = 0x648 then (i.fibre 0).tok.setWidth 64
  else if off < 0x680 then
    let l := (n - 0xCA) / 3
    match (n - 0xCA) % 3 with
    | 0 => i.lb.toArray.getD l 0
    | 1 => i.le.toArray.getD l 0
    | _ => i.lc.toArray.getD l 0
  else if off < 0x700 then 0
  else if off < 0x900 then hdw (i.h.toArray.getD ((n - 0xE0) / 8) 0) ((n - 0xE0) % 8)
  else if off < 0xB00 then
    let t := i.streams.toArray.getD ((n - 0x120) / 16) {}
    let j := (n - 0x120) % 16
    if j < 7 then t.dw.toArray.getD j 0 else if j = 7 then t.pos.setWidth 64 else hdw t.handle (j - 8)
  else if off < 0xB80 then
    let j := 2 * (n - 0x160)
    dw ((i.rep.body.toArray.getD j 0).toNat + 2 ^ 32 * (i.rep.body.toArray.getD (j + 1) 0).toNat)
  else if off = 0xB80 then i.rep.word
  else if off = 0xB88 then i.rep.repat
  else if off < 0xC00 then 0
  else if off < 0x1000 then i.queueRegion (n - 0x180)
  else if off < 0x1800 then (tget i.handlers (n - 0x200)).getD 0
  else if off < 0x6800 then
    let e := (n - 0x300) / 10
    let f := i.fibre e
    match (n - 0x300) % 10 with
    | 0 => f.pc
    | 1 =>
      let f := if f.retiring ∧ f.st = .frozen then { f with wait := 1, wop := BitVec.ofNat 8 ((s.producer core ctx e).getD 0) } else f
      if e = 0 then ({ f with fe := 0 } : Fibre).status else f.status
    | k => if e = 0 then 0 else f.x.toArray.getD (k - 2) 0
  else
    let m := (n - 0xD00) / 8
    let msg := if m < 64 then (tget i.inbox m).map InSlot.msg else (i.parked[m - 64]?).map InSlot.msg
    match msg with
    | some g => g.dwords.getD ((n - 0xD00) % 8) 0
    | none => 0

/-- The dword at an offset of a cage. -/
def State.cageDword (s : State) (core ctx off : Nat) : DWord :=
  (tget (s.img core ctx).odd off).getD (s.cageField core ctx off)

/-! ### Writing -/

/-- R428: write header dword n, the fields that are state. -/
def Img.setHeader (i : Img) (n : Nat) (v : DWord) : Img :=
  match n with
  | 0 => { i with ops := if v.getLsbD 63 then { word := v, image := (i.ops.head?.map LongOp.image).getD 0, uid := (i.fibre 0).uid } :: i.ops.drop 1
                         else i.ops.drop 1 }
  | 1 => i.setFibre 0 { i.fibre 0 with pc := v }
  | 3 => { i with fmt := v }
  | 4 => { i with fctl := v }
  | 5 => { i with fstatus := v }
  | 6 => { i with vfull := BitVec.ofNat 32 (fld v 63 32), xfull := BitVec.ofNat 32 (fld v 31 0) ||| 1 }
  | 7 => { i with parked := (List.range (min 64 (fld v 15 8))).map fun k => i.parked.getD k {} }
  | 8 => { i with cause := BitVec.ofNat 3 (fld v 63 61) }
  | 9 => { i with table := v }
  | 10 => { i with streams := Vector.ofFn fun (u : Fin 4) =>
              let b := fld v (2 * u.val + 1) (2 * u.val)
              if b = 3 then i.streams[u] else { i.streams[u] with bind := BitVec.ofNat 2 b } }
  | 11 => { i with ops := match i.ops with
      | o :: l => { o with image := v } :: l
      | [] => [] }
  | 12 => { i with stopTick := v }
  | 13 => { i with ires := v }
  | 14 => { i with inbox := (List.range 64).filterMap fun k => if v.getLsbD k then some (k, (tget i.inbox k).getD {}) else none }
  | _ => i

/-- R430: write a dword of the queue region. -/
def Img.setQueueRegion (i : Img) (n : Nat) (v : DWord) : Img :=
  let setQ (k : Nat) (g : QReg → QReg) : Img := { i with qreg := i.qreg.setIfInBounds k (g (i.qreg.toArray.getD k {})) }
  if n < 2 then setQ n fun q => { q with cap := v, written := q.written || v != q.cap }
  else if n < 4 then setQ (n - 2) fun q =>
    { q with dir := BitVec.ofNat 2 (fld v 1 0), written := q.written || fld v 1 0 != q.dir.toNat }
  else if n < 12 then setQ ((n - 4) / 4) fun q => { q with buf := setAt q.buf ((n - 4) % 4) v }
  else if n = 12 then
    let a := i.qreg[0]; let b := i.qreg[1]
    { i with qreg := #v[{ a with buf := resize a.buf (min 4 (fld v 2 0)) }, { b with buf := resize b.buf (min 4 (fld v 10 8)) }] }
  else if n = 16 then { i with cuts := if fld v 21 16 = 0 then [] else { tile := fld v 3 0, row := fld v 13 8, left := fld v 21 16 } :: i.cuts.drop 1 }
  else if n = 17 then { i with q0 := resize i.q0 (min 16 v.toNat) }
  else if 18 ≤ n ∧ n < 34 then { i with q0 := setAt i.q0 (n - 18) v }
  else if 34 ≤ n ∧ n < 42 then { i with fifoL := setAt i.fifoL (n - 34) v }
  else if n = 42 then { i with fifoL := resize i.fifoL (min 8 v.toNat) }
  else if 43 ≤ n ∧ n < 51 then { i with fifoR := setAt i.fifoR (n - 43) v }
  else if n = 51 then { i with fifoR := resize i.fifoR (min 8 v.toNat) }
  else i

/-- A message with one dword replaced. -/
def Msg.setDword (g : Msg) (k : Nat) (v : DWord) : Msg :=
  if k = 0 then { g with hdr := v } else if k = 1 then { g with link := v } else { g with args := g.args.setIfInBounds (k - 2) v }

/-- A slot with one dword of its message replaced: the tag stands in header dword 0 (R66). -/
def InSlot.setDword (g : InSlot) (k : Nat) (v : DWord) : InSlot :=
  let m := g.msg.setDword k v
  { g with msg := m, tag := fld m.hdr 23 16 }

/-- Write the dword at an offset of a cage into the fields that stand there. -/
def Img.setCageField (i : Img) (off : Nat) (v : DWord) : Img :=
  let n := off / 8
  if off < 0x100 then i.setHeader n v
  else if off < 0x200 then (if n = 0x20 then i else { i with x := i.x.setIfInBounds (n - 0x20) v })
  else if off < 0x600 then
    let r := (n - 0x40) / 4
    { i with v := i.v.setIfInBounds r (setVDword (i.v.toArray.getD r 0) ((n - 0x40) % 4) v) }
  else if off < 0x640 then { i with k := i.k.setIfInBounds (n - 0xC0) (v.setWidth 32) }
  else if off = 0x640 then i.setFibre 0 { i.fibre 0 with pred := v.setWidth 8 }
  else if off = 0x648 then i.setFibre 0 { i.fibre 0 with tok := v.setWidth 16 }
  else if off < 0x680 then
    let l := (n - 0xCA) / 3
    match (n - 0xCA) % 3 with
    | 0 => { i with lb := i.lb.setIfInBounds l v }
    | 1 => { i with le := i.le.setIfInBounds l v }
    | _ => { i with lc := i.lc.setIfInBounds l v, rep := { i.rep with ends := i.rep.ends &&& ~~~(BitVec.ofNat 2 (2 ^ l)) } }
  else if off < 0x700 then i
  else if off < 0x900 then
    let r := (n - 0xE0) / 8
    { i with h := i.h.setIfInBounds r (setHdw (i.h.toArray.getD r 0) ((n - 0xE0) % 8) v) }
  else if off < 0xB00 then
    let u := (n - 0x120) / 16
    let t := i.streams.toArray.getD u {}
    let j := (n - 0x120) % 16
    let t := if j < 7 then { t with dw := t.dw.setIfInBounds j v }
      else if j = 7 then { t with pos := v.setWidth 48 } else { t with handle := setHdw t.handle (j - 8) v }
    { i with streams := i.streams.setIfInBounds u t }
  else if off < 0xB80 then
    let j := 2 * (n - 0x160)
    { i with rep := { i.rep with body :=
        (i.rep.body.setIfInBounds j (BitVec.ofNat 32 (fld v 31 0))).setIfInBounds (j + 1) (BitVec.ofNat 32 (fld v 63 32)) } }
  else if off = 0xB80 then
    { i with rep := { i.rep with act := v.getLsbD 63, len := BitVec.ofNat 5 (fld v 62 58), next := BitVec.ofNat 5 (fld v 57 53),
                                 left := BitVec.ofNat 17 (fld v 16 0) } }
  else if off = 0xB88 then { i with rep := { i.rep with repat := v } }
  else if off < 0xC00 then i
  else if off < 0x1000 then i.setQueueRegion (n - 0x180) v
  else if off < 0x1800 then { i with handlers := if v = 0 then tdel i.handlers (n - 0x200) else tset i.handlers (n - 0x200) v }
  else if off < 0x6800 then
    let e := (n - 0x300) / 10
    let f := i.fibre e
    match (n - 0x300) % 10 with
    | 0 => if e = 0 then i else i.setFibre e { f with pc := v }
    | 1 => i.setFibre e (if e = 0 then { f.setStatus v with fe := f.fe } else f.setStatus v)
    | k => if e = 0 then i else i.setFibre e { f with x := f.x.setIfInBounds (k - 2) v }
  else
    let m := (n - 0xD00) / 8
    let k := (n - 0xD00) % 8
    if m < 64 then
      match tget i.inbox m with
      | some g => { i with inbox := tset i.inbox m (g.setDword k v) }
      | none => i
    else match i.parked[m - 64]? with
      | some g => { i with parked := i.parked.set (m - 64) (g.setDword k v) }
      | none => i

/-- The dwords of a cage that a count or a mask in another dword makes part of the fields, or not: buffers (R430), messages (R428). -/
def countedDwords (off : Nat) : List Nat :=
  let from8 (a n : Nat) : List Nat := (List.range n).map fun k => a + 8 * k
  if off = 0x38 then from8 0x7800 512
  else if off = 0x70 then from8 0x6800 512
  else if off = 0xC60 then from8 0xC20 8
  else if off = 0xC88 then from8 0xC90 16
  else if off = 0xD50 then from8 0xD10 8
  else if off = 0xD98 then from8 0xD58 8
  else if off = 8 then [0x1800]
  else []

/-- A dword of a cage that is not loaded takes a value; one that the fields cannot hold is kept for the check of R433. -/
def State.putCage (s : State) (core ctx off : Nat) (v : DWord) : State :=
  let s := s.setImg core ctx ((s.img core ctx).setCageField off v)
  let i := s.img core ctx
  s.setImg core ctx { i with odd := if s.cageField core ctx off = v then tdel i.odd off else tset i.odd off v }

/-- Write a dword of a cage that is not loaded (R75, R433): the others stay as they are. -/
def State.setCage (s : State) (core ctx off : Nat) (v : DWord) : State :=
  let others := (countedDwords off).map fun o => (o, s.cageDword core ctx o)
  others.foldl (fun s o => s.putCage core ctx o.1 o.2) (s.putCage core ctx off v)

/-! ### The debug area (R389) -/

/-- The entry whose frozen state lets a write of a mirror offset take effect, and the bits that it writes (RW). -/
def mirrorRule (off : Nat) : Option (Nat × Nat) :=
  let all := 2 ^ 64 - 1
  if off < 0x100 then
    if off = 8 ∨ off = 0x30 then some (0, all)
    else if off = 0x18 ∨ off = 0x20 ∨ off = 0x28 then some (0, (~~~(sprReserved (off / 8 - 3))).toNat)
    else if off = 0x50 then some (0, 0xFF)
    else some (0, 0)
  else if off < 0x600 then some (0, all)
  else if off < 0x640 then some (0, 0xFFFFFFFF)
  else if off = 0x640 then some (0, 0xFF)
  else if off = 0x648 then some (0, 0xFFFF)
  else if off < 0x680 then some (0, all)
  else if off < 0x700 then none
  else if off < 0x900 then some (0, all)
  else if off < 0xB00 then some (0, if (off / 8) % 16 = 0 then 0xF10F0F else if (off / 8) % 16 < 7 then all else 0)
  else if off < 0xB80 then some (0, all)
  else if off = 0xB80 then some (0, 2 ^ 63 + 31 * 2 ^ 53 + 0x1FFFF)
  else if off = 0xB88 then some (0, 0)
  else if off < 0x1800 then none
  else if off < 0x6800 then
    let e := (off / 8 - 0x300) / 10
    let k := (off / 8 - 0x300) % 10
    some (e, if k = 1 then 3 * 2 ^ 59 + (if e = 0 then 0 else 0xFF * 2 ^ 48) + 0xFFFFFFFF * 2 ^ 16 + 15
             else if e = 0 ∧ k ≠ 0 then 0 else all)
  else none

/-- R389: SEL names a live context whose node holds the core, and the issuer is that context or an ancestor of it. -/
def State.debugView (s : State) (core issuer : Nat) : Option Nat :=
  match s.named ((s.core core).sel.setWidth 64) with
  | some c => if s.nodeHas (s.ctx c) core && (s.upFrom c).contains issuer then some c else none
  | none => none

/-- A core of a debug area's offset in an overman's window. -/
def debugCore (quad off : Nat) : Nat × Nat :=
  let a := off - 0x400000
  (quad * 144 + a / 0x10000, a % 0x10000)

/-- R384, R388, R389: what a load of a dword of an overman's window returns. -/
def State.overmanLoad (s : State) (issuer quad off : Nat) : DWord :=
  if off < 0x8000 then (match tget s.ctxs (off / 8) with | some c => c.accept | none => 0)
  else
    let (core, o) := debugCore quad off
    let c := s.core core
    let view := s.debugView core issuer
    if o < 0x8800 then (match view with | some n => s.cageDword core n o | none => 0)
    else if o = 0x8800 then c.sel.setWidth 64
    else if o = 0x8810 then
      let live := match s.named (c.sel.setWidth 64) with
        | some n => c.res == some n
        | none => false
      dw (b2n c.refused * 4 + b2n view.isSome * 2 + b2n live)
    else 0

/-- R389, R431: a write of the mirror; one that leaves no execution of a replay ends it. -/
def State.mirrorWrite (s : State) (issuer core o : Nat) (v : DWord) : State :=
  let refuse (b : Bool) : State := s.setCore core { s.core core with refused := b }
  match s.debugView core issuer with
  | none => refuse true
  | some n =>
    match mirrorRule o with
    | none => refuse true
    | some (e, mask) =>
      if mask = 0 || ((s.img core n).fibre e).st != .frozen then refuse true
      else
        let old := (s.cageDword core n o).toNat
        let new := (v.toNat &&& mask) ||| (old - (old &&& mask))
        let s := refuse false
        let o := if o = 0x1800 then 8 else o
        let new := if o = 0x30 then dw new ||| 1 else dw new
        let s := if (s.core core).res = some n then s.setImg core n ((s.img core n).setCageField o new) else s.putCage core n o new
        if o = 0xB80 ∧ (s.img core n).rep.left = 0#17 then
          let i := s.img core n
          s.setImg core n { i with rep := { i.rep with act := false }, odd := tdel i.odd o }
        else if o = 8 then
          let i := s.img core n
          s.setImg core n { i with odd := tdel i.odd 0x1800 }
        else s

end Sys2Proof.Machine
end

