-- ==== Sys2Proof/Machine/Integer.lean ====
section
/-! DEFINITION. Integer operations, immediates, `lea`, compares, predicates and selection (R187 to R196). -/
namespace Sys2Proof.Machine

/-! ### The results of R187 and R188 -/

/-- R188: an operand read as signed in the width of the form. -/
def sOp (w : Bool) (a : DWord) : Int := if w then (a.setWidth 32).toInt else a.toInt
/-- R188: an operand read as unsigned in the width of the form. -/
def uOp (w : Bool) (a : DWord) : Nat := if w then a.toNat % 2 ^ 32 else a.toNat
/-- R188: the result, narrowed to the width of the form and sign-extended. -/
def resOp (w : Bool) (v : Int) : DWord := if w then (BitVec.ofInt 32 v).signExtend 64 else BitVec.ofInt 64 v
/-- R187: a shift amount, modulo the width. -/
def shAmt (w : Bool) (b : DWord) : Nat := b.toNat % (if w then 32 else 64)
/-- R187: a sum clamped to the signed range. -/
def clamp64 (v : Int) : Int := min (max v (-(2 : Int) ^ 63)) ((2 : Int) ^ 63 - 1)

def addVal (w : Bool) (a b : DWord) : DWord := resOp w (sOp w a + sOp w b)
def subVal (w : Bool) (a b : DWord) : DWord := resOp w (sOp w a - sOp w b)
def mulVal (w : Bool) (a b : DWord) : DWord := resOp w (sOp w a * sOp w b)
def mulhVal (a b : DWord) : DWord := BitVec.ofInt 64 (a.toInt * b.toInt / 2 ^ 64)
def mulhuVal (a b : DWord) : DWord := BitVec.ofNat 64 (a.toNat * b.toNat / 2 ^ 64)
def divVal (w : Bool) (a b : DWord) : DWord := resOp w (if sOp w b = 0 then -1 else (sOp w a).tdiv (sOp w b))
def divuVal (w : Bool) (a b : DWord) : DWord := resOp w (if uOp w b = 0 then -1 else ((uOp w a / uOp w b : Nat) : Int))
def remVal (w : Bool) (a b : DWord) : DWord := resOp w (if sOp w b = 0 then sOp w a else (sOp w a).tmod (sOp w b))
def remuVal (w : Bool) (a b : DWord) : DWord := resOp w (if uOp w b = 0 then uOp w a else (uOp w a % uOp w b : Nat))
def shlVal (w : Bool) (a : DWord) (n : Nat) : DWord := resOp w ((uOp w a * 2 ^ n : Nat) : Int)
def shrVal (w : Bool) (a : DWord) (n : Nat) : DWord := resOp w ((uOp w a / 2 ^ n : Nat) : Int)
def sraVal (w : Bool) (a : DWord) (n : Nat) : DWord := resOp w (sOp w a / 2 ^ n)
def minVal (a b : DWord) : DWord := if b.toInt < a.toInt then b else a
def maxVal (a b : DWord) : DWord := if a.toInt < b.toInt then b else a
def minuVal (a b : DWord) : DWord := if b.toNat < a.toNat then b else a
def maxuVal (a b : DWord) : DWord := if a.toNat < b.toNat then b else a
def addsVal (a b : DWord) : DWord := BitVec.ofInt 64 (clamp64 (a.toInt + b.toInt))
def subsVal (a b : DWord) : DWord := BitVec.ofInt 64 (clamp64 (a.toInt - b.toInt))
def clzVal (a : DWord) : DWord := if a = 0#64 then 64#64 else BitVec.ofNat 64 (63 - a.toNat.log2)
def ctzVal (a : DWord) : DWord := BitVec.ofNat 64 ((lowest 64 fun i => a.getLsbD i).getD 64)
def popcVal (a : DWord) : DWord := BitVec.ofNat 64 (ones a.toNat 64).length

/-! ### The shape that they share -/

/-- Read two x sources, write one x destination. -/
def alu2 (rd : Reg) (ra rb : Src) (f : DWord → DWord → DWord) (s : State) : Res := do
  s.ready [.dx rd, .x ra, .x rb]
  .ok (s.writeX rd (f (s.xVal ra.r) (s.xVal rb.r)), .fall)

/-- Read one x source, write one x destination. -/
def alu1 (rd : Reg) (ra : Src) (f : DWord → DWord) (s : State) : Res := do
  s.ready [.dx rd, .x ra]
  .ok (s.writeX rd (f (s.xVal ra.r)), .fall)

def effAdd (rd : Reg) (ra rb : Src) (w : Bool) : State → Res := alu2 rd ra rb (addVal w)
def effSub (rd : Reg) (ra rb : Src) (w : Bool) : State → Res := alu2 rd ra rb (subVal w)
def effMul (rd : Reg) (ra rb : Src) (w : Bool) : State → Res := alu2 rd ra rb (mulVal w)
def effMulh (rd : Reg) (ra rb : Src) : State → Res := alu2 rd ra rb mulhVal
def effMulhu (rd : Reg) (ra rb : Src) : State → Res := alu2 rd ra rb mulhuVal
def effDiv (rd : Reg) (ra rb : Src) (w : Bool) : State → Res := alu2 rd ra rb (divVal w)
def effDivu (rd : Reg) (ra rb : Src) (w : Bool) : State → Res := alu2 rd ra rb (divuVal w)
def effRem (rd : Reg) (ra rb : Src) (w : Bool) : State → Res := alu2 rd ra rb (remVal w)
def effRemu (rd : Reg) (ra rb : Src) (w : Bool) : State → Res := alu2 rd ra rb (remuVal w)
def effAnd (rd : Reg) (ra rb : Src) : State → Res := alu2 rd ra rb fun a b => a &&& b
def effOr (rd : Reg) (ra rb : Src) : State → Res := alu2 rd ra rb fun a b => a ||| b
def effXor (rd : Reg) (ra rb : Src) : State → Res := alu2 rd ra rb fun a b => a ^^^ b
def effShl (rd : Reg) (ra rb : Src) (w : Bool) : State → Res := alu2 rd ra rb fun a b => shlVal w a (shAmt w b)
def effShr (rd : Reg) (ra rb : Src) (w : Bool) : State → Res := alu2 rd ra rb fun a b => shrVal w a (shAmt w b)
def effSra (rd : Reg) (ra rb : Src) (w : Bool) : State → Res := alu2 rd ra rb fun a b => sraVal w a (shAmt w b)
def effMin (rd : Reg) (ra rb : Src) : State → Res := alu2 rd ra rb minVal
def effMax (rd : Reg) (ra rb : Src) : State → Res := alu2 rd ra rb maxVal
def effMinu (rd : Reg) (ra rb : Src) : State → Res := alu2 rd ra rb minuVal
def effMaxu (rd : Reg) (ra rb : Src) : State → Res := alu2 rd ra rb maxuVal
def effAdds (rd : Reg) (ra rb : Src) : State → Res := alu2 rd ra rb addsVal
def effSubs (rd : Reg) (ra rb : Src) : State → Res := alu2 rd ra rb subsVal
def effClz (rd : Reg) (ra : Src) : State → Res := alu1 rd ra clzVal
def effCtz (rd : Reg) (ra : Src) : State → Res := alu1 rd ra ctzVal
def effPopc (rd : Reg) (ra : Src) : State → Res := alu1 rd ra popcVal

/-! ### Immediates (R189 to R191) -/

def effAddi (rd : Reg) (ra : Src) (imm : BitVec 13) : State → Res := alu1 rd ra fun a => a + imm.signExtend 64
def effAndi (rd : Reg) (ra : Src) (imm : BitVec 13) : State → Res := alu1 rd ra fun a => a &&& imm.signExtend 64
def effOri (rd : Reg) (ra : Src) (imm : BitVec 13) : State → Res := alu1 rd ra fun a => a ||| imm.signExtend 64
def effXori (rd : Reg) (ra : Src) (imm : BitVec 13) : State → Res := alu1 rd ra fun a => a ^^^ imm.signExtend 64
def effShli (rd : Reg) (ra : Src) (w : Bool) (n : BitVec 6) : State → Res := alu1 rd ra fun a => shlVal w a n.toNat
def effShri (rd : Reg) (ra : Src) (w : Bool) (n : BitVec 6) : State → Res := alu1 rd ra fun a => shrVal w a n.toNat
def effSrai (rd : Reg) (ra : Src) (w : Bool) (n : BitVec 6) : State → Res := alu1 rd ra fun a => sraVal w a n.toNat

/-- R191: the immediate at its place. -/
def immAt (q : BitVec 2) (imm : BitVec 16) : DWord := imm.setWidth 64 <<< (16 * q.toNat)

def effLi (rd : Reg) (q : BitVec 2) (imm : BitVec 16) (s : State) : Res := do
  s.ready [.dx rd]
  .ok (s.writeX rd (immAt q imm), .fall)

/-- R191: `lik` reads its destination in block mode. -/
def effLik (rd : Reg) (q : BitVec 2) (imm : BitVec 16) : State → Res :=
  alu1 rd ⟨rd, false⟩ fun old => (old &&& ~~~(immAt q 0xFFFF#16)) ||| immAt q imm

/-! ### Effective addresses (R166, R192) -/

/-- R166: the effective address of a memory operand. -/
def State.ea (s : State) (m : MemOp) (size : Nat) : DWord :=
  match m with
  | .disp b d => s.xVal b.r + BitVec.ofInt 64 (d.toInt * size)
  | .index b i sh => s.xVal b.r + s.xVal i.r * BitVec.ofNat 64 (if sh then size else 1)

/-- The sources of a memory operand, in field order. -/
def memOps (m : MemOp) : List Opnd := m.srcs.map Opnd.x

def effLea (rt : Reg) (m : MemOp) (s : State) : Res := do
  s.ready (.dx rt :: memOps m)
  .ok (s.writeX rt (s.ea m 1), .fall)

/-! ### Predicates and selection (R193 to R196) -/

/-- R193: the condition c. -/
def cmpHolds (c : CmpCond) (a b : DWord) : Bool :=
  match c with
  | .eq => a == b
  | .ne => a != b
  | .lt => decide (a.toInt < b.toInt)
  | .ge => decide (b.toInt ≤ a.toInt)
  | .ltu => decide (a.toNat < b.toNat)
  | .geu => decide (b.toNat ≤ a.toNat)
  | .tst => a &&& b != 0
  | .ntst => a &&& b == 0

/-- R193: the combine modes. -/
def combine (cb : Combine) (old c : Bool) : Bool :=
  match cb with
  | .set => c
  | .and => old && c
  | .or => old || c

def effCmp (pd : BitVec 3) (c : CmpCond) (cb : Combine) (ra rb : Src) (s : State) : Res := do
  s.ready [.x ra, .x rb]
  .ok (s.writeP pd (combine cb (s.pred pd.toNat) (cmpHolds c (s.xVal ra.r) (s.xVal rb.r))), .fall)

def effCmpi (pd : BitVec 3) (c : CmpCond) (ra : Src) (imm : BitVec 9) (s : State) : Res := do
  s.ready [.x ra]
  .ok (s.writeP pd (cmpHolds c (s.xVal ra.r) (imm.signExtend 64)), .fall)

/-- R195: a predicate operation. -/
def plogic (pd : BitVec 3) (v : State → Bool) (s : State) : Res := .ok (s.writeP pd (v s), .fall)

def effPand (pd : BitVec 3) (pa pb : BitVec 4) : State → Res := plogic pd fun s => s.pred pa.toNat && s.pred pb.toNat
def effPor (pd : BitVec 3) (pa pb : BitVec 4) : State → Res := plogic pd fun s => s.pred pa.toNat || s.pred pb.toNat
def effPxor (pd : BitVec 3) (pa pb : BitVec 4) : State → Res := plogic pd fun s => s.pred pa.toNat != s.pred pb.toNat
def effPandn (pd : BitVec 3) (pa pb : BitVec 4) : State → Res := plogic pd fun s => s.pred pa.toNat && !s.pred pb.toNat
def effPnot (pd : BitVec 3) (pa : BitVec 4) : State → Res := plogic pd fun s => !s.pred pa.toNat
def effPset (pd : BitVec 3) : State → Res := plogic pd fun _ => true
def effPclr (pd : BitVec 3) : State → Res := plogic pd fun _ => false

def effPrd (rd : Reg) (s : State) : Res := do
  s.ready [.dx rd]
  .ok (s.writeX rd (dw s.preds), .fall)

def effPwr (ra : Src) (s : State) : Res := do
  s.ready [.x ra]
  .ok (s.setMyFibre { s.myFibre with pred := (s.xVal ra.r).setWidth 8 }, .fall)

/-- R196: both sources are read; the predicate, inverted for `cseln`, selects. -/
def select (rd : Reg) (pn : BitVec 4) (ra rb : Src) (inv : Bool) (s : State) : Res := do
  s.ready [.dx rd, .x ra, .x rb]
  .ok (s.writeX rd (if s.pred pn.toNat != inv then s.xVal ra.r else s.xVal rb.r), .fall)

def effCsel (rd : Reg) (pn : BitVec 4) (ra rb : Src) : State → Res := select rd pn ra rb false
def effCseln (rd : Reg) (pn : BitVec 4) (ra rb : Src) : State → Res := select rd pn ra rb true

end Sys2Proof.Machine
end

