-- ==== Sys2Proof/Machine/Order.lean ====
section
/-! DEFINITION. How accesses are made and ordered: places of targets, what holds an access back (R105, R112, R119, R120,
R124, R126, R230), the performing of stores and atomics at the agent that holds the location (R111, R118), loads and the
fibre that waits for them (R63, R64, R223). -/
namespace Sys2Proof.Machine

/-! ### Places and overlap -/

/-- A flat number for the first byte of a target. -/
def Target.flat : Target → Nat
  | .mem a => a
  | .host p a => hostPlace p a
  | .vreg core off => 2 ^ 56 + core * 1024 + off
  | .inbox core off => 2 ^ 57 + core * 4096 + off
  | .sem cl i => 2 ^ 58 + (cl * 16 + i) * 8
  | .overman q off => 2 ^ 59 + q * 2 ^ 24 + off
  | .peer pkg off => 2 ^ 60 + pkg * 2 ^ 44 + off

/-- The bytes a store covers. -/
def StoreOp.size : StoreOp → Nat
  | .bytes b => b.length
  | .scat _ t _ _ _ _ => t.width / 8
  | .init _ _ => 16

/-- Two accesses are made by one fibre. -/
def Who.same (a b : Who) : Bool := a == b
/-- Two accesses are made by fibres of one context on one core. -/
def Who.sameCore (a b : Who) : Bool := a.core == b.core && a.ctx == b.ctx

/-- What a round trip accesses, and how many bytes of each. -/
def Flight.spans (f : Flight) : List (Target × Nat) :=
  match f.job with
  | .load t n _ => [(t, n)]
  | .gather ts n => ts.map fun t => (t.2, n)
  | .amo t _ _ => [(t, 8)]
  | .cas t _ _ => [(t, 8)]
  | _ => []

/-- The targets of a round trip's packet. -/
def Flight.targets (f : Flight) : List Target := f.spans.map Prod.fst

/-- A target in the scratchpad of a core's own cluster. -/
def Target.ownSpad (core : Nat) : Target → Bool
  | .mem a => match spadOf a with
    | some (cl, _) => cl == clOf core
    | none => false
  | _ => false

/-- R118: a target at a paged address: memory with a home, or a host's. -/
def Target.paged : Target → Bool
  | .host _ _ => true
  | t => t.homed

/-! ### Scopes (R110, R131, R457) -/

/-- The sc code of a scope (R165). -/
def scopeNum : Scope → Nat
  | .core => 0 | .cl => 1 | .qd => 2 | .di => 3 | .pk => 4 | .sy => 5

/-- R131: a scope under a context's cap. -/
def State.capped (s : State) (ctx : Nat) (sc : Scope) : Scope := scopeCode (min (scopeNum sc) (s.ctx ctx).scap.toNat)

/-- R457: the record that a demotion leaves in the context. -/
def State.demote (s : State) (ctx : Nat) (sc : Scope) : State :=
  let c := s.ctx ctx
  if c.scap.toNat < (scopeNum sc) ∧ c.demoted.toNat < (scopeNum sc) then s.setCtx ctx { c with demoted := BitVec.ofNat 3 (scopeNum sc) } else s

/-- R110: the joint scope of two cores. -/
def jointScope (a b : Nat) : Scope :=
  if a = b then .core else if clOf a = clOf b then .cl else if quadOf a = quadOf b then .qd
  else if dieOfCore a = dieOfCore b then .di else .pk

/-- R110: the joint scope of a core and a cluster's structures. -/
def jointCl (core cl : Nat) : Scope :=
  if clOf core = cl then .cl else if clOf core / 16 = cl / 16 then .qd else if clOf core / 64 = cl / 64 then .di else .pk

/-! ### The accesses of matrix requests (R126, R105) -/

/-- The address ranges of 64 rows of `k` elements of a handle, from its origins: the elements of each row, and its scale bytes
(R294, R301, R307). -/
def blockRanges (h : HWord) (k : Nat) : List (DWord × Nat) :=
  let v := hview h
  let e0 := v.ext 0
  let w := v.etype.width
  let (start, n) : (Nat → Nat) × Nat :=
    if v.kind 0 = 2 then (fun r => (r * (e0 / 48) + v.o0 / 48) * v.n, k / 48 * v.n) else (fun r => v.o0 + e0 * r, k)
  (List.range 64).flatMap fun i =>
    let r := v.o1 + i
    (v.values + dw (start r * w / 8), n * w / 8) ::
      (if blockScaled v.etype then [(v.aux0 + dw (r * (e0 / 48) + v.o0 / 48), k / 48)] else [])

/-- The places of a block in a cluster's scratchpad. -/
def blockPlaces (cl : Nat) (h : HWord) (k : Nat) : List (Nat × Nat) :=
  (blockRanges h k).map fun r => let lo := spadPlace cl (r.1.toNat % 2 ^ 24); (lo, lo + r.2)

/-- A range of tiles. -/
def tilesOf (cl t n : Nat) : Nat × Nat := (accPlace cl (t * 0x4000), accPlace cl ((t + n) * 0x4000))

/-- The places a request reads, and those it writes. -/
def MReq.reads (cl : Nat) (r : MReq) : List (Nat × Nat) :=
  match r.op with
  | .product c a src b k =>
    tilesOf cl c 1 :: blockPlaces cl b k ++
      (match a with | some h => blockPlaces cl h k | none => [tilesOf cl src ((k + 63) / 64)])
  | .zero _ => []
  | .read t _ _ _ => [tilesOf cl t 1]
  | .down t _ w => [tilesOf cl t ((w + 63) / 64)]

def MReq.writes (cl : Nat) (r : MReq) : List (Nat × Nat) :=
  match r.op with
  | .product c _ _ _ _ => [tilesOf cl c 1]
  | .zero t => [tilesOf cl t 1]
  | .read _ _ _ _ => []
  | .down _ d w => blockPlaces cl d w

/-- Some range meets [a, a + n). -/
def meets (rs : List (Nat × Nat)) (a n : Nat) : Bool := rs.any fun r => overlap r.1 (r.2 - r.1) a n

/-- R105, R112, R126: an access waits for a matrix request: one of its own fibre made before it, or, for a store into a
tile, one that is running. -/
def State.matrixHolds (s : State) (who : Who) (id : Nat) (t : Target) (n : Nat) (isStore : Bool) : Bool :=
  match t with
  | .mem a =>
    let cl := match spadOf a, accOf a with
      | some (cl, _), _ => some cl
      | none, some (cl, _) => some cl
      | none, none => none
    match cl with
    | none => false
    | some cl => (s.cluster cl).mreqs.any fun r =>
        let own := r.who.same who && decide (r.id < id)
        let mine := own && (meets (r.writes cl) a n || meets (r.reads cl) a n)
        let busy := isStore && r.running && (accOf a).isSome && (meets (r.writes cl) a n || meets (r.reads cl) a n)
        mine || busy
  | _ => false

/-! ### What holds an access back -/

/-- R123, R124: the 128-byte lines that n bytes of memory touch, as a first byte and a length; elsewhere the bytes themselves. -/
def Target.lines (t : Target) (n : Nat) : Nat × Nat :=
  match t with
  | .mem a => (a / 128 * 128, (a + n + 127) / 128 * 128 - a / 128 * 128)
  | t => (t.flat, n)

/-- The lines of two accesses meet. -/
def linesMeet (t : Target) (n : Nat) (u : Target) (m : Nat) : Bool := overlap (t.lines n).1 (t.lines n).2 (u.lines m).1 (u.lines m).2

/-- R124: a copy that issued before an access owns a line that the access touches, and has not written it. -/
def State.lineOwned (s : State) (id : Nat) (t : Target) (n : Nat) : Bool :=
  s.copies.any fun p => decide (p.1 < id) && p.2.lines.any fun l => !l.done && linesMeet l.dst l.len t n

/-- R108, R111, R277: a store of the same core, or an element pushed, made before the access and not yet performed, overlaps it. -/
def State.ownStoreBefore (s : State) (who : Who) (ord id : Nat) (t : Target) (n : Nat) : Bool :=
  (s.stores.any fun p => !p.2.granted && decide (p.2.ord < ord ∨ (p.2.ord = ord ∧ p.1 < id)) && p.2.who.sameCore who &&
    overlap p.2.t.flat p.2.op.size t.flat n) ||
  (s.img who.core who.ctx).streams.toArray.any fun u => u.push.any fun e =>
    decide (e.tag < ord) && e.items.any fun x => overlap x.2.flat (e.width / 8) t.flat n

/-- An update of a fill word that reaches its cluster is not yet applied (R233). -/
def State.fillPending (s : State) (t : Target) (n : Nat) : Bool :=
  match t with
  | .mem a => match spadOf a with
    | some (cl, off) => (s.cluster cl).fills.any fun f => overlap f.off 16 off n
    | none => false
  | _ => false

/-- A read must wait. -/
def State.readHeld (s : State) (who : Who) (id : Nat) (t : Target) (n : Nat) : Bool :=
  s.lineOwned id t n || s.ownStoreBefore who id id t n || s.matrixHolds who id t n false || s.fillPending t n

/-- R113, R120, R132 to R134, R229: a store that has issued is performed with respect to a scope. A store leaves the table
when its completion reaches the core. -/
def PStore.done (p : PStore) (sc : Scope) : Bool :=
  match sc with
  | .core => true
  | .cl | .qd | .di => match p.t with
    | .host _ _ | .peer _ _ => true
    | _ => p.granted
  | .pk => match p.t with
    | .peer _ _ => true
    | _ => false
  | .sy => false

/-- A fibre's pushed elements, made before an access, that have not left as stores (R229, R274). -/
def State.pushesBefore (s : State) (who : Who) (id : Nat) : Bool :=
  who.entry == 0 && (s.img who.core who.ctx).streams.toArray.any fun t => t.push.any fun e => decide (e.tag < id)

/-- R126: the writes of every `accdc` that a fibre made before an access are performed. -/
def State.downsDone (s : State) (who : Who) (id : Nat) : Bool :=
  !(s.cluster (clOf who.core)).mreqs.any fun r => r.who.same who && decide (r.id < id) && (match r.op with | .down _ _ _ => true | _ => false)

/-- Every store a fibre made before an access is performed at a scope. -/
def State.storesDone (s : State) (who : Who) (id : Nat) (sc : Scope) : Bool :=
  sc == .core || (!s.pushesBefore who id && s.downsDone who id && s.stores.all fun p => !(p.2.who.same who && decide (p.2.ord < id)) || p.2.done sc)

/-- R118: a store is performed as `.ga`. -/
def asGa (md : StMode) (rel : Option Scope) : Bool :=
  md == .ga || rel == some .pk || rel == some .sy

/-- R126: every matrix request that a fibre made before an access has finished. -/
def State.matrixDone (s : State) (who : Who) (id : Nat) : Bool :=
  !(s.cluster (clOf who.core)).mreqs.any fun r => r.who.same who && decide (r.id < id)

/-- R230: what a fibre's `fence.w` before an access orders before it is performed. -/
def State.barsKept (s : State) (who : Who) (id : Nat) : Bool :=
  s.wbars.all fun b => !(b.who.same who && decide (b.id ≤ id)) || s.storesDone who b.id b.sc

/-- R114: the hosts have the multi-copy atomic stores that a fibre has read before an access at a scope. -/
def State.seenDone (s : State) (who : Who) (id : Nat) (sc : Scope) : Bool :=
  sc != .sy || s.stores.all fun p => !(p.2.stale.contains hostDie && p.2.obs.any fun o => o.1.same who && decide (o.2 < id))

/-- R112, R114, R119, R230: the order that an access with a release must keep to the fibre's earlier stores. -/
def State.orderKept (s : State) (who : Who) (id : Nat) (ga : Bool) (rel : Option Scope) : Bool :=
  (match rel with | some sc => s.storesDone who id sc && s.matrixDone who id && s.seenDone who id sc | none => true) &&
  (!ga || s.storesDone who id .pk) && s.barsKept who id

/-- R112: a round trip of a fibre, made before an access, has yet to read or write what the access touches. -/
def State.ownFlightBefore (s : State) (who : Who) (ord : Nat) (t : Target) (n : Nat) : Bool :=
  s.flights.any fun p => decide (p.1 < ord) && p.2.who.same who && p.2.spans.any fun x => overlap x.1.flat x.2 t.flat n

/-! ### Links (R351, R461 to R465) -/

/-- The links that carry flits now. -/
def PLink.carries (l : PLink) : Bool := l.state == 2 || l.state == 3 || l.state == 4

/-- R462: how many flits a replay buffer holds. -/
def replayRoom : Nat := 512

/-- R462, R463: a packet comes to a link: it is sent when the link carries flits and its replay buffer has room (DESIGN CHOICE, log 17: one flit
for each packet). -/
def PLink.offer (l : PLink) (pkt : Nat) : PLink :=
  { l with buffer := l.buffer ++ [{ seq := l.txSeq, pkt := pkt, out := l.carries }], txSeq := l.txSeq + 1 }

/-- A packet is on its way: no agent has performed or accepted it. -/
def State.underWay (s : State) (pkt : Nat) : Bool :=
  (tget s.stores pkt).any (fun p => !p.granted) || (tget s.flights pkt).isSome || (tget s.msgs pkt).any fun m => m.waitTill.isNone

/-- R462: the packets that wait at a link, in order: those after the first 512 wait for room. What a die's link has brought to its end is acknowledged
with it (DESIGN CHOICE, log 17). -/
def State.dieFlits (s : State) (l : PLink) : List HeldFlit := l.buffer.filter fun f => s.underWay f.pkt

/-- A packet has left a link. -/
def sentOn (pkt : Nat) (fs : List HeldFlit) : Bool :=
  (fs.take replayRoom).all (fun f => f.pkt != pkt || f.out) && (fs.drop replayRoom).all fun f => f.pkt != pkt

/-- R461 to R463: no link keeps a packet back for a retrain or for room in its replay buffer. -/
def State.linkPassed (s : State) (pkt : Nat) : Bool :=
  s.ports.all (fun p => sentOn pkt p.2.link.buffer) && s.die.all fun d => d.2.link.failed || sentOn pkt (s.dieFlits d.2.link)

/-- R351, R461, R465: the port is up: a retrain takes no port out of a route mask, unless it has gone down. -/
def State.portUp (s : State) (p : Nat) : Bool :=
  let l := (s.port p).link
  l.state == 2 || l.state == 3 || (l.state == 1 && !l.failed)

/-- R351, R465: the port that leads to a package, by an index taken over the ports of its mask that are up. -/
def State.peerPort (s : State) (pkg key : Nat) : Option Nat :=
  let m := (tget s.routes pkg).getD 0
  let up := (List.range 128).filter fun p => m.getLsbD p && s.portUp p
  up[key % up.length]?

/-- R351: the port that a push leaves on. -/
def State.targetPort (s : State) : Target → Option Nat
  | .peer pkg off => s.peerPort pkg (off / 4096)
  | _ => none

/-- The die that an access comes to: none outside the dies. -/
def State.targetDie (s : State) (ctx : Nat) : Target → Option Nat
  | .mem a =>
    if isHomed a then some (s.homeCh ctx a / 64)
    else match spadOf a, accOf a with
      | some x, _ => some (x.1 / 64)
      | none, some x => some (x.1 / 64)
      | none, none => none
  | .vreg core _ => some (dieOfCore core)
  | .inbox core _ => some (dieOfCore core)
  | .sem cl _ => some (cl / 64)
  | .overman quad _ => some (quad / 4)
  | .peer _ _ => none
  | .host _ _ => none

/-- R461: the link that a packet of a core leaves on for a die: that of its own die for another die, or for a host. -/
def dieLinkFor (core : Nat) (die : Option Nat) : Option LinkName := if die = some (dieOfCore core) then none else some (.die (dieOfCore core))

/-- R351, R461: the link that an access leaves on: its port for a peer. -/
def State.linkFor (s : State) (who : Who) (port : Option Nat) (t : Target) : Option LinkName :=
  match port, t with
  | some p, _ => some (.port p)
  | none, .peer _ _ => none
  | none, t => dieLinkFor who.core (s.targetDie who.ctx t)

/-- R462: a packet is put on a link. -/
def State.sendFlit (s : State) (n : Option LinkName) (pkt : Nat) : State :=
  match n with
  | none => s
  | some (.port p) => let k := s.port p; s.setPort p { k with link := k.link.offer pkt }
  | some (.die d) =>
    let k := s.dieOf d
    s.setDie d { k with link := { k.link with buffer := (s.dieFlits k.link).filter fun f => f.pkt != pkt }.offer pkt }

/-- A store must wait to be performed. -/
def State.storeHeld (s : State) (id : Nat) (p : PStore) : Bool :=
  s.lineOwned p.ord p.t p.op.size || s.ownFlightBefore p.who p.ord p.t p.op.size || s.ownStoreBefore p.who p.ord id p.t p.op.size || s.matrixHolds p.who p.ord p.t p.op.size true ||
  !s.orderKept p.who p.ord (asGa p.md p.rel && p.t.paged) p.rel || !s.linkPassed id

/-! ### Cages in a scratchpad (R51, R75) -/

/-- The worker cores of a context on a cluster, in slot order (DEDUCED, log 48). -/
def State.cageCores (s : State) (c : Ctx) (cl : Nat) : List Nat := (s.ctxCoresOn c cl).filter fun k => slotOf k != 8

/-- R219: the cages of a Saved context and of its descendants are freed. -/
def State.cageFreed (s : State) (n : Nat) : Bool := (s.upFrom n).any fun m => (s.ctx m).st == .saved

/-- The cage of a context that is not resident, at an offset of a cluster's scratchpad: its core, context, and the offset in
the cage. -/
def State.cageAt (s : State) (cl off : Nat) : Option (Nat × Nat × Nat) :=
  s.ctxs.findSome? fun p =>
    let c := p.2
    let base := c.cageoff.toNat * 128
    if c.st = .revoked ∨ !nodeTouches c cl ∨ off < base ∨ s.cageFreed p.1 then none
    else
      match (s.cageCores c cl)[(off - base) / 0x8800]? with
      | some core => if (s.core core).res = some p.1 then none else some (core, p.1, (off - base) % 0x8800)
      | none => none

/-- A byte of a cage. -/
def State.cageByte (s : State) (core ctx off : Nat) : Byte :=
  BitVec.ofNat 8 (lane (s.cageDword core ctx (off / 8 * 8)).toNat 8 (off % 8))

/-- Write a byte of a cage. -/
def State.setCageByte (s : State) (core ctx off : Nat) (b : Byte) : State :=
  let o := off / 8 * 8
  let old := (s.cageDword core ctx o).toNat
  let k := off % 8
  s.setCage core ctx o (dw (old - lane old 8 k * 2 ^ (8 * k) + b.toNat * 2 ^ (8 * k)))

/-- A byte at a place, as the agents of a die read it, cages included. -/
def State.readByte (s : State) (die : Option Nat) (a : Nat) : Byte :=
  match spadOf a with
  | some (cl, off) => match s.cageAt cl off with
    | some (core, ctx, o) => s.cageByte core ctx o
    | none => s.byte a
  | none => s.byteFor die a

/-- Bytes at rising places. -/
def State.readBytes (s : State) (die : Option Nat) (a n : Nat) : Bytes := (List.range n).map fun i => s.readByte die (a + i)

/-! ### Releases and acquires (R114 to R117) -/

/-- Where releases meet acquires, beside the flat numbers of targets: a fill word's place; a message, by its order of acceptance; the
queue registers of a context's core; a semaphore; an element of a queue. -/
def fillKey (a : Nat) : Nat := 2 ^ 61 + a
def msgKey (order : Nat) : Nat := 2 ^ 62 + order
def qregKey (core ctx q : Nat) : Nat := 2 ^ 63 + imgKey core ctx * 8 + q
def semKey (cl i : Nat) : Nat := 2 ^ 64 + cl * 16 + i
def elemKey (qid : Nat) (q : Queue) (i : Nat) : Nat := 2 ^ 65 + qid * 2 ^ 40 + i % 2 ^ q.cap

/-- The stores that a fibre's release of a given number publishes, among those that some die has not taken: those that it made before,
and those that it has acquired (R116). -/
def State.published (s : State) (who : Who) (id : Nat) : List Nat :=
  (s.stores.filter fun p => p.2.granted && p.2.t.homed && !p.2.stale.isEmpty &&
    ((p.2.who.same who && decide (p.2.ord < id)) || p.2.hb.contains who)).map Prod.fst

/-- The releases that publish something yet. -/
def State.relsLive (s : State) : List Rel := s.rels.filter fun r => r.stores.any fun n => (tget s.stores n).isSome

/-- R115, R117: a fibre's release of a given number is performed at a key. `since`: the grant that it is; `pos`: its place in a queue. -/
def State.publishAt (s : State) (who : Who) (id key len : Nat) (sc : Scope) (since : Nat) (pos : Nat := 0) : State :=
  let ws := s.published who id
  if ws.isEmpty || sc == .core then s
  else { s with rels := s.relsLive ++ [{ key := key, len := len, core := who.core, sc := sc, since := since, pos := pos, stores := ws }] }

/-- R115: bytes of a location are written, by no read-modify-write: what was released there is no longer read. -/
def State.overwritten (s : State) (a n : Nat) : State :=
  if s.rels.isEmpty then s
  else { s with rels := s.rels.map fun r => if r.upTo.isNone && overlap r.key r.len a n then { r with upTo := some s.fresh } else r }

/-- R116: a store that has been published to a fibre: its die takes it, and the fibre publishes it in its turn. -/
def State.takes (s : State) (who : Who) (id : Nat) : State :=
  match tget s.stores id with
  | some p =>
    let s := s.landLine (some (dieOfCore who.core)) p.t.place (p.gord + 1)
    { s with stores := s.stores.map fun q => if q.1 = id ∧ !q.2.hb.contains who then (q.1, { q.2 with hb := q.2.hb ++ [who] }) else q }
  | none => s

/-- R110, R115: a release and an acquire by a fibre at a scope are each in the other's scope. -/
def Rel.reaches (r : Rel) (who : Who) (sc : Scope) : Bool :=
  r.sc == .sy && sc == .sy || decide (scopeNum (jointScope r.core who.core) ≤ min (scopeNum r.sc) (scopeNum sc))

/-- R115: a fibre's acquire at a key. `at'`: the grant before which the value that it has read was overwritten, if its die reads an old one. -/
def State.acquireAt (s : State) (who : Who) (key len : Nat) (sc : Scope) (at' : Option Nat) : State :=
  let hit (r : Rel) : Bool := overlap r.key r.len key len && r.reaches who sc && match at' with
    | some t => decide (r.since < t) && r.upTo.all fun u => decide (t ≤ u)
    | none => r.upTo.isNone
  ((s.rels.filter hit).flatMap Rel.stores).foldl (fun s n => s.takes who n) s

/-- R117: a fibre acquires with the first n elements of a queue register, which leave it. -/
def State.acquireFirst (s : State) (who : Who) (key n : Nat) (sc : Scope) : State :=
  let s := ((s.rels.filter fun r => r.key == key && decide (r.pos < n) && r.reaches who sc).flatMap Rel.stores).foldl (fun s n => s.takes who n) s
  { s with rels := s.rels.filterMap fun r => if r.key ≠ key then some r else if r.pos + r.len ≤ n then none
                                             else some { r with pos := r.pos - n, len := r.pos + r.len - max n r.pos } }

/-- R117: what was published at one key is met at another. -/
def State.moveRels (s : State) (key key' pos' : Nat) : State :=
  if s.rels.isEmpty then s else { s with rels := s.rels.map fun r => if r.key = key then { r with key := key', pos := pos' } else r }

/-- What was published at a key is met no more. -/
def State.endRels (s : State) (key : Nat) : State := if s.rels.isEmpty then s else { s with rels := s.rels.filter fun r => r.key != key }

/-- R120: the grant before which the value that a die reads at a place was overwritten, if it reads an old one. -/
def State.readsAt (s : State) (die a : Nat) : Option Nat := (staleStore s die a).map PStore.gord

/-- R114: a fibre reads bytes of a store that the hosts do not have yet. -/
def State.noteRead (s : State) (who : Who) (id : Nat) (t : Target) (n : Nat) : State :=
  if t.homed && s.stores.any fun p => p.2.granted && p.2.stale.contains hostDie && overlap p.2.t.flat p.2.op.size t.flat n then
    { s with stores := s.stores.map fun p =>
        if p.2.granted && p.2.stale.contains hostDie && asGa p.2.md p.2.rel && overlap p.2.t.flat p.2.op.size t.flat n then
          (p.1, { p.2 with obs := p.2.obs ++ [(who, id)] }) else p }
  else s

/-- R114, R115: a fibre has read bytes, with an acquire or without. -/
def State.hasRead (s : State) (who : Who) (id : Nat) (t : Target) (n : Nat) (acq : Option Scope) : State :=
  let s := s.noteRead who id t n
  match acq with
  | some sc => s.acquireAt who t.flat n sc (if t.homed then s.readsAt (dieOfCore who.core) t.flat else none)
  | none => s

/-- R115: a fibre has written bytes, with a release or without. -/
def State.hasReleased (s : State) (who : Who) (id : Nat) (t : Target) (n : Nat) (rel : Option Scope) (since : Nat) : State :=
  match rel with
  | some sc => s.publishAt who id t.flat n sc since
  | none => s

/-! ### Fill words in use (R233, R458; DEDUCED, log 12) -/

/-- The fill word of a place: cluster and offset. -/
def fillOf (a : Nat) : Nat × Nat := ((spadOf a).getD (0, 0))

/-- The generation of the fill word at a place. -/
def State.fillGen (s : State) (a : Nat) : Nat := ofBytes (s.getBytes (a + 12) 4)

/-- Something reaches a fill word in this cycle (R233). -/
def Cluster.addFill (c : Cluster) (off bytes arrivals : Nat) (touched : Bool) (cores : List Nat) : Cluster :=
  if c.fills.any fun f => f.off == off then
    { c with fills := c.fills.map fun f => if f.off = off then
        { f with bytes := f.bytes + bytes, arrivals := f.arrivals + arrivals, touched := f.touched || touched, cores := f.cores ++ cores } else f }
  else { c with fills := c.fills ++ [{ off := off, bytes := bytes, arrivals := arrivals, touched := touched, cores := cores }] }

def State.addFill (s : State) (cl off bytes arrivals : Nat) (touched : Bool := false) (cores : List Nat := []) : State :=
  s.setCluster cl ((s.cluster cl).addFill off bytes arrivals touched cores)

/-- A syncinit, a counted byte or an arrival of a context reaches a fill word, which is in use from then on (DEDUCED, log 12). -/
def State.useWord (s : State) (ctx cl off : Nat) : State :=
  let c := s.cluster cl
  let w := ((s.ctxid ctx).toNat, off)
  if c.words.contains w then s else s.setCluster cl { c with words := c.words ++ [w] }

/-- Counted bytes or an arrival of a context reach a fill word. -/
def State.countFill (s : State) (ctx cl off bytes arrivals : Nat) (cores : List Nat := []) : State :=
  (s.useWord ctx cl off).addFill cl off bytes arrivals false cores

/-- R117: an arrival of a fibre at the fill word of a place publishes to those who observe the word. A scope cap below the joint scope of
the two leaves it without that (R131). -/
def State.publish (s : State) (who : Who) (id a : Nat) : State :=
  let j := jointCl who.core (fillOf a).1
  if s.capped who.ctx j = j then s.publishAt who id (fillKey a) 1 .sy s.fresh else s

/-- R117: a fibre observes the fill word of a place. -/
def State.observe (s : State) (who : Who) (a : Nat) : State :=
  let j := jointCl who.core (fillOf a).1
  if s.capped who.ctx j = j then s.acquireAt who (fillKey a) 1 .sy none else s

/-- A fibre waits on the fill word at a place. -/
def Fibre.waitsOn (f : Fibre) (a : Nat) : Bool :=
  match f.cond with
  | .fill b _ => b == a
  | .fills b m _ => decide (b ≤ a ∧ a < b + 128) && m.getLsbD ((a - b) / 16)
  | _ => false

/-- R458: a fill word in use by a context that writes it (DEDUCED, log 12): a syncinit, a byte or an arrival has reached it, or is on its
way, or a fibre waits on it. -/
def State.fillInUse (s : State) (ctx cl off : Nat) : Bool :=
  let a := spadPlace cl off
  (s.cluster cl).words.contains ((s.ctxid ctx).toNat, off) ||
  (s.cluster cl).fills.any (fun f => f.off == off) || (s.cluster cl).advanced.contains off ||
  s.stores.any (fun p => match p.2.op with | .init _ _ => p.2.t == .mem a && !p.2.granted | _ => false) ||
  s.copies.any (fun p => p.2.fill == some off && p.2.lines.any fun l => !l.done &&
    (match l.dst with | .mem d => (spadOf d).any (fun x => x.1 == cl) | _ => false)) ||
  s.flights.any (fun p => match p.2.job with | .arrive b => b == a | _ => false) ||
  s.imgs.any (fun p => p.2.rq.any fun q => q.2.waitsOn a)

/-- R458: a software write to fill words in use is an update of each. -/
def State.touchFills (s : State) (ctx a n : Nat) : State :=
  match spadOf a with
  | none => s
  | some (cl, off) =>
    ((List.range (n / 16 + 2)).map fun i => (off / 16 + i) * 16).foldl (fun s o =>
      if overlap o 16 off n && s.fillInUse ctx cl o then s.addFill cl o 0 0 true else s) s

/-! ### Reading and writing a target -/

/-- R102, R430: a dword of an inbox slot. -/
def State.inboxDword (s : State) (core ctx off : Nat) : DWord := s.cageDword core ctx (0x6800 + off / 8 * 8)

/-- R275: a v register is bound to a stream. -/
def Img.vBound (i : Img) (r : Nat) : Bool := decide (r < 4) && (i.streams.toArray.getD r {}).bind != 0#2

/-- Read n bytes of a target, for an access of a fibre. -/
def State.readTarget (s : State) (w : Who) (t : Target) (n : Nat) : Bytes :=
  let sub (v : DWord) (off : Nat) : Bytes := ((toBytes 8 v.toNat).drop (off % 8)).take n
  match t with
  | .mem a => s.clear w.ctx a (s.readBytes (some (dieOfCore w.core)) a n)
  | .host p a => s.readBytes none (hostPlace p a) n
  | .vreg core off =>
    let i := s.img core w.ctx
    (List.range n).map fun k => if i.vBound ((off + k) / 32) then 0 else BitVec.ofNat 8 (lane (i.v.toArray.getD ((off + k) / 32) 0).toNat 8 ((off + k) % 32))
  | .inbox core off => sub (s.inboxDword core w.ctx off) off
  | .sem cl i => sub (dw ((s.cluster cl).hs.toArray.getD i 0).toNat) 0
  | .overman q off => sub (s.overmanLoad w.ctx q off) 0
  | .peer _ _ => toBytes n 0

/-- A dword of a number read from a target. -/
def State.readNum (s : State) (w : Who) (t : Target) (n : Nat) : Nat := ofBytes (s.readTarget w t n)

/-- R104, R275: write bytes into v registers of a context's core, and set their full bits; a bound register discards them. -/
def Img.writeWindow (i : Img) (off : Nat) (bs : Bytes) : Img :=
  let v := (bs.zipIdx).foldl (fun (v : Vector VWord 32) (b : Byte × Nat) =>
    let a := off + b.2
    if i.vBound (a / 32) then v else
    let old := v.toArray.getD (a / 32) 0
    v.setIfInBounds (a / 32) (BitVec.ofNat 256 (old.toNat - lane old.toNat 8 (a % 32) * 2 ^ (8 * (a % 32)) +
      b.1.toNat * 2 ^ (8 * (a % 32))))) i.v
  let i := { i with v := v }
  (List.range 32).foldl (fun (i : Img) r => if overlap (32 * r) 32 off bs.length && !i.vBound r then i.setVfull r true else i) i

/-- R104: set a semaphore's count. -/
def State.setSem (s : State) (cl i v : Nat) : State :=
  let c := s.cluster cl
  s.setCluster cl { c with hs := c.hs.setIfInBounds i (BitVec.ofNat 16 v) }

/-- Write bytes at places, cages included. -/
def State.writeBytes (s : State) (a : Nat) (bs : Bytes) : State :=
  match spadOf a with
  | none => s.putBytes a bs
  | some (cl, off) =>
    if (s.cageAt cl off).isNone && (s.cageAt cl (off + (bs.length - 1))).isNone then s.putBytes a bs
    else (bs.zipIdx).foldl (fun s (b : Byte × Nat) =>
      match s.cageAt cl (off + b.2) with
      | some (core, ctx, o) => s.setCageByte core ctx o b.1
      | none => s.putBytes (a + b.2) [b.1]) s

/-- Write bytes of a target, for an access of a context. -/
def State.writeTarget (s : State) (ctx : Nat) (t : Target) (bs : Bytes) : State :=
  match t with
  | .mem a => (((s.rekey ctx a bs.length).overwritten a bs.length).writeBytes a bs).touchFills ctx a bs.length
  | .host p a => s.putBytes (hostPlace p a) bs
  | .vreg core off => s.setImg core ctx ((s.img core ctx).writeWindow off bs)
  | .sem cl i => s.setSem cl i (ofBytes bs % 2 ^ 16)
  | .inbox _ _ | .overman _ _ | .peer _ _ => s

/-! ### Atomics (R227, R228, R299) -/

/-- R227: the new value. -/
def amoNew (op : AmoOp) (old v : DWord) : DWord :=
  match op with
  | .add => old + v
  | .and => old &&& v
  | .or => old ||| v
  | .xor => old ^^^ v
  | .min => if v.toInt < old.toInt then v else old
  | .max => if old.toInt < v.toInt then v else old
  | .minu => if v.toNat < old.toNat then v else old
  | .maxu => if old.toNat < v.toNat then v else old
  | .swap => v

/-- R104, R227: the new value of an `amo` on a target: a semaphore saturates. -/
def amoAt (t : Target) (op : AmoOp) (old v : DWord) : DWord :=
  match t with
  | .sem _ _ => dw (min 65535 (old.toNat + v.toNat % 2 ^ 16))
  | _ => amoNew op old v

/-- An indivisible read-modify-write of n bytes, performed as `.ga` (R118): the old value and the state. -/
def State.rmw (s : State) (w : Who) (t : Target) (n : Nat) (f : Nat → Option Nat) : Nat × State :=
  let s := if t.homed then { s.seenBy true none t.flat with fresh := s.fresh + 1 } else s
  let old := s.readNum w t n
  (old, match f old with
    | some new => { s.writeTarget w.ctx t (toBytes n new) with rels := s.rels }
    | none => s)

/-! ### Issuing stores -/

/-- The bytes that a store at a grant leaves on the dies that have not taken its invalidation. -/
def State.oldCells (s : State) (a n : Nat) : List Host.Cell := (List.range n).map fun i => (a + i, s.byte (a + i))

/-- R225: a store of the issuing fibre issues. To its own cluster's scratchpad it is performed in that cycle unless something
holds it (R63); any other waits for the agent that holds the location. -/
def State.issueStoreAs (s : State) (who : Who) (t : Target) (op : StoreOp) (md : StMode) (rel : Option Scope) (dva : DWord)
    (pc : DWord) (word : Word) (ord : Nat) : State :=
  let id := s.fresh
  let p : PStore := { who := who, t := t, op := op, md := md, rel := rel, ord := ord, sentTick := s.tick, pc := pc, word := word,
                      dva := dva, port := s.targetPort t, adm := s.lookups }
  let s := { s with fresh := id + 1 }
  let sent := { s with stores := tset s.stores id p }.sendFlit (s.linkFor who p.port t) id
  match op with
  | .bytes bs => if t.ownSpad who.core && !s.storeHeld id p then (s.writeTarget who.ctx t bs).hasReleased who ord t bs.length rel id else sent
  | _ => sent

def State.issueStore (s : State) (t : Target) (op : StoreOp) (md : StMode) (rel : Option Scope) (dva : DWord) : State :=
  s.issueStoreAs s.who t op md rel dva s.unit.pc s.unit.word s.fresh

/-- The address of a peer target (R78). -/
def Target.peerDva : Target → DWord
  | .peer pkg off => dw (2 ^ 54 + pkg * 2 ^ 44 + off)
  | _ => 0

/-- R274: a pushed element that has its value becomes stores of its items, in item order, at its place in program order. -/
def State.storeElem (s : State) (who : Who) (e : PushElem) : State :=
  match e.val with
  | none => s
  | some v => e.items.foldl (fun s x =>
      { { s with lookups := e.adm }.issueStoreAs who x.2 (.bytes (toBytes (e.width / 8) (lane v.toNat e.width x.1))) e.md none x.2.peerDva
          e.pc e.word e.tag with lookups := s.lookups }) s

/-- The primary of a context's core. -/
def State.primaryWho (s : State) (core ctx : Nat) : Who :=
  { core := core, ctx := ctx, gen := (s.ctx ctx).gen, entry := 0, uid := ((s.img core ctx).fibre 0).uid }

/-- A pair of a context's primary may yet be undone (R403). -/
def State.undoing (s : State) (core ctx : Nat) : Bool :=
  s.flights.any fun p => p.2.who.core == core && p.2.who.ctx == ctx && p.2.undo.isSome

/-- The leading elements of a unit that have their values leave as stores. -/
def State.flushUnit (s : State) (core ctx u : Nat) : State :=
  if s.undoing core ctx then s else
  let i := s.img core ctx
  let t := i.streams.toArray.getD u {}
  let go := t.push.takeWhile fun e => e.val.isSome
  let s1 := s.setImg core ctx { i with streams := i.streams.setIfInBounds u { t with push := t.push.drop go.length } }
  go.foldl (fun s e => s.storeElem (s.primaryWho core ctx) e) s1

/-- R206, R73: a primary's pushes become stores. -/
def State.flushPushes (s : State) (core ctx : Nat) : State := [0, 1, 2, 3].foldl (fun s u => s.flushUnit core ctx u) s

/-! ### Round trips (R63, R64, R223) -/

/-- The element that a pop has taken, on its way to its register (R64): not a round trip. -/
def Flight.isPop (f : Flight) : Bool :=
  match f.job with
  | .value _ => true
  | _ => false

/-- The reply slots of a core in use (R334). -/
def State.slotsUsed (s : State) (core : Nat) : Nat := (s.flights.filter fun p => p.2.who.core == core && !p.2.isPop).length

/-- R334: a request finds a free reply slot. -/
def State.slotFree (s : State) : Except Stop Unit :=
  if s.slotsUsed s.unit.core < 32 then .ok () else .error .hold

/-- The register number that a waiting fibre's wop names (R63, R223, R296). -/
def Dst.wop : Dst → Nat
  | .none => 0
  | .x r => r.toNat
  | .v r _ _ => r.toNat
  | .h r => r.toNat
  | .xp r _ => r.toNat

/-- A destination marked empty (R64); h registers have no full bits (R296), and a push goes to a stream. -/
def State.markEmpty (s : State) (d : Dst) : State :=
  match d with
  | .x r => s.emptyX r
  | .xp r _ => s.emptyX r
  | .v r _ none => s.setMe (s.me.setVfull r.toNat false)
  | _ => s

/-- R63, R223: a round trip starts: its destination is empty and the fibre is swapped out until the answer lands. -/
def State.swapOut (s : State) (d : Dst) (job : Job) (rel : Option Scope := none) (dva : DWord := 0) (acq : Option Scope := none) : State :=
  let id := s.fresh
  let f : Flight := { who := s.who, dst := d, job := job, rel := rel, acq := acq, pc := s.unit.pc, word := s.unit.word, other := s.unit.other,
                      wh := s.unit.wh, lc := s.me.lc, dva := dva, adm := s.lookups,
                      port := match job with
                        | .amo t _ _ => s.targetPort t
                        | .cas t _ _ => s.targetPort t
                        | _ => none }
  let ends := f.targets ++ match job with
    | .arrive a => [.mem a]
    | _ => []
  let s := ends.foldl (fun s t => s.sendFlit (s.linkFor f.who f.port t) id) { s with flights := tset s.flights id f, fresh := id + 1 }
  let s := s.markEmpty d
  s.setMyFibre { s.myFibre.waiting 1 d.wop .none with boost := s.myFibre.boost }

/-- R64, R250: a pop marks its destination empty; its element arrives in a later cycle, the fibre going on meanwhile. -/
def State.popInto (s : State) (d : Dst) (v : VWord) : State :=
  let f : Flight := { who := s.who, dst := d, job := .value v, pc := s.unit.pc, word := s.unit.word, other := s.unit.other,
                      wh := s.unit.wh, lc := s.me.lc }
  { s with flights := tset s.flights s.fresh f, fresh := s.fresh + 1 }.markEmpty d

/-! ### Loads and stores of the families -/

/-- R224: the extended value. -/
def extend (size : Nat) (signed : Bool) (v : Nat) : DWord := if signed then sext (dw v) (8 * size) else zext (dw v) (8 * size)

/-- R131: the effective acquire or release scope of an sc field, and the record of its demotion. -/
def State.scope (s : State) (sc : Scope) : State × Option Scope :=
  if sc = .core then (s, none) else (s.demote s.unit.ctx sc, some (s.capped s.unit.ctx sc))

/-- The checks of an access to an address: alignment, then R440. -/
def State.access (s : State) (k : AccKind) (a : DWord) (size : Nat) : Except Stop (State × Target) := do
  guardC (a.toNat % size == 0) .align a (dw size)
  chk k.code (s.resolve s.unit.core s.unit.ctx k a size)

/-- R224: a scalar load (DEDUCED, log 4). -/
def loadX (rt : Reg) (m : MemOp) (sc : Scope) (size : Nat) (signed : Bool) (s : State) : Res := do
  let os := .dx rt :: memOps m
  s.enter os
  let (s', t) ← s.access .load (s.ea m size) size
  s.settle os
  let (s', acq) := s'.scope sc
  if t.ownSpad s.unit.core then
    if s'.readHeld s.who s.fresh t size then .error .hold
    else .ok ((s'.hasRead s.who s.fresh t size acq).writeX rt (extend size signed (s'.readNum s.who t size)), .fall)
  else
    s.slotFree
    .ok (s'.swapOut (.x rt) (.load t size signed) none (s.ea m size) acq, .fall)

/-- R225: a scalar store. -/
def storeX (m : MemOp) (rt : Src) (sc : Scope) (md : StMode) (size : Nat) (s : State) : Res := do
  let os := .x rt :: memOps m
  s.enterFor (memOps m) os
  let a := s.ea m size
  let (s', t) ← s.access .store a size
  s.settle os
  let (s', rel) := s'.scope sc
  .ok (s'.issueStore t (.bytes (toBytes size (s.xVal rt.r).toNat)) md rel a, .fall)

def effLdB (rt : Reg) (m : MemOp) (sc : Scope) : State → Res := loadX rt m sc 1 true
def effLdBu (rt : Reg) (m : MemOp) (sc : Scope) : State → Res := loadX rt m sc 1 false
def effLdH (rt : Reg) (m : MemOp) (sc : Scope) : State → Res := loadX rt m sc 2 true
def effLdHu (rt : Reg) (m : MemOp) (sc : Scope) : State → Res := loadX rt m sc 2 false
def effLdW (rt : Reg) (m : MemOp) (sc : Scope) : State → Res := loadX rt m sc 4 true
def effLdWu (rt : Reg) (m : MemOp) (sc : Scope) : State → Res := loadX rt m sc 4 false
def effLdD (rt : Reg) (m : MemOp) (sc : Scope) : State → Res := loadX rt m sc 8 false
def effStB (m : MemOp) (rt : Src) (sc : Scope) (md : StMode) : State → Res := storeX m rt sc md 1
def effStH (m : MemOp) (rt : Src) (sc : Scope) (md : StMode) : State → Res := storeX m rt sc md 2
def effStW (m : MemOp) (rt : Src) (sc : Scope) (md : StMode) : State → Res := storeX m rt sc md 4
def effStD (m : MemOp) (rt : Src) (sc : Scope) (md : StMode) : State → Res := storeX m rt sc md 8

/-- R226: `ldv` reads its 32 bytes at one moment (DESIGN CHOICE, log 89) and writes its v register, or pushes the value to the stream that the register is bound to. -/
def effLdv (rt : Reg) (m : MemOp) (sc : Scope) (s : State) : Res := do
  let os := .dv rt :: memOps m
  s.enter os
  let (s', t) ← s.access .vload (s.ea m 32) 32
  match s.me.boundTo rt with
  | some st =>
    let (s', acq) := s'.scope sc
    if t.ownSpad s.unit.core then
      let val := BitVec.ofNat 256 (s'.readNum s.who t 32)
      let (_, s') ← guardedAfter s' ((s'.hasRead s.who s.fresh t 32 acq).pushV rt st (some val) (2 ^ 32 - 1))
      s.settle os
      if s.readHeld s.who s.fresh t 32 then .error .hold else .ok (s', .fall)
    else
      let (tag, s') ← guardedAfter s' (s'.pushV rt st none (2 ^ 32 - 1))
      s.settle os
      s.slotFree
      .ok (s'.swapOut (.v rt (2 ^ 32 - 1) (some (rt.toNat, tag))) (.load t 32 false) none (s.ea m 32) acq, .fall)
  | none =>
    s.settle os
    let (s', acq) := s'.scope sc
    if t.ownSpad s.unit.core then
      if s.readHeld s.who s.fresh t 32 then .error .hold
      else ((s'.hasRead s.who s.fresh t 32 acq).writeV rt (BitVec.ofNat 256 (s'.readNum s.who t 32)) 8 (2 ^ 32 - 1)).map fun x => (x, .fall)
    else
      s.slotFree
      .ok (s'.swapOut (.v rt (2 ^ 32 - 1) none) (.load t 32 false) none (s.ea m 32) acq, .fall)

/-- R226: `stv` reads its v register, or pops the stream that the register is bound to. -/
def effStv (m : MemOp) (rt : Src) (sc : Scope) (md : StMode) (s : State) : Res := do
  let os := .v rt :: memOps m
  s.enterFor (memOps m) os
  let a := s.ea m 32
  let (s', t) ← s.access .vstore a 32
  s.settle os
  let (s', rel) := s'.scope sc
  let v := s.vVal rt.r 0
  .ok ((s'.popV rt.r 1).issueStore t (.bytes (toBytes 32 v.toNat)) md rel a, .fall)

/-- R227, R228: what an atomic leaves at its location, from the old value; none leaves it. -/
def atomicAt (s : State) (w : Who) (t : Target) (job : Job) : DWord × State :=
  match job with
  | .amo _ op v =>
    let r := s.rmw w t 8 fun old => some (amoAt t op (dw old) v).toNat
    (dw r.1, r.2)
  | .cas _ exp v =>
    let r := s.rmw w t 8 fun old => if dw old = exp then some v.toNat else none
    (dw r.1, r.2)
  | _ => (0, s)

/-- An atomic of the issuing fibre, with its operands read. -/
def atomic (rd : Reg) (a : DWord) (sc : Scope) (add : Bool) (job : Target → Job) (os : List Opnd) (s : State) : Res := do
  let (s', t) ← s.access (.amo add) a 8
  s.settle os
  let (s', rel) := s'.scope sc
  if t.ownSpad s.unit.core then
    if s.readHeld s.who s.fresh t 8 || s.matrixHolds s.who s.fresh t 8 true || !s.orderKept s.who s.fresh true rel then .error .hold
    else
      let (old, s2) := atomicAt s' s.who t (job t)
      .ok (((s2.hasRead s.who s.fresh t 8 rel).hasReleased s.who s.fresh t 8 rel s'.fresh).writeX rd old, .fall)
  else
    s.slotFree
    .ok (s'.swapOut (.x rd) (job t) rel a rel, .fall)

def effAmo (op : AmoOp) (rd : Reg) (ra rb : Src) (sc : Scope) (s : State) : Res := do
  let os := [.dx rd, .x ra, .x rb]
  s.enterFor [.x ra] os
  atomic rd (s.xVal ra.r) sc (op == .add) (fun t => .amo t op (s.xVal rb.r)) os s

/-- R228: rd is the expected value, read in block mode. -/
def effCas (rd : Reg) (ra rb : Src) (sc : Scope) (s : State) : Res := do
  let os := [.x ⟨rd, false⟩, .x ra, .x rb]
  s.enterFor [.x ra] os
  atomic rd (s.xVal ra.r) sc false (fun t => .cas t (s.xVal rd) (s.xVal rb.r)) os s

/-! ### Fences (R229, R230) and prefetches (R253) -/

/-- R229: every access of a fibre is performed at a scope. -/
def State.fenceDone (s : State) (who : Who) (sc : Scope) : Bool :=
  sc == .core ||
  (s.storesDone who s.fresh sc && s.seenDone who s.fresh sc &&
   !s.flights.any (fun p => p.2.who.same who && !p.2.isPop) && s.matrixDone who s.fresh)

def effFence (sc : Scope) (s : State) : Res :=
  let e := s.capped s.unit.ctx sc
  if s.fenceDone s.who e then .ok (s.demote s.unit.ctx sc, .fall)
  else .error (.wait 7 (scopeNum e) (.fence e))

/-- The barriers that still hold some store back. -/
def State.pruneBars (s : State) : State :=
  { s with wbars := s.wbars.filter fun b => !s.storesDone b.who b.id b.sc }

def effFenceW (sc : Scope) (s : State) : Res :=
  let e := s.capped s.unit.ctx sc
  let b : WBar := { who := s.who, id := s.fresh, sc := e }
  let s' := { s.demote s.unit.ctx sc with wbars := s.wbars ++ [b], fresh := s.fresh + 1 }
  .ok (s'.pruneBars, .fall)

end Sys2Proof.Machine
end

