-- ==== Sys2Proof/Machine/Launch.lean ====
section
/-! DEFINITION. What ends with a fibre: crews and their completion (R56, R319, R392), and the arrivals of dispatchers at fill
words. -/
namespace Sys2Proof.Machine

/-- A store that a dispatcher makes under a context, as `.ga` (R319): none when an address check fails (R392). -/
def State.dispStore (s : State) (ctx : Nat) (dva : DWord) (v : DWord) : Option State :=
  match classify dva with
  | .paged =>
    match s.translated ctx none dva AccKind.store.right true with
    | .ok (s, t, _) =>
      let s := if t.homed then { s.seenBy true none t.flat with fresh := s.fresh + 1 } else s
      some (s.writeTarget ctx t (toBytes 8 v.toNat))
    | .error _ => none
  | _ => none

/-- R319: an arrival at a completion fill word, as a `syncarr` would: none when the address fails R232 for the context. -/
def State.dispArrive (s : State) (ctx : Nat) (done : DWord) : Option State :=
  match classify done with
  | .onchip _ _ =>
    match s.fillWord 0 ctx done 1 with
    | .ok (cl, off) => some (s.countFill ctx cl off 0 1)
    | .error _ => none
  | _ => none

/-- R392: a LAUNCH packet of a quadrant's dispatcher. -/
def State.launchPacket (s : State) (quad ctx : Nat) (addr extra : DWord) : State :=
  s.sendPacket { core := quad * 144, ctx := ctx, entry := 0, lid := overmanLid quad, source := 1 } .launch addr extra (s.upFrom ctx)

/-- R317: dword 7 of a record. -/
def statusWordOf (tick base code : Nat) : DWord := dw (tick % 2 ^ 32 * 2 ^ 32 + base % 2 ^ 12 * 2 ^ 16 + code)

/-- R124: a copy owns the line of the status of a record. -/
def State.statusOwned (s : State) (x : LateStatus) : Bool :=
  match classify (x.addr + 56) with
  | .paged => match s.translated x.ctx none (x.addr + 56) AccKind.store.right true with
    | .ok (s, t, _) => s.lineOwned s.fresh t 8
    | .error _ => false
  | _ => false

/-- R319: a status write of a record, then its arrival; one that fails its checks sends a packet (R392). -/
def State.putStatus (s : State) (x : LateStatus) : State :=
  let tell (s : State) : State := if x.tells then s.launchPacket x.quad x.ctx x.addr x.addr else s
  let s := (s.dispStore x.ctx (x.addr + 56) x.word).getD (tell s)
  if x.done = 0 then s else (s.dispArrive x.ctx x.done).getD (tell s)

/-- R319, R124: the same, once no copy owns its line, and after what waits already. -/
def State.status (s : State) (x : LateStatus) : State :=
  if s.statusOwned x || s.late.any fun y => y.ctx == x.ctx && y.addr == x.addr then { s with late := s.late ++ [x] } else s.putStatus x

/-- R319: a status write of a record under its owner, with the arrival at its fill word or without. -/
def State.writeStatus (s : State) (l : Launch) (code : Nat) (arrive : Bool := false) : State :=
  s.status { ctx := l.ctx, addr := l.addr, word := statusWordOf s.tick (l.placed.getD 0) code, done := if arrive then l.done else 0, quad := l.quad }

/-- R124: the status writes of a quadrant's dispatcher that wait for no copy are made. -/
def State.lateReady (s : State) (quad : Nat) : List LateStatus := s.late.filter fun x => x.quad == quad && !s.statusOwned x
def State.putLate (s : State) (quad : Nat) : State :=
  (s.lateReady quad).foldl (fun s x => s.putStatus x) { s with late := s.late.filter fun x => !(s.lateReady quad).contains x }

/-- R56: a fibre that counts for a crew has ended; the last one completes the crew. -/
def State.crewLess (s : State) (id : Nat) : State :=
  match tget s.launches id with
  | some l =>
    if 1 < l.live then { s with launches := tset s.launches id { l with live := l.live - 1 } }
    else { s with launches := tdel s.launches id }.writeStatus l 2 true
  | none => s

/-- A fibre counts for a crew. -/
def State.crewMore (s : State) (id : Nat) : State :=
  match tget s.launches id with
  | some l => { s with launches := tset s.launches id { l with live := l.live + 1 } }
  | none => s

/-- R61: an entry becomes free. -/
def State.freeEntry (s : State) (core ctx entry : Nat) : State :=
  let i := s.img core ctx
  let f := i.fibre entry
  let s := s.setImg core ctx { i with rq := tdel i.rq entry, parkings := i.parkings.filter fun p => p.entry != entry }
  match f.crew with
  | some id => s.crewLess id
  | none => s

end Sys2Proof.Machine
end

