-- ==== Sys2Proof/Machine/Message.lean ====
section
/-! DEFINITION. Active messages: inbox, handler table, acceptance, replies and their links, completion notices (R239 to R247,
R66, R67, R424, R445), and the end of a fibre, which may owe a reply (R206). -/
namespace Sys2Proof.Machine

/-! ### The inbox and the handler table (R244, R245) -/

/-- R245: an entry of the handler table. -/
def Img.handler (i : Img) (tag : Nat) : DWord := (tget i.handlers tag).getD 0
def Img.setHandler (i : Img) (tag : Nat) (v : DWord) : Img :=
  { i with handlers := if v = 0 then tdel i.handlers tag else tset i.handlers tag v }

def hPend (e : DWord) : Bool := e.getLsbD 60
def hEn (e : DWord) : Bool := e.getLsbD 59
def hPrim (e : DWord) : Bool := e.getLsbD 58
def hLevel (e : DWord) : BitVec 2 := BitVec.ofNat 2 (fld e 57 56)
/-- R245: the handler's PC. -/
def hPc (e : DWord) : DWord := dw (fld e 55 2 * 4)

/-- R244: a free inbox slot: the lowest that is neither taken nor reserved (DESIGN CHOICE, log 108). -/
def Img.freeSlot (i : Img) : Option Nat := lowest 64 fun k => (tget i.inbox k).isNone && !i.ires.getLsbD k

def Img.reserve (i : Img) (k : Nat) : Img := { i with ires := i.ires ||| dw (2 ^ k) }
def Img.unreserve (i : Img) (k : Nat) : Img := { i with ires := i.ires &&& ~~~(dw (2 ^ k)) }

/-- R245: messages held for a tag, and for all disabled tags: every slot that holds one counts, those of replies and those left held by a
`tagctl.ld` too (DESIGN CHOICE, log 108). -/
def Img.heldFor (i : Img) (tag : Nat) : Nat := (i.inbox.filter fun p => p.2.route == .held && p.2.tag == tag).length
def Img.heldAll (i : Img) : Nat := (i.inbox.filter fun p => p.2.route == .held).length

/-- R244: where a message for an enabled tag goes. -/
def routeOf (e : DWord) : Route := if !hEn e then .held else if hPrim e then .q1 else .handler

/-- R246: a message takes its way by the entry of its tag as it stands: what comes of the entry later is nothing to it. -/
def Img.routed (i : Img) (m : InSlot) : InSlot := { m with route := routeOf (i.handler m.tag), entry := i.handler m.tag }

/-- R245: the messages held for a tag are delivered. -/
def Img.deliverHeld (i : Img) (tag : Nat) : Img :=
  { i with inbox := i.inbox.map fun p => if p.2.route == .held && p.2.tag == tag then (p.1, i.routed p.2) else p }

/-- R74, R69: a message joins the parked buffer, or what a Saved context is kept until it is loaded. -/
def Img.park (i : Img) (saved : Bool) (m : InSlot) : Img :=
  if saved then { i with kept := i.kept ++ [m] } else { i with parked := i.parked ++ [m] }

/-- R242, R244, R245, R74, R77: a message reaches a context's core; the outcome code, and the state if it is accepted. -/
def State.acceptMsg (s : State) (core ctx : Nat) (m : Msg) (die : Bool) (link : Option Nat) : Nat × State :=
  let i := s.img core ctx
  let tag := fld m.hdr 23 16
  let e := i.handler tag
  let slot (r : Route) : InSlot := { msg := m, tag := tag, route := r, order := s.fresh, die := die, link := link, entry := e }
  let put (k : Nat) (r : Route) : Nat × State :=
    (0, { s.setImg core ctx { i with inbox := tset i.inbox k (slot r) } with fresh := s.fresh + 1 })
  if (s.core core).res = some ctx then
    if !i.parked.isEmpty then (1, s)
    else match i.freeSlot with
      | none => (1, s)
      | some k =>
        if hEn e then put k (routeOf e)
        else if !hPend e || 8 ≤ i.heldFor tag || 32 ≤ i.heldAll then (2, s)
        else put k .held
  else if ((i.parked ++ i.kept).filter fun p => p.slot.isNone).length < 64 then
    (0, { s.setImg core ctx (i.park ((s.ctx ctx).st == .saved) (slot .held)) with fresh := s.fresh + 1 })
  else (3, s)

/-- R244, R247, R74: a reply takes its reserved slot, or is parked; it is never refused. -/
def State.acceptReply (s : State) (core ctx k : Nat) (m : Msg) (die : Bool) : State :=
  let i := s.img core ctx
  let tag := fld m.hdr 23 16
  let slot : InSlot := i.routed { msg := m, tag := tag, order := s.fresh, die := die }
  let i := if (s.core core).res = some ctx then { i.unreserve k with inbox := tset i.inbox k slot }
    else i.park ((s.ctx ctx).st == .saved) { slot with slot := some k }
  { s.setImg core ctx i with fresh := s.fresh + 1 }

/-! ### Entries of the run queue (R67, R332) -/

/-- The lowest free entry of a range [lo, hi]. -/
def Img.freeIn (i : Img) (lo hi : Nat) : Option Nat := ((List.range (hi + 1 - lo)).map (lo + ·)).find? fun e => (i.fibre e).st == .free

/-- A message or an upcall that waits for an entry: when it came, whether it is an upcall, and the last entry it may take. -/
structure Waiter where
  order : Nat
  upcall : Bool
  slot : Nat
  last : Nat
  deriving DecidableEq, Repr

/-- R332: messages and upcalls that wait for entries, oldest first: each step falls in a cycle of its own (DESIGN CHOICE, log 92). -/
def Img.waiters (i : Img) : List Waiter :=
  let ms := (i.inbox.filter fun p => p.2.route == .handler).map fun p =>
    ({ order := p.2.order, upcall := false, slot := p.1, last := if p.2.die then 255 else 223 } : Waiter)
  let e := i.handler 0xFF
  let us := if hEn e && !hPrim e then (i.parkings.filter fun p => !p.started).map fun p =>
      ({ order := p.seq, upcall := true, slot := p.entry, last := 223 } : Waiter) else []
  sortBy Waiter.order (ms ++ us)

/-- R332: the oldest that finds an entry that it may take. -/
def Img.nextWaiter (i : Img) : Option (Waiter × Nat) :=
  i.waiters.findSome? fun w => (i.freeIn 1 w.last).map fun e => (w, e)

/-! ### Sending (R239 to R241, R247) -/

/-- R66: header dword 0 of a message from a core; the package ID is 0 until one is assigned (DESIGN CHOICE, log 93). -/
def State.msgHdr (s : State) (core : Nat) (peer : Bool) (prio tag : Nat) : DWord :=
  dw ((s.pkg.getD 0).toNat * 2 ^ 32 + b2n peer * 2 ^ 26 + prio * 2 ^ 24 + tag * 2 ^ 16 + lidOf core)

/-- Consecutive argument registers from rb; x0 gives zeros (R241, R247). -/
def argRegs (rb : Src) (n : Nat) : List Src :=
  if rb.r = 0#5 then [] else (List.range n).map fun k => { rb with r := rb.r + BitVec.ofNat 5 k }

def State.args (s : State) (rb : Src) (n : Nat) : List DWord :=
  if rb.r = 0#5 then List.replicate n 0 else (argRegs rb n).map fun a => s.xVal a.r

/-- Six arguments of a message. -/
def vec6 (l : List DWord) : Vector DWord 6 := Vector.ofFn fun (k : Fin 6) => l.getD k.val 0

/-- R240: the LID names a core of a context's node. -/
def State.coreInNode (s : State) (ctx lid : Nat) : Option Nat :=
  let core := coreAt (lid / 128) (bits lid 6 3)
  if lidNames s.dies lid && decide (bits lid 6 3 ≤ 8) && s.nodeHas (s.ctx ctx) core then some core else none

/-- R241, R242: the destination's fields. -/
def dstPeer (d : DWord) : Bool := d.getLsbD 46
def dstReply (d : DWord) : Bool := d.getLsbD 27
def dstRetry (d : DWord) : Bool := d.getLsbD 26
def dstPrio (d : DWord) : Nat := fld d 25 24
def dstTag (d : DWord) : Nat := fld d 23 16
def dstLid (d : DWord) : Nat := fld d 15 0

/-- R117: the scope of the release that sending to a core, or to another package, is. -/
def sendScope (peer : Bool) (core toCore : Nat) : Scope := if peer then .sy else jointScope core toCore

/-- R117: the scope of a message that has reached a core, by its header. -/
def hdrScope (hdr : DWord) (core : Nat) : Scope := sendScope (hdr.getLsbD 26) (coreAt (fld hdr 15 7) (fld hdr 6 3)) core

/-- R351, R461: the link that a message leaves on. -/
def MFlight.link (m : MFlight) : Option LinkName :=
  if m.peer then m.port.map LinkName.port else dieLinkFor m.who.core (some (dieOfCore m.toCore))

/-- A message is on its way. -/
def State.putMsg (s : State) (id : Nat) (m : MFlight) : State := { s with msgs := tset s.msgs id m }.sendFlit m.link id

/-- R241: send a message of the issuing fibre, whose outcome lands in rd. -/
def State.sendMsg (s : State) (rd : Reg) (dst : DWord) (toCore : Nat) (args : List DWord) (reserve : Option (Nat × Nat))
    (link : DWord) : State :=
  let id := s.fresh
  let fl := id + 1
  let core := s.unit.core
  let m : MFlight :=
    { who := s.who, dst := dst,
      msg := { hdr := s.msgHdr core (dstPeer dst) (dstPrio dst) (dstTag dst), link := link, args := vec6 args },
      toCtx := s.unit.ctx, toCore := toCore, peer := dstPeer dst, isReply := false, slot := none, reserve := reserve,
      flight := some fl, port := if dstPeer dst then s.peerPort (fld dst 45 36) (dstLid dst) else none,
      linkId := reserve.map Prod.snd }
  let sc := sendScope (dstPeer dst) core toCore
  (({ s with fresh := id + 1 }.putMsg id m).demote s.unit.ctx sc).swapOut (.x rd) (.send id)
    (some (s.capped s.unit.ctx sc))

def effSendm (rd : Reg) (ra rb : Src) (s : State) : Res := do
  let os := [.dx rd, .x ra] ++ (argRegs rb 6).map Opnd.x
  s.enterFor [.x ra] os
  let dst := s.xVal ra.r
  guardC (fld dst 63 47 == 0) .msgfmt 0 dst
  let toCore := s.coreInNode s.unit.ctx (dstLid dst)
  guardC (dstPeer dst || toCore.isSome) .notarget 0 dst
  s.settle os
  s.slotFree
  let i := s.me
  if dstReply dst then
    match i.freeSlot with
    | none => .ok (s.swapOut (.x rd) (.outcome 4), .fall)
    | some k =>
      let (lid, v, s') := s.newLink
        { kind := .message s.unit.core s.unit.ctx k s.myCtx.gen (fld dst 35 28) (dstPrio dst) (dstPeer dst),
          answerer := s.unit.ctx, answererGen := s.myCtx.gen }
      .ok ((s'.setMe (i.reserve k)).sendMsg rd dst (toCore.getD 0) (s.args rb 6) (some (k, lid)) v, .fall)
  else .ok (s.sendMsg rd dst (toCore.getD 0) (s.args rb 6) none 0, .fall)

/-! ### Replies (R239, R247, R424, R445) -/

/-- The parking that a link names, if its fibre is parked on it still. -/
def State.parkingOf (s : State) (core ctx entry uid link : Nat) : Option Parking :=
  (s.img core ctx).parkings.find? fun p => p.entry == entry && p.uid == uid && p.link == some link

/-- R66: class codes that a completion notice may name. -/
def noticeClass (a : DWord) : Bool := decide (0x20 ≤ a.toNat ∧ a.toNat ≤ 0x29)

/-- R424, R445: a completion notice acts on the parked fibre, resident or in its cage. -/
def State.notice (s : State) (core ctx entry uid link : Nat) (a : DWord) : State :=
  match s.parkingOf core ctx entry uid link with
  | none => s
  | some p =>
    let i := s.img core ctx
    let f := i.fibre entry
    let i := { i with parkings := i.parkings.filter fun q => q.link != some link }
    if noticeClass a then
      (s.setImg core ctx i).freeze
        { core := core, ctx := ctx, entry := entry, kind := f.kind.toNat, level := f.level.toNat, lid := lidOf core,
          wh := p.wh.toNat, body := p.body.toNat, pc := if p.wh = 2#2 then p.pc + 4 else p.pc, word := p.word, other := p.other }
        (.other (BitVec.ofNat 6 a.toNat)) p.dva 0
    else s.setImg core ctx (i.setFibre entry f.readied)

/-- R247: the link may be answered by a context's fibre, and what it names is still there. A context at depth 0 has no composer (R444):
the link of its own fault is answered by nobody (R445). -/
def State.linkOk (s : State) (ctx id : Nat) (l : Link) : Bool :=
  (s.ctx l.answerer).gen == l.answererGen &&
  match l.kind with
  | .message _ _ _ _ _ _ _ => l.answerer == ctx
  | .remote _ _ _ _ => l.answerer == ctx
  | .upcall core c e u => l.answerer == ctx && (s.parkingOf core c e u id).isSome
  | .composer core c e u => ctx != c && (s.upFrom l.answerer).contains ctx && (s.parkingOf core c e u id).isSome

/-- R247: send a reply on a link, with five arguments and a status. -/
def State.answerLink (s : State) (who : Who) (id : Nat) (l : Link) (args : List DWord) (status : DWord) : State :=
  let s := s.markReplied id
  match l.kind with
  | .message core ctx slot gen rtag prio _ =>
    let mid := s.fresh
    let m : MFlight :=
      { who := who, dst := 0, msg := { hdr := s.msgHdr who.core false prio rtag, link := 0, args := vec6 (args ++ [status]) },
        toCtx := ctx, toCore := core, peer := false, isReply := true, slot := some slot, reserve := none, linkId := some id }
    if (s.ctx ctx).gen = gen then
      ({ s with fresh := mid + 1 }.putMsg mid m).demote who.ctx (sendScope false who.core core)
    else s
  | .remote pkg lid link prio =>
    let mid := s.fresh
    let m : MFlight :=
      { who := who, dst := dw (2 ^ 46 + pkg * 2 ^ 36 + lid), msg := { hdr := s.msgHdr who.core true prio 0, link := link, args := vec6 (args ++ [status]) },
        toCtx := who.ctx, toCore := who.core, peer := true, isReply := true, slot := none, reserve := none, linkId := some id,
        port := s.peerPort pkg lid }
    ({ s with fresh := mid + 1 }.putMsg mid m).demote who.ctx .sy
  | .upcall core ctx e u => s.notice core ctx e u id (args.headD 0)
  | .composer core ctx e u => s.notice core ctx e u id (args.headD 0)

/-- R424, R445: a notice waits until the replier's accesses are performed, as `fence.pk`, never demoted. -/
def Link.fences (l : Link) : Bool :=
  match l.kind with
  | .upcall _ _ _ _ => true
  | .composer _ _ _ _ => true
  | _ => false

def State.linkFence (s : State) (l : Link) : Except Stop Unit :=
  if l.fences && !s.fenceDone s.who .pk then .error (.wait 7 4 (.fence .pk)) else .ok ()

def effReply (ra rb : Src) (s : State) : Res := do
  let os := .x ra :: (argRegs rb 5).map Opnd.x
  s.enterFor [.x ra] os
  let v := s.xVal ra.r
  match s.findLink v with
  | none => .error (.trap .link 0 v)
  | some (id, l) =>
    guardC (s.linkOk s.unit.ctx id l) .link 0 v
    s.settle os
    s.linkFence l
    .ok (s.answerLink s.who id l (s.args rb 5) 0, .fall)

/-! ### `tagctl` (R246) -/

/-- Change the issuing core's entry for a tag. -/
def State.tagSet (s : State) (tag : BitVec 8) (f : DWord → DWord) : State := s.setMe (s.me.setHandler tag.toNat (f (s.me.handler tag.toNat)))

/-- R246: the messages that are held for the tag stay held, whatever the new entry says, until a `tagctl.en` (DESIGN CHOICE, log 91). -/
def effTagctlLd (ra : Src) (tag : BitVec 8) (s : State) : Res := do
  s.ready [.x ra]
  let v := s.xVal ra.r
  guardC (fld v 63 61 == 0 && fld v 1 0 == 0) .msgfmt 0 v
  .ok (s.tagSet tag fun _ => v, .fall)

def effTagctlEn (tag : BitVec 8) (s : State) : Res :=
  let s' := s.tagSet tag fun e => setFld e 59 59 1
  .ok (s'.setMe (s'.me.deliverHeld tag.toNat), .fall)

def effTagctlDis (tag : BitVec 8) (s : State) : Res := .ok (s.tagSet tag fun e => setFld e 59 59 0, .fall)
def effTagctlPon (tag : BitVec 8) (s : State) : Res := .ok (s.tagSet tag fun e => setFld e 60 60 1, .fall)
def effTagctlPoff (tag : BitVec 8) (s : State) : Res := .ok (s.tagSet tag fun e => setFld e 60 60 0, .fall)

def effTagctlRd (rd : Reg) (tag : BitVec 8) (s : State) : Res := do
  s.ready [.dx rd]
  .ok (s.writeX rd (s.me.handler tag.toNat), .fall)

/-! ### The end of a fibre (R206) -/

/-- R206: a handler that owes a reply sends "no reply" (DEDUCED, log 78). -/
def State.noReply (s : State) (who : Who) (f : Fibre) : State :=
  match f.owes with
  | none => s
  | some id =>
    match tget s.links id with
    | some l => if l.replied || !s.linkOk who.ctx id l then s else s.answerLink who id l (List.replicate 5 0) 1
    | none => s

/-- R272: a unit unbound: its register is 0 and full. -/
def Img.unbindStream (i : Img) (u : Nat) : Img :=
  { i with streams := i.streams.setIfInBounds u { i.streams.toArray.getD u {} with bind := 0, held := [], push := [] },
           v := i.v.setIfInBounds u 0 }.setVfull u true

/-- R206: the primary's streams are unbound and its loops cleared. -/
def Img.primaryEnds (i : Img) : Img :=
  let i := [0, 1, 2, 3].foldl (fun (i : Img) u => if (i.streams.toArray.getD u {}).bind = 0#2 then i else i.unbindStream u) i
  { i with lc := #v[0, 0] }

/-- R206: retire a fibre whose producers have landed. -/
def State.retire (s : State) (core ctx entry : Nat) : State :=
  let f := (s.img core ctx).fibre entry
  let who : Who := { core := core, ctx := ctx, gen := (s.ctx ctx).gen, entry := entry, uid := f.uid }
  let s := if entry = 0 then
      let s := s.flushPushes core ctx
      s.setImg core ctx (s.img core ctx).primaryEnds
    else s
  (s.noReply who f).freeEntry core ctx entry

/-- R206: the wait of `exit` on producers, then on the drain of pushes, then on the notice that an upcall's end sends. -/
def State.exitReady (s : State) : Except Stop Unit := do
  match s.producer s.unit.core s.unit.ctx s.unit.entry with
  | some r => throw (.wait 1 r .producers)
  | none => pure ()
  if s.isPrimary && s.me.streams.toArray.any (fun t => !t.push.isEmpty) then throw .hold
  match s.myFibre.owes with
  | some id => match tget s.links id with
    | some l => if l.replied then pure () else s.linkFence l
    | none => pure ()
  | none => pure ()

def effExit (s : State) : Res := do
  s.exitReady
  .ok (s.retire s.unit.core s.unit.ctx s.unit.entry, .ended)

end Sys2Proof.Machine
end

