-- ==== Sys2Proof/Machine/Flags.lean ====
section
/-! DEFINITION. Number formats and arithmetic (R136 to R157): every value exact, rounded once, with the flags it raises as the
bits of FSTATUS (R142). -/
namespace Sys2Proof
open Machine

/-! ### Values -/

/-- An exact value: NaN, an infinity, or ±m × 2^e; zero keeps its sign. `neg`: the sign. -/
inductive FVal
  | nan
  | inf (neg : Bool)
  | fin (neg : Bool) (m : Nat) (e : Int)
  deriving DecidableEq, Repr

/-- A result and the flags raised with it. -/
abbrev Flagged (α : Type) := α × Nat

/-- The bits of FSTATUS (R142). -/
def fNX : Nat := 1
def fUF : Nat := 2
def fOF : Nat := 4
def fDZ : Nat := 8
def fNV : Nat := 16
def fSAT : Nat := 32

/-! ### Formats (R137, R138) -/

/-- The bits of the fraction field. -/
def Fmt.fbits : Fmt → Nat
  | .f64 => 52 | .f32 => 23 | .f16 => 10 | .bf16 => 7 | .f8a => 3 | .f8b => 2 | .f4 => 1 | _ => 0

/-- The bias of the exponent field. -/
def Fmt.bias : Fmt → Nat
  | .f64 => 1023 | .f32 => 127 | .f16 => 15 | .bf16 => 127 | .f8a => 7 | .f8b => 15 | .f4 => 1 | _ => 0

/-- The encoding of the largest finite magnitude (R137). -/
def Fmt.maxEnc : Fmt → Nat
  | .f64 => 0x7FEFFFFFFFFFFFFF | .f32 => 0x7F7FFFFF | .f16 => 0x7BFF | .bf16 => 0x7F7F
  | .f8a => 0x7E | .f8b => 0x7B | .f4 => 0x7 | _ => 0

/-- The encoding of +∞, in a format that has one (R138). -/
def Fmt.infEnc : Fmt → Option Nat
  | .f64 => some 0x7FF0000000000000 | .f32 => some 0x7F800000 | .f16 => some 0x7C00 | .bf16 => some 0x7F80
  | .f8b => some 0x7C | _ => none

/-- R138: the canonical NaN. -/
def Fmt.nanEnc : Fmt → Nat
  | .f64 => 0x7FF8000000000000 | .f32 => 0x7FC00000 | .f16 => 0x7E00 | .bf16 => 0x7FC0 | .f8a => 0x7F | .f8b => 0x7E
  | .e8 => 0xFF | _ => 0

/-- R137, R138: the value of an encoding in a floating-point format. -/
def Fmt.value (t : Fmt) (n : Nat) : FVal :=
  let w := t.width
  let f := t.fbits
  let neg := n.testBit (w - 1)
  let mag := n % 2 ^ (w - 1)
  if t.maxEnc < mag then (if t.infEnc = some mag then .inf neg else .nan)
  else
    let e := mag >>> f
    let fr := mag % 2 ^ f
    if e = 0 then .fin neg fr (1 - (t.bias : Int) - f) else .fin neg (2 ^ f + fr) ((e : Int) - t.bias - f)

/-- R139, R148: the value of an e8 byte. -/
def e8Value (b : Nat) : FVal := if b = 0xFF then .nan else .fin false 1 ((b : Int) - 127)

/-- R139: the value of an integer encoding. -/
def Fmt.int (t : Fmt) (n : Nat) : Int := if t.isSigned then sgn t.width n else (n % 2 ^ t.width : Nat)

/-- R139: the least and the greatest value of an integer format. -/
def Fmt.intMin (t : Fmt) : Int := if t.isSigned then -(2 : Int) ^ (t.width - 1) else 0
def Fmt.intMax (t : Fmt) : Int := if t.isSigned then (2 : Int) ^ (t.width - 1) - 1 else (2 : Int) ^ t.width - 1

/-- The exact value of an integer. -/
def FVal.ofInt (x : Int) : FVal := .fin (decide (x < 0)) x.natAbs 0

/-- A value multiplied by a power of two (R140). -/
def FVal.scale (x : FVal) (k : Int) : FVal :=
  match x with
  | .fin n m e => .fin n m (e + k)
  | v => v

def FVal.isNan : FVal → Bool
  | .nan => true
  | _ => false
def FVal.isInf : FVal → Bool
  | .inf _ => true
  | _ => false
def FVal.isZero : FVal → Bool
  | .fin _ 0 _ => true
  | _ => false

/-- The sign inverted. -/
def FVal.neg : FVal → FVal
  | .nan => .nan
  | .inf s => .inf (!s)
  | .fin s m e => .fin (!s) m e

/-- The sign cleared. -/
def FVal.abs : FVal → FVal
  | .nan => .nan
  | .inf _ => .inf false
  | .fin _ m e => .fin false m e

/-! ### Rounding (R141, R145) -/

/-- FCTL.rm: 0 RNE, 1 RTZ, 2 RUP, 3 RDN. `q` is the quotient kept, `rem` of `2^d` what is dropped: rounded away from zero? -/
def roundsUp (rm : Nat) (neg : Bool) (q rem d : Nat) : Bool :=
  match rm with
  | 0 => decide (2 ^ d < 2 * rem) || (decide (2 ^ d = 2 * rem) && q % 2 == 1)
  | 1 => false
  | 2 => !neg && rem != 0
  | _ => neg && rem != 0

/-- m × 2^e as an integer multiple of 2^q, rounded; and whether that is inexact. -/
def roundAt (rm : Nat) (neg : Bool) (m : Nat) (e q : Int) : Nat × Bool :=
  if q ≤ e then (m * 2 ^ (e - q).toNat, false)
  else
    let d := (q - e).toNat
    let k := m >>> d
    let r := m % 2 ^ d
    (if roundsUp rm neg k r d then k + 1 else k, r != 0)

/-- An encoding with a sign. -/
def Fmt.signed (t : Fmt) (neg : Bool) (mag : Nat) : Nat := if neg then 2 ^ (t.width - 1) + mag else mag

/-- R145 step 4: the result when the largest finite value is exceeded. -/
def overflowEnc (t : Fmt) (neg : Bool) (rm : Nat) (sat : Bool) : Flagged Nat :=
  let away := rm == 0 || (rm == 2 && !neg) || (rm == 3 && neg)
  if t = .f4 then (t.signed neg t.maxEnc, fSAT ||| fNX)
  else if sat then (t.signed neg t.maxEnc, fSAT ||| fNX)
  else if !away then (t.signed neg t.maxEnc, fOF ||| fNX)
  else match t.infEnc with
    | some i => (t.signed neg i, fOF ||| fNX)
    | none => (t.nanEnc, fOF ||| fNX)

/-- R145: `round_to`. -/
def roundTo (t : Fmt) (x : FVal) (rm : Nat) (sat : Bool) : Flagged Nat :=
  match x with
  | .nan => if t = .f4 then (0, fNV) else (t.nanEnc, 0)
  | .inf neg =>
    if t = .f4 then (t.signed neg t.maxEnc, fSAT)
    else if sat then (t.signed neg t.maxEnc, fSAT)
    else match t.infEnc with
      | some i => (t.signed neg i, 0)
      | none => (t.nanEnc, fNV)
  | .fin neg m e =>
    if m = 0 then (t.signed neg 0, 0)
    else
      let f := t.fbits
      let low : Int := 1 - (t.bias : Int) - f
      let q : Int := if e + m.log2 - f < low then low else e + m.log2 - f
      let (k, inexact) := roundAt rm neg m e q
      let mag := if k < 2 ^ f then k else (q - low).toNat * 2 ^ f + k
      if t.maxEnc < mag then overflowEnc t neg rm sat
      else (t.signed neg mag, (if inexact then fNX else 0) ||| (if inexact && decide (mag < 2 ^ f) then fUF else 0))

/-! ### Exact operations (R146, R147) -/

/-- The signed integer of a finite value at an exponent at or below its own. -/
def FVal.at (x : FVal) (q : Int) : Int :=
  match x with
  | .fin neg m e => (if neg then -1 else 1) * ((m * 2 ^ (e - q).toNat : Nat) : Int)
  | _ => 0

def FVal.exp : FVal → Option Int
  | .fin _ m e => if m = 0 then none else some e
  | _ => none

/-- R146: the product; whether it is 0 × ∞. -/
def fmul (x y : FVal) : FVal × Bool :=
  match x, y with
  | .nan, _ => (.nan, false)
  | _, .nan => (.nan, false)
  | .inf a, .inf b => (.inf (a != b), false)
  | .inf a, .fin b m _ => if m = 0 then (.nan, true) else (.inf (a != b), false)
  | .fin a m _, .inf b => if m = 0 then (.nan, true) else (.inf (a != b), false)
  | .fin a m e, .fin b n f => (.fin (a != b) (m * n) (e + f), false)

/-- R146, R150, R152: an exact sum of terms. A NaN does not hide ∞ − ∞ among the others (R138). -/
def fsum (rm : Nat) (ts : List FVal) : Flagged FVal :=
  let pos := ts.any fun t => t == .inf false
  let neg := ts.any fun t => t == .inf true
  if pos && neg then (.nan, fNV)
  else if ts.any FVal.isNan then (.nan, 0)
  else if pos then (.inf false, 0)
  else if neg then (.inf true, 0)
  else
    let es := ts.filterMap FVal.exp
    let q := es.foldl (fun a b => if b < a then b else a) (es.headD 0)
    let v := ts.foldl (fun a t => a + t.at q) 0
    if v = 0 then
      if ts.all (fun t => match t with | .fin n m _ => n && m == 0 | _ => false) then (.fin true 0 0, 0)
      else if ts.all (fun t => match t with | .fin n m _ => !n && m == 0 | _ => false) then (.fin false 0 0, 0)
      else (.fin (rm == 3) 0 0, 0)
    else (.fin (decide (v < 0)) v.natAbs q, 0)

/-- R146: terms and products; a product 0 × ∞ raises NV whatever else is added. -/
def fdotSum (rm : Nat) (cs : List FVal) (ps : List (FVal × FVal)) : Flagged FVal :=
  let xs := ps.map fun p => fmul p.1 p.2
  let r := fsum rm (cs ++ xs.map Prod.fst)
  if xs.any Prod.snd then (.nan, fNV ||| r.2) else r

/-- R146: the quotient: enough of its bits, and whether more follow, to round it once. -/
def fdiv (x y : FVal) : Flagged FVal :=
  match x, y with
  | .nan, _ => (.nan, 0)
  | _, .nan => (.nan, 0)
  | .inf _, .inf _ => (.nan, fNV)
  | .inf a, .fin b _ _ => (.inf (a != b), 0)
  | .fin a _ _, .inf b => (.fin (a != b) 0 0, 0)
  | .fin a m e, .fin b n f =>
    if n = 0 then (if m = 0 then (.nan, fNV) else (.inf (a != b), fDZ))
    else
      let k := n.log2 + 64
      let p := m * 2 ^ k
      (.fin (a != b) (2 * (p / n) + b2n (p % n != 0)) (e - f - k - 1), 0)

/-- The integer square root of a number below 4^k. -/
def isqrt : Nat → Nat → Nat → Nat
  | 0, _, r => r
  | k + 1, n, r => if (r + 2 ^ k) * (r + 2 ^ k) ≤ n then isqrt k n (r + 2 ^ k) else isqrt k n r

/-- R146: the square root. -/
def fsqrt (x : FVal) : Flagged FVal :=
  match x with
  | .nan => (.nan, 0)
  | .inf neg => if neg then (.nan, fNV) else (.inf false, 0)
  | .fin neg m e =>
    if m = 0 then (.fin neg 0 0, 0)
    else if neg then (.nan, fNV)
    else
      let odd := e % 2 ≠ 0
      let n := (if odd then 2 * m else m) * 2 ^ 128
      let e := if odd then e - 1 else e
      let r := isqrt (n.log2 / 2 + 1) n 0
      (.fin false (2 * r + b2n (r * r != n)) (e / 2 - 65), 0)

/-- Finite values, infinities, compared as numbers: −0 equals +0. -/
def FVal.lt (x y : FVal) : Bool :=
  match x, y with
  | .nan, _ => false
  | _, .nan => false
  | .inf a, .inf b => a && !b
  | .inf a, .fin _ _ _ => a
  | .fin _ _ _, .inf b => !b
  | .fin a m e, .fin b n f =>
    let q := if e < f then e else f
    decide (FVal.at (.fin a m e) q < FVal.at (.fin b n f) q)

/-- R147: equality of values. -/
def FVal.same (x y : FVal) : Bool := !x.isNan && !y.isNan && !x.lt y && !y.lt x

def FVal.sign : FVal → Bool
  | .nan => false
  | .inf n => n
  | .fin n _ _ => n

/-- R147: minimum and maximum; −0 is less than +0. -/
def fmin (x y : FVal) : FVal :=
  if x.isNan then y else if y.isNan then x
  else if x.lt y then x else if y.lt x then y else if x.sign then x else y
def fmax (x y : FVal) : FVal :=
  if x.isNan then y else if y.isNan then x
  else if x.lt y then y else if y.lt x then x else if x.sign then y else x

/-! ### Conversions (R148) -/

/-- An integer clamped to a format's range. -/
def Fmt.clamp (t : Fmt) (x : Int) : Int := if x < t.intMin then t.intMin else if t.intMax < x then t.intMax else x

/-- R148: float to integer. -/
def toIntFmt (t : Fmt) (x : FVal) (rm : Nat) : Flagged Nat :=
  match x with
  | .nan => (0, fNV)
  | .inf neg => (wrap t.width (if neg then t.intMin else t.intMax), fNV)
  | .fin neg m e =>
    let (k, inexact) := roundAt rm neg m e 0
    let v : Int := if neg then -(k : Int) else k
    let c := t.clamp v
    (wrap t.width c, if c ≠ v then fNV else if inexact then fNX else 0)

/-- R148: integer to a narrower integer. -/
def narrowInt (t : Fmt) (x : Int) (sat : Bool) : Flagged Nat :=
  if sat then (wrap t.width (t.clamp x), if t.clamp x = x then 0 else fSAT) else (wrap t.width x, 0)

/-! ### Reductions (R149) -/

/-- One level of the pairwise tree. -/
def pairUp {α : Type} (f : α → α → α) : List α → List α
  | a :: b :: l => f a b :: pairUp f l
  | l => l

/-- The tree, n levels deep. -/
def reduceTree {α : Type} (f : α → α → α) : Nat → List α → List α
  | 0, l => l
  | n + 1, l => reduceTree f n (pairUp f l)

/-! ### Group sums of the matrix unit (R151 to R153) -/

/-- R151, R152: one group of an element: the old encoding, the pairs of factors; the new encoding and the flags. -/
def groupStep (c : Nat) (ps : List (FVal × FVal)) : Flagged Nat :=
  let s := fdotSum 0 [Fmt.f32.value c] ps
  let r := roundTo .f32 s.1 0 false
  (r.1, s.2 ||| r.2)

/-- R153: one group of integers. -/
def groupStepInt (c : Nat) (ps : List (Int × Int)) : Nat :=
  wrap 32 (ps.foldl (fun a p => a + p.1 * p.2) (sgn 32 c))

/-! ### The down-converter (R155) -/

/-- emax of R155. -/
def Fmt.emax : Fmt → Int
  | .f8a => 8 | .f8b => 15 | _ => 2

/-- The position of the highest bit of a finite nonzero value. -/
def FVal.log2 : FVal → Int
  | .fin _ m e => (m.log2 : Int) + e
  | _ => 0

/-- R155: the scale of a group in automatic mode. -/
def autoScale (t : Fmt) (xs : List FVal) : Nat :=
  if xs.any fun x => x.isNan || x.isInf then 0xFF
  else if xs.all FVal.isZero then 127
  else
    let m := xs.foldl (fun a x => if a.lt x.abs then x.abs else a) (.fin false 0 0)
    (m.log2 - t.emax + 127).toNat

/-- R155: a group of accumulator elements narrowed; the scale, where there is one. `sfix`: the fixed scale, none for
automatic mode. -/
def downConvert (xs : List Nat) (t : Fmt) (sat : Bool) (sfix : Option Nat) : Flagged (List Nat × Option Nat) :=
  let gather (l : List (Flagged Nat)) (s : Option Nat) : Flagged (List Nat × Option Nat) :=
    ((l.map Prod.fst, s), l.foldl (fun a x => a ||| x.2) 0)
  match t with
  | .s8 | .s16 | .s32 | .s64 | .n8 | .n16 | .n32 | .n64 | .e8 => gather (xs.map fun x => narrowInt t (sgn 32 x) sat) none
  | .bf16 | .f16 | .f32 | .f64 => gather (xs.map fun x => roundTo t (Fmt.f32.value x) 0 sat) none
  | .f8a | .f8b | .f4 =>
    let vs := xs.map Fmt.f32.value
    let s := sfix.getD (autoScale t vs)
    if s = 0xFF then gather (vs.map fun _ => (t.nanEnc, 0)) (some s)
    else gather (vs.map fun v => roundTo t (v.scale (127 - (s : Int))) 0 sat) (some s)

/-! ### Seeded sparsity (R156, R157) -/

/-- R157: one step of u. -/
def seedStep (u : Nat) : Nat :=
  let u := (u ^^^ (u * 2 ^ 13)) % 2 ^ 32
  let u := u ^^^ (u >>> 17)
  (u ^^^ (u * 2 ^ 5)) % 2 ^ 32

/-- Exchange two places of a list. -/
def swapAt (l : List Nat) (i j : Nat) : List Nat := (l.set i (l.getD j 0)).set j (l.getD i 0)

/-- R157: the permutation, with i running down. -/
def seedPerm : Nat → Nat → List Nat → List Nat
  | 0, _, p => p
  | i + 1, u, p =>
    let u := seedStep u
    seedPerm i u (swapAt p (i + 1) (u * (i + 2) / 2 ^ 32))

/-- R157: `kept_positions`. -/
def keptPositions (seed row group n : Nat) : List Nat :=
  let u := (seed ^^^ (row * 0x85EBCA6B) % 2 ^ 32 ^^^ (group * 0xC2B2AE35) % 2 ^ 32) % 2 ^ 32
  sortBy id ((seedPerm 47 u (List.range 48)).take n)

end Sys2Proof
end

