-- ==== Sys2Proof/Machine/Vector.lean ====
section
/-! DEFINITION. A-class arithmetic, compares, conversions, lane moves, reductions and masks (R254 to R266), with the flags and
the traps of R143 and R418. -/
namespace Sys2Proof.Machine

/-! ### Flags and traps -/

/-- FCTL.rm as the word sees it (R144). -/
def State.rm (s : State) : Nat := fld s.view.fctl 1 0

/-- R418: a flag whose trap bit is 1 raises FPE. -/
def State.fpe (s : State) (fl : Nat) : Except Stop Unit :=
  let tr := fl &&& fld s.view.fctl 12 8
  guardC (tr == 0) .fpe 0 (dw (fl + tr * 256))

/-- R143: the flags of an instruction are merged into FSTATUS. -/
def State.mergeFlags (s : State) (fl : Nat) : State :=
  let i := s.me
  s.setMe { i with fstatus := i.fstatus ||| dw fl }

/-! ### The shape that they share (R256) -/

/-- n lanes, each computed where its mask bit is 1; the flags ORed. -/
def mapLanes (n mask : Nat) (f : Nat → Flagged Nat) : Flagged (List Nat) :=
  let rs := (List.range n).map fun i => if mask.testBit i then f i else (0, 0)
  (rs.map Prod.fst, rs.foldl (fun a r => a ||| r.2) 0)

/-- Read v sources, compute a vector of lanes of width w, and write it under a mask. -/
def vecOp (d : Reg) (srcs : List Src) (w mask : Nat) (f : List Nat → Flagged (List Nat)) (s : State) : Res := do
  let os := .dv d :: srcs.map Opnd.v
  s.emptyTrap [] os
  let t ← s.streamGuards [] os
  guardedAfter t (s.pushGuards os)
  let t ← guardedAfter t (t.pushCheck d mask)
  if s.srcUnmet [] os then s.settle os
  let (vs, s1) := s.readVs (srcs.map Src.r)
  let (ls, fl) := f (vs.map BitVec.toNat)
  guardedAfter t (s.fpe fl)
  s.settle os
  let s2 ← s1.writeV d (BitVec.ofNat 256 (ofLanes w ls)) w mask
  .ok (s2.mergeFlags fl, .fall)

/-- Every lane (R165). -/
def allLanes : Nat := 2 ^ 32 - 1

/-- The lane of the k-th source. -/
def srcLane (vs : List Nat) (k w i : Nat) : Nat := lane (vs.getD k 0) w i

/-- A result of floats, rounded once (R254 rnd). -/
def rnd (t : Fmt) (rm : Nat) (x : Flagged FVal) : Flagged Nat :=
  let r := roundTo t x.1 rm false
  (r.1, x.2 ||| r.2)

/-- R256: a lane-wise operation of two sources. -/
def lanes2 (d : Reg) (a b : Src) (m : BitVec 3) (t : Fmt) (ff : FVal → FVal → Nat → Flagged FVal) (fi : Nat → Nat → Int)
    (s : State) : Res :=
  let mask := s.kmask m
  vecOp d [a, b] t.width mask (fun vs => mapLanes (256 / t.width) mask fun i =>
    let x := srcLane vs 0 t.width i
    let y := srcLane vs 1 t.width i
    if t.isFloat then rnd t s.rm (ff (t.value x) (t.value y) s.rm) else (wrap t.width (fi x y), 0)) s

/-- R256: a lane-wise operation of one source. -/
def lanes1 (d : Reg) (a : Src) (m : BitVec 3) (t : Fmt) (ff : FVal → Flagged FVal) (fi : Nat → Int) (s : State) : Res :=
  let mask := s.kmask m
  vecOp d [a] t.width mask (fun vs => mapLanes (256 / t.width) mask fun i =>
    let x := srcLane vs 0 t.width i
    if t.isFloat then rnd t s.rm (ff (t.value x)) else (wrap t.width (fi x), 0)) s

/-! ### Lane-wise arithmetic (R255, R257, R258) -/

def effVadd (d : Reg) (a b : Src) (m : BitVec 3) (t : Fmt) : State → Res :=
  lanes2 d a b m t (fun x y rm => fsum rm [x, y]) (fun x y => t.int x + t.int y)
def effVsub (d : Reg) (a b : Src) (m : BitVec 3) (t : Fmt) : State → Res :=
  lanes2 d a b m t (fun x y rm => fsum rm [x, y.neg]) (fun x y => t.int x - t.int y)
def effVmul (d : Reg) (a b : Src) (m : BitVec 3) (t : Fmt) : State → Res :=
  lanes2 d a b m t (fun x y rm => fdotSum rm [] [(x, y)]) (fun x y => t.int x * t.int y)
def effVdiv (d : Reg) (a b : Src) (m : BitVec 3) (t : Fmt) : State → Res :=
  lanes2 d a b m t (fun x y _ => fdiv x y) (fun _ _ => 0)
def effVmin (d : Reg) (a b : Src) (m : BitVec 3) (t : Fmt) : State → Res :=
  lanes2 d a b m t (fun x y _ => (fmin x y, 0)) (fun x y => if t.int y < t.int x then t.int y else t.int x)
def effVmax (d : Reg) (a b : Src) (m : BitVec 3) (t : Fmt) : State → Res :=
  lanes2 d a b m t (fun x y _ => (fmax x y, 0)) (fun x y => if t.int x < t.int y then t.int y else t.int x)
def effVsqrt (d : Reg) (a : Src) (m : BitVec 3) (t : Fmt) : State → Res := lanes1 d a m t fsqrt (fun _ => 0)
def effVand (d : Reg) (a b : Src) (m : BitVec 3) (t : Fmt) : State → Res :=
  lanes2 d a b m t (fun _ _ _ => (.nan, 0)) (fun x y => ((x &&& y : Nat) : Int))
def effVor (d : Reg) (a b : Src) (m : BitVec 3) (t : Fmt) : State → Res :=
  lanes2 d a b m t (fun _ _ _ => (.nan, 0)) (fun x y => ((x ||| y : Nat) : Int))
def effVxor (d : Reg) (a b : Src) (m : BitVec 3) (t : Fmt) : State → Res :=
  lanes2 d a b m t (fun _ _ _ => (.nan, 0)) (fun x y => ((x ^^^ y : Nat) : Int))

/-- Shifts of a lane by an amount (R255). -/
def laneShl (x n : Nat) : Int := ((x * 2 ^ n : Nat) : Int)
def laneShr (x n : Nat) : Int := ((x / 2 ^ n : Nat) : Int)
def laneSra (t : Fmt) (x n : Nat) : Int := sgn t.width x / 2 ^ n

def effVshl (d : Reg) (a b : Src) (m : BitVec 3) (t : Fmt) : State → Res :=
  lanes2 d a b m t (fun _ _ _ => (.nan, 0)) (fun x y => laneShl x (y % t.width))
def effVshr (d : Reg) (a b : Src) (m : BitVec 3) (t : Fmt) : State → Res :=
  lanes2 d a b m t (fun _ _ _ => (.nan, 0)) (fun x y => laneShr x (y % t.width))
def effVsra (d : Reg) (a b : Src) (m : BitVec 3) (t : Fmt) : State → Res :=
  lanes2 d a b m t (fun _ _ _ => (.nan, 0)) (fun x y => laneSra t x (y % t.width))
def effVabs (d : Reg) (a : Src) (m : BitVec 3) (t : Fmt) : State → Res :=
  lanes1 d a m t (fun x => (x.abs, 0)) (fun x => ((t.int x).natAbs : Int))
def effVneg (d : Reg) (a : Src) (m : BitVec 3) (t : Fmt) : State → Res :=
  lanes1 d a m t (fun x => (x.neg, 0)) (fun x => -t.int x)

/-- R257: a fused multiply-add, its product negated for n = 1. -/
def fused (t : Fmt) (n : Bool) (d : Reg) (a b c : Src) (s : State) : Res :=
  vecOp d [a, b, c] t.width allLanes (fun vs => mapLanes (256 / t.width) allLanes fun i =>
    let x := t.value (srcLane vs 0 t.width i)
    let y := t.value (srcLane vs 1 t.width i)
    let z := t.value (srcLane vs 2 t.width i)
    rnd t s.rm (fdotSum s.rm [z] [(if n then x.neg else x, y)])) s

def effVfmaF32 : Reg → Src → Src → Src → State → Res := fused .f32 false
def effVfnmaF32 : Reg → Src → Src → Src → State → Res := fused .f32 true
def effVfmaF64 : Reg → Src → Src → Src → State → Res := fused .f64 false
def effVfnmaF64 : Reg → Src → Src → Src → State → Res := fused .f64 true
def effVfmaF16 : Reg → Src → Src → Src → State → Res := fused .f16 false
def effVfnmaF16 : Reg → Src → Src → Src → State → Res := fused .f16 true
def effVfmaBf16 : Reg → Src → Src → Src → State → Res := fused .bf16 false
def effVfnmaBf16 : Reg → Src → Src → Src → State → Res := fused .bf16 true

def effVaddi (d : Reg) (a : Src) (t : Fmt) (imm : BitVec 7) : State → Res := lanes1 d a 0 t (fun x => (x, 0)) (fun x => t.int x + imm.toInt)
def effVshli (d : Reg) (a : Src) (t : Fmt) (n : BitVec 6) : State → Res := lanes1 d a 0 t (fun x => (x, 0)) (fun x => laneShl x n.toNat)
def effVshri (d : Reg) (a : Src) (t : Fmt) (n : BitVec 6) : State → Res := lanes1 d a 0 t (fun x => (x, 0)) (fun x => laneShr x n.toNat)
def effVsrai (d : Reg) (a : Src) (t : Fmt) (n : BitVec 6) : State → Res := lanes1 d a 0 t (fun x => (x, 0)) (fun x => laneSra t x n.toNat)

/-! ### Masks (R259, R266) -/

/-- Write a mask register. -/
def State.writeK (s : State) (k : BitVec 3) (v : Word) : State :=
  let i := s.me
  s.setMe { i with k := i.k.set k.toNat v }

/-- R259: a condition on two lanes. -/
def vcondHolds (c : VCond) (t : Fmt) (x y : Nat) : Bool :=
  if t.isFloat then
    let p := t.value x; let q := t.value y
    match c with
    | .eq => p.same q
    | .ne => !p.same q
    | .lt => p.lt q
    | .le => p.lt q || p.same q
  else
    match c with
    | .eq => t.int x == t.int y
    | .ne => t.int x != t.int y
    | .lt => decide (t.int x < t.int y)
    | .le => decide (t.int x ≤ t.int y)

def effVcmp (cond : VCond) (k : BitVec 3) (a b : Src) (m : BitVec 3) (t : Fmt) (s : State) : Res := do
  s.ready [.v a, .v b]
  let mask := s.kmask m
  let old := s.view.k[k.toNat].toNat
  let (vs, s1) := s.readVs [a.r, b.r]
  let n := 256 / t.width
  let bit (i : Nat) : Nat :=
    if mask.testBit i then b2n (vcondHolds cond t (srcLane (vs.map BitVec.toNat) 0 t.width i) (srcLane (vs.map BitVec.toNat) 1 t.width i))
    else b2n (old.testBit i)
  .ok (s1.writeK k (BitVec.ofNat 32 (ofLanes 1 ((List.range n).map bit))), .fall)

/-- R266: a mask of two masks. -/
def klogic (d a b : BitVec 3) (f : Word → Word → Word) (s : State) : Res :=
  .ok (s.writeK d (f s.view.k[a.toNat] s.view.k[b.toNat]), .fall)

def effKand (d a b : BitVec 3) : State → Res := klogic d a b fun x y => x &&& y
def effKor (d a b : BitVec 3) : State → Res := klogic d a b fun x y => x ||| y
def effKxor (d a b : BitVec 3) : State → Res := klogic d a b fun x y => x ^^^ y
def effKandn (d a b : BitVec 3) : State → Res := klogic d a b fun x y => x &&& ~~~y
def effKnot (d a : BitVec 3) : State → Res := klogic d a a fun x _ => ~~~x

def effKfromx (d : BitVec 3) (a : Src) (s : State) : Res := do
  s.ready [.x a]
  .ok (s.writeK d ((s.xVal a.r).setWidth 32), .fall)

def effKtox (d : Reg) (a : BitVec 3) (s : State) : Res := do
  s.ready [.dx d]
  .ok (s.writeX d (s.view.k[a.toNat].setWidth 64), .fall)

/-! ### Selection and conversion (R260, R261) -/

def effVsel (d : Reg) (a b : Src) (m : BitVec 3) (t : Fmt) (s : State) : Res :=
  let km := s.view.k[m.toNat].toNat
  vecOp d [a, b] t.width allLanes (fun vs => mapLanes (256 / t.width) allLanes fun i =>
    (srcLane vs (if km.testBit i then 0 else 1) t.width i, 0)) s

/-- R148: a lane of one format in another. -/
def convert (src dst : Fmt) (rm : Nat) (x : Nat) : Flagged Nat :=
  if src.isFloat then
    if dst.isFloat then roundTo dst (src.value x) rm false else toIntFmt dst (src.value x) rm
  else if dst.isFloat then roundTo dst (.ofInt (src.int x)) rm false
  else narrowInt dst (src.int x) true

/-- R261: the formats of a form, and the first lane that a one-source form takes; `true` for two sources. -/
def cvtForm (form : BitVec 4) : Fmt × Fmt × Nat × Bool :=
  match form.toNat with
  | 0 => (.f32, .bf16, 0, true)
  | 1 => (.f32, .f16, 0, true)
  | 2 => (.bf16, .f32, 0, false)
  | 3 => (.bf16, .f32, 8, false)
  | 4 => (.f16, .f32, 0, false)
  | 5 => (.f16, .f32, 8, false)
  | 6 => (.f32, .f64, 0, false)
  | 7 => (.f32, .f64, 4, false)
  | 8 => (.f64, .f32, 0, true)
  | 9 => (.f32, .s32, 0, false)
  | 10 => (.f32, .n32, 0, false)
  | 11 => (.s32, .f32, 0, false)
  | 12 => (.n32, .f32, 0, false)
  | 13 => (.f64, .s64, 0, false)
  | 14 => (.s64, .f64, 0, false)
  | _ => (.s32, .s16, 0, true)

def effVcvt (d : Reg) (a b : Src) (m : BitVec 3) (form : BitVec 4) (s : State) : Res :=
  let (src, dst, off, two) := cvtForm form
  let mask := s.kmask m
  let half := 256 / src.width
  vecOp d (if two then [a, b] else [a]) dst.width mask (fun vs => mapLanes (256 / dst.width) mask fun i =>
    convert src dst s.rm (if two then srcLane vs (i / half) src.width (i % half) else srcLane vs 0 src.width (off + i))) s

/-! ### Moving lanes (R262, R263) -/

def effVbcast (d : Reg) (a : Src) (t : Fmt) (s : State) : Res := do
  let os := [.dv d, .x a]
  s.emptyTrap [] os
  s.pushGuards os
  let _ ← s.pushCheck d allLanes
  s.settle os
  let s1 ← s.writeV d (BitVec.ofNat 256 (ofLanes t.width (List.replicate (256 / t.width) (s.xVal a.r).toNat))) t.width allLanes
  .ok (s1, .fall)

def effVmovx (d : Reg) (a : Src) (t : Fmt) (l : BitVec 9) (s : State) : Res := do
  s.ready [.dx d, .v a]
  let (vs, s1) := s.readVs [a.r]
  let x := srcLane (vs.map BitVec.toNat) 0 t.width l.toNat
  .ok (s1.writeX d (if t.isSigned then sext (dw x) t.width else dw x), .fall)

/-- R263: a lane of the result is a lane of a source: which source and which lane. -/
def moveLanes (d : Reg) (a b : Src) (m : BitVec 3) (t : Fmt) (pick : List Nat → Nat → Nat × Nat) (s : State) : Res :=
  let mask := s.kmask m
  vecOp d [a, b] t.width mask (fun vs => mapLanes (256 / t.width) mask fun i =>
    let p := pick vs i
    (srcLane vs p.1 t.width p.2, 0)) s

def effVperm (d : Reg) (a b : Src) (m : BitVec 3) (t : Fmt) : State → Res :=
  moveLanes d a b m t fun vs i => (0, srcLane vs 1 t.width i % (256 / t.width))
def effVzip (d : Reg) (a b : Src) (m : BitVec 3) (t : Fmt) : State → Res := moveLanes d a b m t fun _ i => (i % 2, i / 2)
def effVunzip (d : Reg) (a b : Src) (m : BitVec 3) (t : Fmt) : State → Res :=
  moveLanes d a b m t fun _ i =>
    let h := 256 / t.width / 2
    if i < h then (0, 2 * i) else (1, 2 * (i - h))

/-! ### Reductions (R149, R264) and `vdot` (R150, R265) -/

/-- Reduce the lanes of a source into lane 0. -/
def reduce (d : Reg) (a : Src) (m : BitVec 3) (t : Fmt) (ident : Nat) (op : Nat → Nat → Nat → Flagged Nat) (s : State) : Res :=
  let mask := s.kmask m
  let n := 256 / t.width
  vecOp d [a] t.width allLanes (fun vs =>
    let ls := (List.range n).map fun i => ((if mask.testBit i then srcLane vs 0 t.width i else ident, 0) : Flagged Nat)
    let f (p q : Flagged Nat) : Flagged Nat := let r := op s.rm p.1 q.1; (r.1, p.2 ||| q.2 ||| r.2)
    let r := (reduceTree f 5 ls).headD (0, 0)
    (r.1 :: List.replicate (n - 1) 0, r.2)) s

/-- R149: a lane operation of a reduction. -/
def reduceOp (t : Fmt) (ff : Nat → FVal → FVal → FVal × Nat) (fi : Int → Int → Int) (rm x y : Nat) : Flagged Nat :=
  if t.isFloat then rnd t rm (ff rm (t.value x) (t.value y)) else (wrap t.width (fi (t.int x) (t.int y)), 0)

def effVrsum (d : Reg) (a : Src) (m : BitVec 3) (t : Fmt) : State → Res :=
  reduce d a m t (if t.isFloat then t.signed true 0 else 0) (reduceOp t (fun rm x y => fsum rm [x, y]) (· + ·))
def effVrmax (d : Reg) (a : Src) (m : BitVec 3) (t : Fmt) : State → Res :=
  reduce d a m t (if t.isFloat then t.signed true (t.infEnc.getD 0) else wrap t.width t.intMin)
    (reduceOp t (fun _ x y => (fmax x y, 0)) (fun x y => if x < y then y else x))
def effVrmin (d : Reg) (a : Src) (m : BitVec 3) (t : Fmt) : State → Res :=
  reduce d a m t (if t.isFloat then t.infEnc.getD 0 else wrap t.width t.intMax)
    (reduceOp t (fun _ x y => (fmin x y, 0)) (fun x y => if y < x then y else x))

def effVdot (d : Reg) (a b : Src) (m : BitVec 3) (s : State) : Res := do
  guardC (s.me.boundTo d).isNone .stream 0 (streamExtra d.toNat 8)
  let os := [.v ⟨d, false⟩, .v a, .v b]
  s.ready os
  let mask := s.kmask m
  let (vs, s1) := s.readVs [d, a.r, b.r]
  let vs := vs.map BitVec.toNat
  let (ls, fl) := mapLanes 8 mask fun j =>
    let f (k i : Nat) : FVal := Fmt.bf16.value (srcLane vs k 16 i)
    rnd .f32 s.rm (fdotSum s.rm [Fmt.f32.value (srcLane vs 0 32 j)] [(f 1 (2 * j), f 2 (2 * j)), (f 1 (2 * j + 1), f 2 (2 * j + 1))])
  s.fpe fl
  let s2 ← s1.writeV d (BitVec.ofNat 256 (ofLanes 32 ls)) 32 mask
  .ok (s2.mergeFlags fl, .fall)

end Sys2Proof.Machine
end

