-- ==== Sys2Proof/Machine/Stream.lean ====
section
/-! DEFINITION. Stream units (R268 to R277) and repetition (R278 to R282, R415, R416), with the fetch of instruction words
(R129, R130, R442). -/
namespace Sys2Proof.Machine

/-! ### Fetching a word -/

/-- A line of the instruction cache with its word at a place changed. -/
def setLineWord (line place : Nat) (w : Word) : Nat :=
  let k := place % 128 / 4
  line - lane line 32 k * 2 ^ (32 * k) + w.toNat * 2 ^ (32 * k)

/-- R129: a word at an address: where the instruction cache holds its line, the cached word or the word now in memory; where it does
not, the word now in memory, and the cache takes the line (DESIGN CHOICE, log 6). -/
def State.fetchAt (s : State) (core ctx : Nat) (a : DWord) : Except AFail (State × Word) := do
  let (s', t) ← s.resolve core ctx .fetch a 4
  let c := s'.cluster (clOf core)
  let n := t.place / 128
  let line := (tget c.icache n).getD (s'.readAs ctx (some (dieOfCore core)) (n * 128) 128)
  let now : Word := BitVec.ofNat 32 (s'.readAs ctx (some (dieOfCore core)) t.place 4)
  let old : Word := BitVec.ofNat 32 (lane line 32 (t.place % 128 / 4))
  let w := if old ≠ now ∧ Config.fetchCached s'.fresh then old else now
  .ok ({ s'.setCluster (clOf core) { c with icache := tset c.icache n (setLineWord line t.place w) } with
           fresh := s'.fresh + 1 }, w)

/-- The same of a word that a unit is fetched with: its entries are none that the unit's accesses used. -/
def State.fetchWord (s : State) (core ctx : Nat) (a : DWord) : Except AFail (State × Word) :=
  (s.fetchAt core ctx a).map fun x => ({ x.1 with lookups := s.lookups }, x.2)

/-! ### Configuring and binding (R271, R272) -/

/-- The descriptor's unit. -/
def State.stream (s : State) (u : BitVec 2) : Stream := s.me.streams[u.toNat]

def State.setStream (s : State) (u : BitVec 2) (t : Stream) : State :=
  let i := s.me
  s.setMe { i with streams := i.streams.set u.toNat t }

/-- R271: the guard that a unit is unbound. -/
def State.unbound (s : State) (u : BitVec 2) : Except Stop Unit := guardC ((s.stream u).bind == 0#2) .stream 0 (streamExtra u.toNat 1)

/-- DEDUCED, log 39. -/
def effScfg (u : BitVec 2) (a : Src) (idx : BitVec 3) (s : State) : Res := do
  s.emptyTrap [] [.x a]
  s.unbound u
  s.settle [.x a]
  let t := s.stream u
  let t := { t with dw := t.dw.setIfInBounds idx.toNat (s.xVal a.r) }
  .ok (s.setStream u (if idx = 0#3 then { t with pos := 0 } else t), .fall)

/-- R294: the stored elements of a compressed handle: pos[nr]. -/
def State.compressedCount (s : State) (h : HWord) (idx : Nat) : Except Stop (State × Nat) := do
  let v := hview h
  let a := v.aux0 + dw (4 * v.nr)
  let bad := if a.toNat < v.base.toNat then a else if v.limit.toNat < a.toNat then a else v.limit
  guardC (decide (v.base.toNat ≤ a.toNat ∧ a.toNat + 4 ≤ v.limit.toNat)) .hregion bad (dw idx)
  let (s', t) ← s.access .gather a 4
  if s.readHeld s.who s.fresh t 4 then throw .hold
  .ok (s', s.readNum s.who t 4)

/-- R294: count(H). -/
def State.handleCount (s : State) (h : HWord) (idx : Nat) : Except Stop (State × Nat) :=
  if (hview h).kind 0 = 1 then s.compressedCount h idx else .ok (s, (hview h).count)

/-- R271: `sbind`; a handle that it takes must be valid (R295) (DEDUCED, log 44). -/
def bindStream (u : BitVec 2) (dir : BitVec 2) (s : State) : Res := do
  s.unbound u
  let t := s.stream u
  let c := t.dw[0]
  guardC (c &&& streamReserved == 0 && t.kind != 3 && t.fmt != .f4) .stream 0 (streamExtra u.toNat 2)
  guardC (t.kind != 0 || t.dims.all fun d => d.1 != 0) .stream 0 (streamExtra u.toNat 3)
  let hn := fld c 23 21
  let h := s.view.h.toArray.getD hn 0
  guardC (t.kind != 2 || t.fmt == (hview h).etype) .stream 0 (streamExtra u.toNat 4)
  guardC (t.kind != 2 || handleValid h) .hfmt 0 (dw hn)
  let (s', cnt) ← if t.kind = 2 then s.handleCount h hn else pure (s, 0)
  let t' : Stream := { t with handle := if t.kind = 2 then h else t.handle, cnt := cnt, pos := 0, bind := dir, held := [], push := [], bindAt := s.fresh }
  guardedAfter s' (guardC (decide (t'.items < 2 ^ 48)) .stream 0 (streamExtra u.toNat 5))
  .ok ({ s'.setStream u t' with fresh := s'.fresh + 1 }, .fall)

def effSbindPop (u : BitVec 2) : State → Res := bindStream u 1
def effSbindPush (u : BitVec 2) : State → Res := bindStream u 2

def effSunbind (u : BitVec 2) (s : State) : Res :=
  let t := s.stream u
  if t.bind = 0#2 then .ok (s, .fall)
  else if !t.push.isEmpty then .error .hold
  else .ok (s.setMe (s.me.unbindStream u.toNat), .fall)

/-- R272: the status that `sstat` reads. -/
def streamStatus (t : Stream) : DWord :=
  let held := if t.bind = 1#2 then t.held.length else if t.bind = 2#2 then t.push.length else 0
  dw (b2n (t.bind != 0#2) * 2 ^ 63 + b2n (t.bind == 2#2) * 2 ^ 62 + b2n (decide (t.items ≤ t.pos.toNat)) * 2 ^ 61 +
    held * 2 ^ 56 + t.pos.toNat)

def effSstat (d : Reg) (u : BitVec 2) (s : State) : Res := do
  s.ready [.dx d]
  .ok (s.writeX d (streamStatus (s.stream u)), .fall)

/-! ### Repetition (R278, R415) -/

/-- A replay is under way (R431). -/
def Rep.running (r : Rep) : Bool := r.act && r.left != 0#17

/-- R281, R439: the count of a level, which the `rep` unit of a replay under way has yet to lower. -/
def Img.lcNow (i : Img) (l : Fin 2) : DWord := if i.rep.running && i.rep.ends.getLsbD l then i.lc[l] - 1 else i.lc[l]

/-- A loop that is set anew takes nothing from a `rep` before it. -/
def Rep.settled (r : Rep) (l : Fin 2) : Rep := { r with ends := r.ends &&& ~~~(BitVec.ofNat 2 (2 ^ l.val)) }

/-- The `rep` unit completes with its replay: the counts of the levels that it ends fall (R439). -/
def Img.endRep (i : Img) : Img :=
  let go (l : Fin 2) : DWord := if i.rep.ends.getLsbD l then i.lc[l] - 1 else i.lc[l]
  { i with lc := #v[go 0, go 1], rep := { i.rep with ends := 0 } }

/-- R278: a major that a body may not hold: 0x20 to 0x24. -/
def isStreamOp : Instr → Bool
  | .scfg _ _ _ => true
  | .sbindPop _ => true
  | .sbindPush _ => true
  | .sunbind _ => true
  | .sstat _ _ => true
  | .repImm _ _ => true
  | .repReg _ _ => true
  | _ => false

/-- R278: fetch the body words in ascending order, from index k (DEDUCED, log 45). -/
def State.capture (s : State) (a : DWord) : Nat → Nat → Except Stop (State × List Word)
  | 0, _ => .ok (s, [])
  | n + 1, k => do
    let (s, w) ← chk 3 (s.fetchAt s.unit.core s.unit.ctx (a + dw (4 * k)))
    let (s, ws) ← guardedAfter s (s.capture a n (k + 1))
    .ok (s, w :: ws)

/-- R415: check the captured words in ascending order, from index k: each is an instruction, and a lone A-class word that a body may
hold. -/
def bodyCheck : List Word → Nat → Except Stop Unit
  | [], _ => .ok ()
  | w :: ws, k =>
    match decodeWord w with
    | .error r => .error (.body .ill (dw r))
    | .ok i => if isAClass i && w.getLsbD 31 && !isStreamOp i then bodyCheck ws (k + 1) else .error (.body .rep (dw (2 ^ 63 + k)))

/-- R278: capture a body of n + 1 words to be executed c times, or skip it. -/
def repeatBody (n : BitVec 5) (c : Nat) (s : State) : Res := do
  let len := n.toNat + 1
  let start := s.unit.unitEnd
  let after := start + dw (4 * len)
  if c = 0 then .ok (s, .jump after)
  else
    let (s, ws) ← s.capture start len 0
    guardedAfter s (bodyCheck ws 0)
    let r : Rep := { body := Vector.ofFn fun (k : Fin 32) => ws.getD k.val 0, act := true, len := n, next := 0,
                     left := BitVec.ofNat 17 c, repat := if s.unit.wh = 0#2 then s.unit.pc else s.unit.pc + 4,
                     wd := if s.unit.wh = 2#2 then s.unit.other else s.unit.word }
    .ok (s.setMe { s.me with rep := r }, .past (after - 4) after)

def effRepImm (n : BitVec 5) (cnt : BitVec 16) : State → Res := repeatBody n (cnt.toNat + 1)

def effRepReg (n : BitVec 5) (a : Src) (s : State) : Res := do
  s.ready [.x a]
  let c := (s.xVal a.r).toNat
  guardC (decide (c ≤ 65536)) .rep 0 (dw (c % 2 ^ 63))
  repeatBody n c s

end Sys2Proof.Machine
end

