-- ==== Sys2Proof/Machine/Matrix.lean ====
section
/-! DEFINITION. Tensor handles, gathers and scatters, and the requests of the matrix unit (R283 to R308). -/
namespace Sys2Proof.Machine

/-! ### Handles (R295 to R297) -/

/-- Write a handle register. -/
def State.setH (s : State) (n : BitVec 3) (v : HWord) : State :=
  let i := s.me
  s.setMe { i with h := i.h.set n.toNat v }

/-- R296: the value is bound to a context. -/
def boundHere (s : State) (ctx : Nat) (v : HWord) : Bool :=
  fld (hdw v 0) 63 52 == ctx && fld (hdw v 0) 51 36 == (s.ctx ctx).gen.toNat

/-- R404: the extra field of HCTX. -/
def hctxExtra (n : BitVec 3) (v : HWord) : DWord := dw (n.toNat + fld (hdw v 0) 63 32 * 2 ^ 32)

def effHld (ht : BitVec 3) (m : MemOp) (sc : Scope) (s : State) : Res := do
  let os := memOps m
  s.enter os
  let (s', t) ← s.access .hload (s.ea m 64) 64
  s.settle os
  let (s', acq) := s'.scope sc
  if t.ownSpad s.unit.core then
    if s.readHeld s.who s.fresh t 64 then throw .hold
    let v : HWord := BitVec.ofNat 512 (s'.readNum s.who t 64)
    guardC (boundHere s s.unit.ctx v) .hctx 0 (hctxExtra ht v)
    .ok ((s'.hasRead s.who s.fresh t 64 acq).setH ht v, .fall)
  else
    s.slotFree
    .ok (s'.swapOut (.h ht) (.load t 64 false) none (s.ea m 64) acq, .fall)

def effHst (m : MemOp) (ht : BitVec 3) (sc : Scope) (md : StMode) (s : State) : Res := do
  s.ready (memOps m)
  let a := s.ea m 64
  let (s', t) ← s.access .hstore a 64
  let (s', rel) := s'.scope sc
  .ok (s'.issueStore t (.bytes (toBytes 64 (s.view.h[ht.toNat]).toNat)) md rel a, .fall)

def effHset (hd : BitVec 3) (idx : BitVec 3) (rb : Src) (s : State) : Res := do
  s.ready [.x rb]
  let v := s.xVal rb.r
  let h := s.view.h[hd.toNat]
  let old := hdw h idx.toNat
  guardC (idx != 3#3 || decide (old.toNat ≤ v.toNat)) .hregion v (dw hd.toNat)
  guardC (idx != 4#3 || decide (v.toNat ≤ old.toNat)) .hregion old (dw hd.toNat)
  let new := if idx = 0#3 then (old &&& 0xFFFFFFF000000000#64) ||| (v &&& 0xFFFFFFFFF#64) else v
  .ok (s.setH hd (setHdw h idx.toNat new), .fall)

def effHget (rd : Reg) (hs : BitVec 3) (idx : BitVec 3) (s : State) : Res := do
  s.ready [.dx rd]
  .ok (s.writeX rd (hdw s.view.h[hs.toNat] idx.toNat), .fall)

/-! ### Gather and scatter (R298, R299, R410) -/

/-- The address of stored element e (R294). -/
def elemAddr (v : HView) (e : Nat) : DWord := v.values + dw (e * (v.etype.width / 8))

/-- R295: the first byte of [a, a + n) outside a handle's region. -/
def outsideRegion (v : HView) (a : DWord) (n : Nat) : Option DWord :=
  if a.toNat < v.base.toNat ∨ v.limit.toNat ≤ a.toNat then some a
  else if v.limit.toNat < a.toNat + n then some v.limit
  else none

/-- R410: one lane's checks. -/
def State.laneCheck (s : State) (v : HView) (hn lane e : Nat) (k : AccKind) : Except Stop (State × Target) := do
  let w := v.etype.width / 8
  let a := elemAddr v e
  match outsideRegion v a w with
  | some b => throw (.trap .hregion b (dw (hn + lane * 256)))
  | none => s.access k a w

/-- R410: the checks of every lane in ascending order; the lanes whose elements exist, with their targets. -/
def State.laneChecks (s : State) (v : HView) (hn cnt : Nat) (k : AccKind) (idx : Nat) :
    List Nat → Except Stop (State × List (Nat × Target × DWord))
  | [] => .ok (s, [])
  | i :: is => do
    let e := lane idx 32 i
    if cnt ≤ e then s.laneChecks v hn cnt k idx is
    else
      let (s, t) ← s.laneCheck v hn i e k
      let (s, ts) ← guardedAfter s (s.laneChecks v hn cnt k idx is)
      .ok (s, (i, t, elemAddr v e) :: ts)

/-- The lanes below L that a mask governs (R298). -/
def gatherLanes (w : Nat) (mask : Nat) : List Nat := (List.range (Min.min 8 (256 / w))).filter fun i => mask.testBit i

def effHgat (rd : Reg) (hs : BitVec 3) (rb : Src) (m : BitVec 3) (s : State) : Res := do
  let os := [.dv rd, .v rb]
  let mask := s.kmask m
  let h := s.view.h[hs.toNat]
  let v := hview h
  s.emptyTrap [] os
  let t ← s.streamGuards [] os
  guardedAfter t (s.pushGuards os)
  guardedAfter t (guardC (handleValid h && v.etype != .f4) .hfmt 0 (dw hs.toNat))
  let w := v.etype.width
  let ls := gatherLanes w mask
  let lmask := ls.foldl (fun a i => a + 2 ^ i) 0
  let t ← guardedAfter t (t.pushCheck rd lmask)
  if s.srcUnmet [] os then s.settle os
  let (s0, cnt) ← guardedAfter t (s.handleCount h hs.toNat)
  let idx := (s.vVal rb.r 0).toNat
  let (s', ts) ← guardedAfter t (guardedAfter s0 (s0.laneChecks v hs.toNat cnt .gather idx ls))
  s.settle os
  let s' := s'.popV rb.r (if (s.me.boundTo rb.r).isSome then 1 else 0)
  if ts.all fun t => t.2.1.ownSpad s.unit.core then
    if ts.any fun t => s.readHeld s.who s.fresh t.2.1 (w / 8) then throw .hold
    let val (i : Nat) : Nat := match ts.find? fun t => t.1 == i with
      | some t => s.readNum s.who t.2.1 (w / 8)
      | none => 0
    let s'' ← s'.writeV rd (BitVec.ofNat 256 (ofLanes w ((List.range (256 / w)).map val))) w lmask
    .ok (s'', .fall)
  else
    s.slotFree
    let job := Job.gather (ts.map fun t => (t.1, t.2.1)) (w / 8)
    let dva := ((ts.find? fun t => match t.2.1 with | .host _ _ => true | _ => false).map fun t => t.2.2).getD 0
    let bytes := ls.foldl (fun a i => a + (2 ^ (w / 8) - 1) * 2 ^ (i * (w / 8))) 0
    match s'.me.boundTo rd with
    | some st =>
      let (tag, s'') ← s'.pushV rd st none lmask
      .ok (s''.swapOut (.v rd (BitVec.ofNat 32 bytes) (some (rd.toNat, tag))) job none dva, .fall)
    | none => .ok (s'.swapOut (.v rd (BitVec.ofNat 32 bytes) none) job none dva, .fall)

/-- R299: the new value of an atomic lane. -/
def scatNew (op : ScatOp) (t : Fmt) (old v : Nat) : Nat :=
  if t.isFloat then
    match op with
    | .plain => v
    | .add => (roundTo t (fsum 0 [t.value old, t.value v]).1 0 false).1
    | .min => (roundTo t (fmin (t.value old) (t.value v)) 0 false).1
    | .max => (roundTo t (fmax (t.value old) (t.value v)) 0 false).1
  else
    match op with
    | .plain => v
    | .add => (old + v) % 2 ^ t.width
    | .min => if t.int v < t.int old then v else old
    | .max => if t.int old < t.int v then v else old

/-- R299: the element types of atomic scatters. -/
def scatFmt : Fmt → Bool
  | .f32 | .f64 | .s32 | .s64 | .n32 | .n64 => true
  | _ => false

def effHsca (op : ScatOp) (hd : BitVec 3) (ra rb : Src) (m : BitVec 3) (s : State) : Res := do
  let os := [.v ra, .v rb]
  let h := s.view.h[hd.toNat]
  let v := hview h
  s.emptyTrap [] os
  let t ← s.streamGuards [] os
  guardedAfter t (guardC (handleValid h && v.etype != .f4 && (op == .plain || scatFmt v.etype)) .hfmt 0 (dw hd.toNat))
  if (s.unmet [.v ra] (.v rb)).isSome then s.settle os
  let w := v.etype.width
  let (s0, cnt) ← guardedAfter t (s.handleCount h hd.toNat)
  let (vs, s1) := s0.readVs [ra.r, rb.r]
  let data := (vs.getD 0 0).toNat
  let idx := (vs.getD 1 0).toNat
  let (s2, ts) ← guardedAfter t (guardedAfter s0
    (s1.laneChecks v hd.toNat cnt (if op = .plain then .scatter else .scatterAmo) idx (gatherLanes w (s.kmask m))))
  s.settle os
  let s3 := { s2 with fresh := s2.fresh + 1 }
  let passed : Byte := BitVec.ofNat 8 (ts.foldl (fun m t => m + 2 ^ t.1) 0)
  .ok (ts.foldl (fun st t =>
    let x := lane data w t.1
    st.issueStore t.2.1 (if op = .plain then .bytes (toBytes (w / 8) x) else .scat op v.etype (dw x) s2.fresh t.1 passed)
      (if op = .plain then .ef else .ga) none t.2.2) s3, .fall)

/-! ### Issuing requests (R284, R285) -/

/-- R283: the guard of MXISSUE. -/
def State.issuerCheck (s : State) : Except Stop Unit :=
  let slot := (s.cluster (clOf s.unit.core)).mxissuer.toNat
  guardC (slotOf s.unit.core == slot) .mxissue 0 (dw slot)

/-- R285: accept a request, if an entry is free. -/
def State.accept (s : State) (op : MOp) : Res :=
  let cl := clOf s.unit.core
  let c := s.cluster cl
  if 8 ≤ c.mreqs.length then .error .hold
  else
    let r : MReq := { who := s.who, id := s.fresh, op := op, fmt := s.view.fmt }
    .ok ({ s.setCluster cl { c with mreqs := c.mreqs ++ [r] } with fresh := s.fresh + 1 }, .fall)

/-- The fields of FMT (R176). -/
def fmtA (f : DWord) : Fmt := Fmt.ofCode (BitVec.ofNat 4 (fld f 15 12))
def fmtB (f : DWord) : Fmt := Fmt.ofCode (BitVec.ofNat 4 (fld f 11 8))
def fmtD (f : DWord) : Fmt := Fmt.ofCode (BitVec.ofNat 4 (fld f 7 4))
def fmtSat (f : DWord) : Bool := f.getLsbD 3
/-- The fixed scale, in fixed mode. -/
def fmtFix (f : DWord) : Option Nat := if f.getLsbD 2 then some (fld f 23 16) else none

/-- R290: the pairs that a product accepts. -/
def pairOk (a b : Fmt) : Bool :=
  match a, b with
  | .bf16, .bf16 => true
  | .f16, .f16 => true
  | .f8a, .f8a => true
  | .f8a, .f8b => true
  | .f8b, .f8a => true
  | .f8b, .f8b => true
  | .s8, .s8 => true
  | .f4, .f4 => true
  | _, _ => false

/-- R290: the formats of FMT.fd. -/
def fdOk : Fmt → Bool
  | .f32 | .f16 | .bf16 | .f8a | .f8b | .f4 | .s8 | .s16 => true
  | _ => false

/-- R301, R307: the byte of a range lies in the issuing cluster's scratchpad and in the share. -/
def State.blockByte (s : State) (a : DWord) (n : Nat) (write : Bool) : Except AFail Unit :=
  let cl := clOf s.unit.core
  let (lo, hi) := shareOf s.myCtx
  let at' (off : Nat) : Except AFail Unit :=
    if inShare s.myCtx cl off n then .ok ()
    else
      let b := if lo ≤ off ∧ off < hi then hi else off
      if b < 0x100000 then .error (.trap .window (a + dw (b - off)) (dw (3 + 10 * 256))) else .error (.trap .kind (a + dw (b - off)) 5)
  match classify a with
  | .none => .error (.trap .kind a 1)
  | .local off => at' off
  | .onchip lid off => if lid = cl * 128 + 80 then at' off else .error (.trap .kind a 5)
  | .peer _ _ => .error (.trap .kind a (if write then 5 else 3))
  | .paged => .error (.trap .kind a 5)

/-- R295, R301, R307: the checks of a block: the region first, then the places. -/
def State.blockChecks (s : State) (h : HWord) (hn k : Nat) (write : Bool) : Except Stop Unit := do
  let rs := blockRanges h k
  match rs.findSome? fun r => outsideRegion (hview h) r.1 r.2 with
  | some b => throw (.trap .hregion b (dw hn))
  | none => chk 0 (rs.forM fun r => s.blockByte r.1 r.2 write)

/-- R301: a handle register holds an operand of a format for a product of depth k; `kinds`: what its level 0 may be (DEDUCED, log 41). -/
def State.operand (s : State) (hn : BitVec 3) (f : Fmt) (k : Nat) (kinds : List Nat) : Except Stop HWord := do
  let h := s.view.h[hn.toNat]
  let v := hview h
  guardC (handleValid h) .hfmt 0 (dw hn.toNat)
  guardC (v.etype == f) .mxfmt 0 (dw v.etype.code.toNat)
  guardC (v.nlev == 2) .hfmt 0 (dw hn.toNat)
  guardC (v.o0 % 48 == 0 && decide (v.o0 + k ≤ v.ext 0) && decide (v.o1 + 64 ≤ v.ext 1)) .mxarg 0 (hdw h 2)
  if v.kind 0 ≠ 1 then s.blockChecks h hn.toNat k false
  guardC (kinds.contains (v.kind 0)) .mxarg 0 (hdw h 0)
  .ok h

/-- R302: a product of A and B from handles. -/
def product (c : BitVec 4) (ha hb : BitVec 3) (k : BitVec 5) (kb : Nat) (s : State) : Res := do
  s.issuerCheck
  let f := s.view.fmt
  guardC (pairOk (fmtA f) (fmtB f)) .mxfmt 0 f
  let n := 48 * (k.toNat + 1)
  let a ← s.operand ha (fmtA f) n [0]
  let b ← s.operand hb (fmtB f) n [kb]
  s.accept (.product c.toNat (some a) 0 b n)

def effMma (c : BitVec 4) (ha hb : BitVec 3) (k : BitVec 5) : State → Res := product c ha hb k 0
def effMmas (c : BitVec 4) (ha hb : BitVec 3) (k : BitVec 5) : State → Res := product c ha hb k 2

def effMmac (c src : BitVec 4) (hb : BitVec 3) (k : BitVec 5) (s : State) : Res := do
  s.issuerCheck
  let f := s.view.fmt
  guardC (pairOk (fmtA f) (fmtB f)) .mxfmt 0 f
  let n := 48 * (k.toNat + 1)
  let nt := (n + 63) / 64
  let a := src.toNat
  guardC (decide (n ≤ 1024)) .mxarg 0 (dw n)
  guardC (decide (a + nt ≤ 16)) .mxarg 0 (dw a)
  guardC (!decide (a ≤ c.toNat ∧ c.toNat < a + nt)) .mxarg 0 (dw c.toNat)
  guardC (fmtD f == fmtA f) .mxfmt 0 f
  let b ← s.operand hb (fmtB f) n [0, 2]
  s.accept (.product c.toNat none a b n)

def effMxfmt (sat : Bool) (fa fb fd : BitVec 4) (s : State) : Res :=
  let i := s.me
  .ok (s.setMe { i with fmt := setFld (setFld i.fmt 15 4 (fa.toNat * 256 + fb.toNat * 16 + fd.toNat)) 3 3 (b2n sat) }, .fall)

def effAccz (t : BitVec 4) (s : State) : Res := do
  s.issuerCheck
  s.accept (.zero t.toNat)

def effAccrd (t : BitVec 4) (ra : Src) (s : State) : Res := do
  s.issuerCheck
  s.ready [.x ra]
  let v := s.xVal ra.r
  guardC (fld v 63 14 == 0 && fld v 7 6 == 0) .mxarg 0 v
  let n := fld v 13 8 + 1
  guardC (decide (fld v 5 0 + n ≤ 64)) .mxarg 0 v
  s.accept (.read t.toNat (fld v 5 0) 0 n)

def effAccdc (t : BitVec 4) (hd : BitVec 3) (w : BitVec 5) (s : State) : Res := do
  s.issuerCheck
  let f := s.view.fmt
  let n := 16 * (w.toNat + 1)
  let nt := (n + 63) / 64
  let bs := blockScaled (fmtD f)
  guardC (fdOk (fmtD f)) .mxfmt 0 f
  guardC (decide (t.toNat + nt ≤ 16)) .mxarg 0 (dw t.toNat)
  guardC (!bs || n % 48 == 0) .mxarg 0 (dw n)
  let h := s.view.h[hd.toNat]
  let v := hview h
  guardC (handleValid h && v.etype == fmtD f && v.nlev == 2 && v.kind 0 == 0 && decide (v.o1 + 64 ≤ v.ext 1) &&
    decide (v.o0 + n ≤ v.ext 0) && (!bs || v.o0 % 48 == 0)) .hfmt 0 (dw hd.toNat)
  s.blockChecks h hd.toNat n true
  s.accept (.down t.toNat h n)

/-! ### Executing requests (R302, R305, R307) -/

/-- An element of an operand: its encoding and its scale byte (R140). -/
abbrev Elem := Nat × Nat

/-- The value of an element in its format. -/
def elemVal (t : Fmt) (e : Elem) : FVal := if e.2 = 0xFF then .nan else (t.value e.1).scale ((e.2 : Int) - 127)

/-- A list cut into pieces of n, at most `fuel` of them. -/
def pieces {α : Type} (n : Nat) : Nat → List α → List (List α)
  | 0, _ => []
  | f + 1, l => l.take n :: pieces n f (l.drop n)

/-- Row x of an operand (R294, R301), group by group: position in the group, and element. -/
def State.operandRow (s : State) (cl : Nat) (h : HWord) (k x : Nat) : List (List (Nat × Elem)) :=
  let v := hview h
  let r := v.o1 + x
  let w := v.etype.width
  let seeded := v.kind 0 == 2
  let n := if seeded then v.n else 48
  let g0 := v.o0 / 48
  let start := if seeded then (r * (v.ext 0 / 48) + g0) * v.n else v.o0 + v.ext 0 * r
  let place (a : DWord) : Nat := spadPlace cl (a.toNat % 2 ^ 24)
  let gs := k / 48
  let raw := ofBytes (s.getBytes (place (v.values + dw (start * w / 8))) (gs * n * w / 8))
  let elems := (List.range (gs * n)).map fun q => lane raw w q
  let scales := if blockScaled v.etype then
      (s.getBytes (place (v.aux0 + dw (r * (v.ext 0 / 48) + g0))) gs).map BitVec.toNat else List.replicate gs 127
  (pieces n gs elems).zipIdx.map fun p =>
    let pos := if seeded then keptPositions v.seed r (g0 + p.2) v.n else List.range 48
    pos.zip (p.1.map fun e => (e, scales.getD p.2 127))

/-- A row of a tile: its 64 elements. -/
def State.tileRow (s : State) (cl t i : Nat) : List Nat :=
  let raw := ofBytes (s.getBytes (accPlace cl (t * 0x4000 + i * 256)) 256)
  (List.range 64).map fun j => lane raw 32 j

/-- R302: row i of A down-converted from tiles, with its flags. -/
def State.convRow (s : State) (cl src i k : Nat) (fmt : DWord) : Flagged (List (List (Nat × Elem))) :=
  let xs := ((List.range ((k + 63) / 64)).flatMap fun t => s.tileRow cl (src + t) i).take k
  let gs := (pieces 48 (k / 48) xs).map fun g => downConvert g (fmtD fmt) (fmtSat fmt) (fmtFix fmt)
  (gs.map fun g => (List.range 48).zip (g.1.1.map fun e => (e, g.1.2.getD 127)), gs.foldl (fun a g => a ||| g.2) 0)

/-- R151 to R153: one element of the tile over all its groups. -/
def elemSum (fa fb : Fmt) (old : Nat) (a b : List (List (Nat × Elem))) : Flagged Nat :=
  (a.zip b).foldl (fun c g =>
    let at' (p : Nat) : Elem := ((g.1.find? fun x => x.1 == p).map Prod.snd).getD (0, 127)
    if fa = .s8 then (groupStepInt c.1 (g.2.map fun x => (fa.int (at' x.1).1, fb.int x.2.1)), c.2)
    else
      let r := groupStep c.1 (g.2.map fun x => (elemVal fa (at' x.1), elemVal fb x.2))
      (r.1, c.2 ||| r.2)) (old, 0)

/-- R143: flags merged into the issuing fibre's FSTATUS. -/
def State.mergeInto (s : State) (w : Who) (fl : Nat) : State :=
  if (s.who? w).isSome then
    let i := s.img w.core w.ctx
    s.setImg w.core w.ctx { i with fstatus := i.fstatus ||| dw fl }
  else s

/-- R302: a product is executed. -/
def State.runProduct (s : State) (cl : Nat) (r : MReq) (c : Nat) (a : Option HWord) (src : Nat) (b : HWord) (k : Nat) : State :=
  let fa := fmtA r.fmt
  let fb := fmtB r.fmt
  let cols := (List.range 64).map fun j => s.operandRow cl b k j
  let rows : List (List Nat × Nat) := (List.range 64).map fun i =>
    let (ar, fl) : Flagged (List (List (Nat × Elem))) := match a with
      | some h => (s.operandRow cl h k i, 0)
      | none => s.convRow cl src i k r.fmt
    let es : List (Flagged Nat) := ((s.tileRow cl c i).zip cols).map fun x => elemSum fa fb x.1 ar x.2
    (es.map Prod.fst, es.foldl (fun f e => f ||| e.2) fl)
  let s1 := s.putBytes (accPlace cl (c * 0x4000)) (rows.flatMap fun x => x.1.flatMap (toBytes 4))
  s1.mergeInto r.who (rows.foldl (fun f (x : List Nat × Nat) => f ||| x.2) 0)

/-- R307: a down-conversion is executed. -/
def State.runDown (s : State) (cl : Nat) (r : MReq) (t : Nat) (h : HWord) (w : Nat) : State :=
  let v := hview h
  let f := fmtD r.fmt
  let place (a : DWord) : Nat := spadPlace cl (a.toNat % 2 ^ 24)
  (List.range 64).foldl (fun st i =>
    let xs := ((List.range ((w + 63) / 64)).flatMap fun k => s.tileRow cl (t + k) i).take w
    let gs := if blockScaled f then
        (pieces 48 (w / 48) xs).map fun g => downConvert g f (fmtSat r.fmt) (fmtFix r.fmt)
      else [downConvert xs f (fmtSat r.fmt) (fmtFix r.fmt)]
    let row := v.o1 + i
    let bits := ofLanes f.width (gs.flatMap fun g => g.1.1)
    let st := st.writeTarget r.who.ctx (.mem (place (v.values + dw ((v.o0 + v.ext 0 * row) * f.width / 8)))) (toBytes (w * f.width / 8) bits)
    let st := if blockScaled f then
        st.writeTarget r.who.ctx (.mem (place (v.aux0 + dw (row * (v.ext 0 / 48) + v.o0 / 48))))
          (gs.map fun g => BitVec.ofNat 8 (g.1.2.getD 0))
      else st
    st.mergeInto r.who (gs.foldl (fun a g => a ||| g.2) 0)) s

/-- The effect of a request at its end; `accrd` has had its effect by then. -/
def State.runRequest (s : State) (cl : Nat) (r : MReq) : State :=
  match r.op with
  | .product c a src b k => s.runProduct cl r c a src b k
  | .zero t => s.zeroRange (accPlace cl (t * 0x4000)) (accPlace cl ((t + 1) * 0x4000))
  | .read _ _ _ _ => s
  | .down t d w => s.runDown cl r t d w

/-- R292: the requests that use FMT. -/
def MOp.usesFmt : MOp → Bool
  | .product _ _ _ _ _ => true
  | .down _ _ _ => true
  | _ => false

end Sys2Proof.Machine
end

