-- ==== Sys2Proof/Machine/Sync.lean ====
section
/-! DEFINITION. Fill words (R231 to R234, R238), tokens (R235 to R237), hardware semaphores (R287 to R289) and `wfe` (R211). -/
namespace Sys2Proof.Machine

/-- R413: a handler fibre may not wait. -/
def State.handlerGuard (s : State) : Except Stop Unit := guardC (s.myFibre.kind != 2#2) .hwait

/-! ### Fill words (R232 to R234) -/

/-- R232: the place of a fill-word operand of n fill words. -/
def State.fillPlace (s : State) (a : DWord) (n : Nat) : Except Stop (Nat × Nat) :=
  chk 0 (s.fillWord s.unit.core s.unit.ctx a n)

def effSyncinit (rd : Reg) (ra : Src) (s : State) : Res := do
  let os := [.x ⟨rd, false⟩, .x ra]
  s.enterFor [.x ra] os
  let (cl, off) ← s.fillPlace (s.xVal ra.r) 1
  s.settle os
  let v := s.xVal rd
  .ok (s.issueStore (.mem (spadPlace cl off)) (.init (BitVec.ofNat 32 (fld v 31 0)) (BitVec.ofNat 16 (fld v 47 32))) .ef none
    (s.xVal ra.r), .fall)

def effSyncarr (rd : Reg) (ra : Src) (s : State) : Res := do
  let os := [.dx rd, .x ra]
  s.enter os
  let (cl, off) ← s.fillPlace (s.xVal ra.r) 1
  s.settle os
  let j := jointCl s.unit.core cl
  let s' := s.demote s.unit.ctx j
  let rel := s.capped s.unit.ctx j
  if cl = clOf s.unit.core then
    if s.orderKept s.who s.fresh false (some rel) then
      let a := spadPlace cl off
      .ok (((s'.countFill s.unit.ctx cl off 0 1 [s.unit.core]).publish s.who s.fresh a).writeX rd (dw (s.fillGen a)), .fall)
    else .error .hold
  else
    s.slotFree
    .ok (s'.swapOut (.x rd) (.arrive (spadPlace cl off)) (some rel), .fall)

def effSyncwait (rd : Reg) (ra : Src) (s : State) : Res := do
  s.handlerGuard
  let os := [.x ⟨rd, false⟩, .x ra]
  s.enterFor [.x ra] os
  let (cl, off) ← s.fillPlace (s.xVal ra.r) 1
  s.settle os
  let a := spadPlace cl off
  if s.ownStoreBefore s.who s.fresh s.fresh (.mem a) 16 then .error .hold
  else
    let g := s.fillGen a
    if g = fld (s.xVal rd) 31 0 then .error (.wait 3 ra.r.toNat (.fill a g))
    else .ok (((s.observe s.who a).demote s.unit.ctx (jointCl s.unit.core cl)).writeX rd (dw g), .fall)

/-- R238: the first of eight fill words, from a start, whose generation has changed. -/
def State.changed (s : State) (a : Nat) (mask : Nat) (w : DWord) : Option Nat :=
  let st := fld w 58 56 + 1
  ((List.range 8).map fun n => (st + n) % 8).find? fun i =>
    mask.testBit i && s.fillGen (a + 16 * i) % 128 != fld w (7 * i + 6) (7 * i)

/-- R237, R238: nothing to wait for. -/
def nothing : DWord := 0x8000000000000000#64

def effWaitanyF (rd : Reg) (ra : Src) (mask : BitVec 8) (s : State) : Res := do
  s.handlerGuard
  let os := [.x ⟨rd, false⟩, .x ra]
  s.enterFor [.x ra] os
  let f := s.xVal ra.r
  let w := s.xVal rd
  guardC (f.toNat % 128 == 0) .align f 128
  let (cl, off) ← s.fillPlace f 8
  s.settle os
  let a := spadPlace cl off
  if s.ownStoreBefore s.who s.fresh s.fresh (.mem a) 128 then throw .hold
  match s.changed a mask.toNat w with
  | some i =>
    let w := setFld (setFld (setFld w (7 * i + 6) (7 * i) (s.fillGen (a + 16 * i))) 58 56 i) 63 59 0
    .ok (((s.observe s.who (a + 16 * i)).demote s.unit.ctx (jointCl s.unit.core cl)).writeX rd w, .fall)
  | none =>
    if mask = 0#8 then .ok (s.writeX rd nothing, .fall)
    else .error (.wait 3 ra.r.toNat (.fills a mask w))

/-! ### Tokens (R235 to R237) -/

/-- The masked tokens of a fibre in a state. -/
def Fibre.tokensIn (f : Fibre) (mask : BitVec 8) (v : Nat) : List Nat :=
  (List.range 8).filter fun i => mask.getLsbD i && f.token i == v

def effWaitt (mask : BitVec 8) (s : State) : Res := do
  s.handlerGuard
  let f := s.myFibre
  if (f.tokensIn mask 1).isEmpty then
    .ok (s.setMyFibre ((f.tokensIn mask 2).foldl (fun f i => f.setToken i 0) f), .fall)
  else .error (.wait 4 mask.toNat (.tokens mask))

def effWaitany (rd : Reg) (mask : BitVec 8) (s : State) : Res := do
  s.handlerGuard
  s.enter [.x ⟨rd, false⟩]
  let f := s.myFibre
  let st := fld (s.xVal rd) 2 0 + 1
  match ((List.range 8).map fun n => (st + n) % 8).find? fun i => mask.getLsbD i && f.token i == 2 with
  | some i => .ok ((s.setMyFibre (f.setToken i 0)).writeX rd (dw i), .fall)
  | none =>
    if (f.tokensIn mask 1).isEmpty then .ok (s.writeX rd nothing, .fall)
    else .error (.wait 4 mask.toNat (.anyToken mask))

/-! ### Semaphores (R287 to R289) -/

/-- R288: the issuing context holds its cluster's semaphores. -/
def State.semGuard (s : State) : Except Stop Unit :=
  guardC (s.holder (clOf s.unit.core) == some s.unit.ctx) .window 0 (dw (3 + 10 * 256))

/-- The count of a semaphore of the issuing cluster. -/
def State.sem (s : State) (n : BitVec 4) : Nat := ((s.cluster (clOf s.unit.core)).hs[n.toNat]).toNat

def effSemwait (n : BitVec 4) (s : State) : Res := do
  s.handlerGuard
  s.semGuard
  if s.sem n = 0 then .error (.wait 5 n.toNat (.sem n.toNat))
  else
    let k := semKey (clOf s.unit.core) n.toNat
    let s' := s.acquireAt s.who k 1 (s.capped s.unit.ctx .cl) none
    .ok (((if s.sem n = 1 then s'.endRels k else s').demote s.unit.ctx .cl).setSem (clOf s.unit.core) n.toNat (s.sem n - 1), .fall)

/-- R287, R117: the post is a release at `.cl`. -/
def effSempost (n : BitVec 4) (cnt : BitVec 6) (s : State) : Res := do
  s.semGuard
  if s.orderKept s.who s.fresh false (some (s.capped s.unit.ctx .cl)) then
    let sc := s.capped s.unit.ctx .cl
    .ok (((s.publishAt s.who s.fresh (semKey (clOf s.unit.core) n.toNat) 1 sc s.fresh).demote s.unit.ctx .cl).setSem (clOf s.unit.core) n.toNat
      (min 65535 (s.sem n + (cnt.toNat + 1))), .fall)
  else .error .hold

/-! ### `wfe` (R211) -/

def effWfe (rd : Reg) (mask : BitVec 8) (s : State) : Res := do
  s.handlerGuard
  let c := s.hwPreds s.unit.core s.unit.ctx
  s.ready [.dx rd, .cond (c &&& mask != 0 || mask == 0) 2 mask.toNat (.hw mask)]
  .ok (s.writeX rd (c.setWidth 64), .fall)

end Sys2Proof.Machine
end

