-- ==== Sys2Proof/Machine/Copy.lean ====
section
/-! DEFINITION. Issuing copies (R309 to R315, R123, R443, R453): the parameter register, the checks in their order, ownership of
the destination lines, and the queues of the engines. -/
namespace Sys2Proof.Machine

/-! ### The parameter register (R310) -/

structure CopyParam where
  fwoff : Nat
  fwen : Bool
  ren : Bool
  rtok : BitVec 3
  ven : Bool
  vtok : BitVec 3
  order : Nat
  length : Nat

def copyParam (p : DWord) : CopyParam :=
  { fwoff := fld p 63 48 * 16, fwen := p.getLsbD 47, ren := p.getLsbD 43, rtok := BitVec.ofNat 3 (fld p 42 40),
    ven := p.getLsbD 39, vtok := BitVec.ofNat 3 (fld p 38 36), order := fld p 35 32, length := fld p 31 0 }

/-- The three forms of R309. -/
inductive CopyForm | plain | multi | xfer
  deriving DecidableEq, Repr

/-- The tokens that a copy tracks, as a mask. -/
def CopyParam.tokens (p : CopyParam) : BitVec 8 :=
  BitVec.ofNat 8 ((if p.ren then 2 ^ p.rtok.toNat else 0) ||| (if p.ven then 2 ^ p.vtok.toNat else 0))

/-! ### The ranges (R311, R312) -/

/-- The kind of R78 of an address, with the window of an on-chip address and the package of a peer address. -/
def kindOf (a : DWord) : Nat × Nat :=
  match classify a with
  | .none => (0, 0)
  | .paged => (1, 0)
  | .peer pkg _ => (2, pkg)
  | .onchip lid _ => (3, lid)
  | .local _ => (4, 0)

/-- R312: a range lies wholly in one kind and, when on-chip, in one window. -/
def oneKind (a : DWord) (n : Nat) : Bool := decide (a.toNat + n ≤ 2 ^ 64) && kindOf a == kindOf (a + dw (n - 1))

/-- A slot-10 address of a scratchpad, on-chip or local: its cluster. -/
def spadCluster (cl : Nat) (a : DWord) : Option Nat :=
  match classify a with
  | .onchip lid off => if bits lid 6 3 = 10 ∧ off < 0x100000 then some (lid / 128) else none
  | .local off => if off < 0x100000 then some cl else none
  | _ => none

/-- R311: the kinds of source and destination that a form may use. -/
def CopyForm.srcOk (f : CopyForm) (cl : Nat) (a : DWord) : Bool :=
  match f, classify a with
  | _, .paged => true
  | _, .none => true
  | .xfer, _ => false
  | _, _ => spadCluster cl a == some cl

def CopyForm.dstOk (f : CopyForm) (cl : Nat) (a : DWord) : Bool :=
  match f, classify a with
  | .xfer, .paged => true
  | .xfer, .none => true
  | .xfer, _ => false
  | .multi, .none => true
  | .multi, _ => (spadCluster cl a).isSome
  | .plain, .onchip lid _ => bits lid 6 3 != 15
  | .plain, _ => true

/-- R92, R349: `hold`: of a `copyx`, which the trust die translates; a host page that does not translate yet is noted for the held copy,
and the check goes on. -/
def State.resolveHeld (s : State) (k : AccKind) (a : DWord) (n : Nat) (hold : Bool) :
    Except AFail (State × Target × List (Nat × Nat × DWord)) :=
  let die := if hold then none else some (dieOfCore s.unit.core)
  match s.resolveOn die s.unit.core s.unit.ctx k a n with
  | .ok (s, t) => .ok (s, t, [])
  | .error (.hostMiss port page dva walk) =>
    if walk || !hold then .error (.hostMiss port page dva walk)
    else
      let h := s.host port
      match (s.setHost port { h with ats := page :: h.ats }).resolveOn die s.unit.core s.unit.ctx k a n with
      | .ok (s', t) => .ok (s'.setHost port h, t, [(port, page, dva)])
      | .error e => .error e
  | .error e => .error e

/-- R312, R440: the checks of a range, piece by piece within 128-byte lines; the first failing byte decides. Each piece is its
offset in the copy, its length and its target. -/
def State.rangePieces (s : State) (k : AccKind) (a : DWord) (n : Nat) (hold : Bool) (off : Nat) :
    Nat → Except AFail (State × List (Nat × Nat × Target) × List (Nat × Nat × DWord))
  | 0 => .ok (s, [], [])
  | fuel + 1 =>
    if n ≤ off then .ok (s, [], [])
    else
      let b := a + dw off
      let len := Min.min (128 - b.toNat % 128) (n - off)
      match s.resolveHeld k b len hold with
      | .error e =>
        match (List.range len).findSome? fun i => match s.resolveHeld k (b + dw i) 1 hold with
            | .error f => some f
            | .ok _ => none with
        | some f => .error f
        | none => .error e
      | .ok (s, t, h) => do
        let (s, ps, hs) ← checkedAfter s (s.rangePieces k a n hold (off + len) fuel)
        .ok (s, (off, len, t) :: ps, h ++ hs)

/-- The pieces of a source that give [lo, hi) of the copy. -/
def cutSource (ps : List (Nat × Nat × Target)) (lo hi : Nat) : List (Target × Nat) :=
  ps.filterMap fun p =>
    let a := max p.1 lo
    let b := min (p.1 + p.2.1) hi
    if a < b then
      let d := a - p.1
      some ((match p.2.2 with
        | .mem x => .mem (x + d)
        | .host q x => .host q (x + d)
        | .vreg c x => .vreg c (x + d)
        | .inbox c x => .inbox c (x + d)
        | .sem c i => .sem c i
        | .overman q x => .overman q (x + d)
        | .peer q x => .peer q (x + d)), b - a)
    else none

/-- R443: the first byte of one destination that a source byte's location overlaps, as an offset in the copy. -/
def overlapAt (src dst : List (Nat × Nat × Target)) : Option Nat :=
  let hits := dst.flatMap fun d => src.filterMap fun q =>
    let a := d.2.2.flat
    let b := q.2.2.flat
    if overlap a d.2.1 b q.2.1 then some (d.1 + (max a b - a)) else none
  hits.foldl (fun m x => some (match m with | some y => min x y | none => x)) none

/-! ### Issue (R312) -/

/-- The pages that a copy is held on, once each, with the first address in each. -/
def firstOfEach (hs : List (Nat × Nat × DWord)) : List (Nat × Nat × DWord) :=
  hs.foldl (fun l h => if l.any fun x => x.1 == h.1 && x.2.1 == h.2.1 then l else l ++ [h]) []

/-- R314: the destination clusters. -/
def copyClusters (form : CopyForm) (c order : Nat) : List Nat :=
  match form with
  | .multi => (List.range (2 ^ order)).map fun i => c / 2 ^ order * 2 ^ order + i
  | _ => [c]

/-- The v registers that destinations cover: core and register. -/
def coveredRegs (dst : List (Nat × Nat × Target)) : List (Nat × Nat) :=
  (dst.flatMap fun d => match d.2.2 with
    | .vreg core off => (List.range 32).filterMap fun r => if overlap (32 * r) 32 off d.2.1 then some (core, r) else none
    | _ => []).eraseDups

/-- R312, R64, R275: registers that a copy covers are marked empty, but for those bound to streams. -/
def State.emptyRegs (s : State) (ctx : Nat) (rs : List (Nat × Nat)) : State :=
  rs.foldl (fun s p =>
    let i := s.img p.1 ctx
    if p.2 < 4 ∧ (i.streams.toArray.getD p.2 {}).bind ≠ 0#2 then s else s.setImg p.1 ctx (i.setVfull p.2 false)) s

/-- Copies queued at the same engine. -/
def State.copiesAt (s : State) (cl : Option Nat) : Nat := (s.copies.filter fun p => p.2.cl == cl && !(p.2.released && p.2.visible)).length

/-- R108, R123, R126: an earlier access of the issuing fibre to a line of a copy, which the copy must follow, is not yet performed. -/
def State.copyMustWait (s : State) (ps : List (Nat × Nat × Target)) : Bool :=
  ps.any fun p =>
    s.ownStoreBefore s.who s.fresh s.fresh p.2.2 p.2.1 || s.matrixHolds s.who s.fresh p.2.2 p.2.1 true ||
    s.stores.any fun q => !q.2.granted && q.2.who.sameCore s.who && linesMeet p.2.2 p.2.1 q.2.t q.2.op.size

/-- The other clusters' targets of a `copym` destination. -/
def inCluster (cl : Nat) (t : Target) : Target :=
  match t with
  | .mem a => match spadOf a with
    | some (_, off) => .mem (spadPlace cl off)
    | none => t
  | _ => t

/-- R314: the first destination byte of `copym` at an offset that is outside the node or the share. -/
def copymBad (c : Ctx) (dcs : List Nat) (off n : Nat) : Option (Nat × Nat) :=
  (dcs.find? fun cl => !(nodeHolds c cl && inShare c cl off n)).map fun cl =>
    let (lo, hi) := shareOf c
    (cl, if nodeHolds c cl ∧ lo ≤ off ∧ off < hi then hi else off)

/-- R25: the on-chip address of a byte of a cluster's scratchpad. -/
def spadAddr (cl off : Nat) : DWord := dw (2 ^ 55 + (cl * 128 + 80) * 2 ^ 24 + off)

/-- R312: the token wait names both tokens that the copy tracks (DESIGN CHOICE, log 94). The order of the checks is R440's (DEDUCED,
log 42). -/
def copyOp (form : CopyForm) (rd : Reg) (ra rb : Src) (sc : Scope) (s : State) : Res := do
  s.enter [.x ⟨rd, false⟩, .x ra, .x rb]
  let d := s.xVal rd
  let src := s.xVal ra.r
  let pv := s.xVal rb.r
  let p := copyParam pv
  let n := p.length
  let cl := clOf s.unit.core
  guardC (fld pv 46 44 == 0 && (if form = .multi then decide (2 ^ p.order ≤ 64 * s.dies) else p.order == 0)) .copyarg d pv
  let f := s.myFibre
  let toks := p.tokens
  let pend := !(f.tokensIn toks 1).isEmpty
  if n = 0 then
    if pend then throw (.wait 4 toks.toNat (.tokens toks))
    .ok ((s.demote s.unit.ctx sc).setMyFibre ((ones toks.toNat 8).foldl (fun f i => f.setToken i 2) f), .fall)
  else
    let dc := spadCluster cl d
    guardC (!p.fwen || (form == .plain && dc.isSome) || form == .multi) .copyarg d pv
    guardC (oneKind src n && oneKind d n) .copyarg d pv
    let dcs := copyClusters form (dc.getD 0) p.order
    let fuel := n / 128 + 2
    guardC (form.srcOk cl src) .kind src 5
    let (s1, sp, h1) ← chk 8 (s.rangePieces .copySrc src n (form == .xfer) 0 fuel)
    guardedAfter s1 (guardC (form.dstOk cl d) .kind d 5)
    let (s2, dp, h2) ← guardedAfter s1 (chk 9 (s1.rangePieces .copyDst d n (form == .xfer) 0 fuel))
    let off := d.toNat % 2 ^ 24
    match (if form = .multi then copymBad s.myCtx dcs off n else none) with
    | some b => throw (.after s2 (.trap .window (spadAddr b.1 b.2) (dw (3 + 10 * 256))))
    | none => pure ()
    if p.fwen then
      guardedAfter s2 (chk 9 (dcs.forM fun c => (s.fillWord s.unit.core s.unit.ctx (spadAddr c p.fwoff) 1).map fun _ => ()))
    let all := if form = .multi then dcs.map fun c => dp.map fun x => (x.1, x.2.1, inCluster c x.2.2) else [dp]
    match (dcs.zip all).findSome? fun x => (overlapAt sp x.2).map fun o => (x.1, o) with
    | some (c, o) => throw (.after s2 (.trap .overlap (if form = .multi ∧ dc ≠ some c then spadAddr c (off + o) else d + dw o) 0))
    | none => pure ()
    if pend then throw (.wait 4 toks.toNat (.tokens toks))
    let engine := if form = .xfer then none else some cl
    if (if form = .xfer then 256 else 16) ≤ s.copiesAt engine || s.copyMustWait (sp ++ all.flatten) then throw .hold
    let id := s2.fresh
    let lines : List CLine := all.flatten.map fun x => { src := cutSource sp x.1 (x.1 + x.2.1), dst := x.2.2, len := x.2.1, off := x.1 }
    let held := firstOfEach (h1 ++ h2)
    let c : Copy :=
      { who := s.who, cl := engine, scope := s.capped s.unit.ctx sc, lines := lines, rtok := if p.ren then some p.rtok else none,
        vtok := if p.ven then some p.vtok else none, fill := if p.fwen then some p.fwoff else none, held := held, dva := d, sva := src,
        adm := s2.lookups }
    let s3 := (s2.demote s.unit.ctx sc).emptyRegs s.unit.ctx (coveredRegs dp)
    let s4 := held.foldl (fun st h => let hp := st.host h.1
      st.setHost h.1 { hp with asking := hp.asking ++ [{ who := s.who, page := h.2.1, copy := some id }] }) s3
    let f4 := s4.myFibre
    let s5 := s4.setMyFibre ((ones toks.toNat 8).foldl (fun f i => f.setToken i 1) f4)
    .ok ({ s5 with copies := tset s5.copies id c, fresh := id + 1 }, .fall)

def effCopy (rd : Reg) (ra rb : Src) (sc : Scope) : State → Res := copyOp .plain rd ra rb sc
def effCopym (rd : Reg) (ra rb : Src) (sc : Scope) : State → Res := copyOp .multi rd ra rb sc
def effCopyx (rd : Reg) (ra rb : Src) (sc : Scope) : State → Res := copyOp .xfer rd ra rb sc

end Sys2Proof.Machine
end

