-- ==== Sys2Proof/Machine/Control.lean ====
section
/-! DEFINITION. Transfers of control, hardware loops, fibres, service calls, special registers, `ifence` and `ckpt`
(R197 to R210). -/
namespace Sys2Proof.Machine

/-! ### Transfers (R197, R198) -/

/-- R197: pc + 4 × sext(disp19). -/
def State.relTarget (s : State) (disp : BitVec 19) : DWord := s.unit.pc + disp.signExtend 64 * 4

def effBr (disp : BitVec 19) (s : State) : Res := .ok (s, .jump (s.relTarget disp))
def effBp (pn : BitVec 4) (disp : BitVec 19) (s : State) : Res :=
  .ok (s, if s.pred pn.toNat then .jump (s.relTarget disp) else .fall)
def effBpn (pn : BitVec 4) (disp : BitVec 19) (s : State) : Res :=
  .ok (s, if s.pred pn.toNat then .fall else .jump (s.relTarget disp))

def effCall (rd : Reg) (disp : BitVec 19) (s : State) : Res := do
  s.ready [.dx rd]
  .ok (s.writeX rd s.unit.unitEnd, .jump (s.relTarget disp))

/-- R198: a jump to a register target, which writes a link where there is one. -/
def jumpReg (rd : Option Reg) (ra : Src) (s : State) : Res := do
  let os := (match rd with | some r => [Opnd.dx r] | none => []) ++ [.x ra]
  s.enter os
  let t := s.xVal ra.r
  guardC (t.toNat % 4 == 0) .align t 4
  s.settle os
  .ok (match rd with | some r => s.writeX r s.unit.unitEnd | none => s, .jump t)

def effJr (ra : Src) : State → Res := jumpReg none ra
def effCallr (rd : Reg) (ra : Src) : State → Res := jumpReg (some rd) ra
def effRet (ra : Src) : State → Res := jumpReg none ra

/-! ### Loops (R200) -/

/-- R200: set a level, or skip the body. -/
def setLoop (l : Fin 2) (n : DWord) (disp : BitVec 12) (s : State) : Res := do
  let e := s.unit.pc + dw (4 * disp.toNat)
  guardC (decide (s.unit.unitEnd.toNat ≤ e.toNat)) .loop e n
  let i := s.me
  let s' := s.setMe { i with lb := i.lb.set l s.unit.unitEnd, le := i.le.set l e, lc := i.lc.set l n, rep := i.rep.settled l }
  .ok (s', if n = 0 then .jump (e + 4) else .fall)

def effLpset0 (count disp : BitVec 12) : State → Res := setLoop 0 (count.setWidth 64) disp
def effLpset1 (count disp : BitVec 12) : State → Res := setLoop 1 (count.setWidth 64) disp
def effLpsetr0 (rc : Src) (disp : BitVec 12) (s : State) : Res := do
  s.ready [.x rc]
  setLoop 0 (s.xVal rc.r) disp s
def effLpsetr1 (rc : Src) (disp : BitVec 12) (s : State) : Res := do
  s.ready [.x rc]
  setLoop 1 (s.xVal rc.r) disp s

/-! ### Fibres (R204, R205) -/

/-- R204: the lowest of the issuer's x1 to x7 that is empty. -/
def State.emptyOf7 (s : State) : Option Reg := ([1, 2, 3, 4, 5, 6, 7] : List Reg).find? fun r => !s.xFull r

/-- R204, R332: `spawn` takes the entry that messages and upcalls leave. -/
def effSpawn (rd : Reg) (ra : Src) (level : BitVec 2) (s : State) : Res := do
  let os := [.dx rd, .x ra]
  s.enter os
  let t := s.xVal ra.r
  guardC (t.toNat % 4 == 0) .align t 4
  let e7 := (s.emptyOf7).getD 0
  s.settle (os ++ [.cond (s.emptyOf7).isNone 1 e7.toNat (.xreg e7)])
  if s.me.nextWaiter.any fun w => decide (w.2 ≤ 223) then throw .hold
  match s.me.freeIn 1 223 with
  | none => .ok (s.writeX rd 0, .fall)
  | some e =>
    let x := Vector.ofFn fun (k : Fin 8) => if k.val = 7 then 0 else s.xVal (BitVec.ofNat 5 (k.val + 1))
    let f : Fibre := { pc := t, st := .ready, level := level, kind := 1, fe := 0xFF, x := x, uid := s.fresh, crew := s.myFibre.crew }
    let s1 := { s with fresh := s.fresh + 1 }.setMe (s.me.setFibre e f)
    let s2 := match f.crew with | some id => s1.crewMore id | none => s1
    .ok (s2.writeX rd (dw e), .fall)

def effYield (s : State) : Res := .ok (s, .fall)

/-! ### Service calls (R207) -/

def effSys (num : BitVec 12) (s : State) : Res := .ok (s, .freeze .sys (num.setWidth 64) s.unit.unitEnd)
def effBrk (num : BitVec 12) (s : State) : Res := .ok (s, .freeze .brk (num.setWidth 64) s.unit.pc)

/-! ### Special registers (R175 to R178, R208) -/

/-- R481: a die's core clock, in fifths of a period per tick: 1200 − 60 × level MHz. -/
def Die.rate (d : Die) : Nat := 60 - 3 * d.level.toNat

/-- R175: CYCLE, which may have advanced within the tick (DESIGN CHOICE, log 9). -/
def State.cycleNow (s : State) (die : Nat) : DWord × State :=
  let d := s.dieOf die
  let left := d.rate - d.phase
  let ph := if left = 0 then d.phase else d.phase + Config.cyclePhase s.fresh % left
  (dw ((d.cyc + ph) / 5), { s.setDie die { d with phase := ph } with fresh := s.fresh + 1 })

/-- R177. -/
def State.fibreReg (s : State) : DWord :=
  let f := s.myFibre
  dw (f.kind.toNat * 2 ^ 10 + f.level.toNat * 2 ^ 8 + s.unit.entry)

/-- R175: the loop registers: the level and which of its three. -/
def loopReg (code : Nat) : Option (Fin 2 × Nat) :=
  if 0x20 ≤ code ∧ code ≤ 0x22 then some (0, code - 0x20) else if 0x24 ≤ code ∧ code ≤ 0x26 then some (1, code - 0x24) else none

/-- R175: the value of a special register, none for a code that names none. -/
def State.spr (s : State) (code : Nat) : Option (DWord × State) :=
  let i := s.view
  match code with
  | 0x000 => some (i.fmt, s)
  | 0x001 => some (i.fctl, s)
  | 0x002 => some (i.fstatus, s)
  | 0x008 => some (dw s.tick, s)
  | 0x009 => some (s.cycleNow (dieOfCore s.unit.core))
  | 0x010 => some (dw (lidOf s.unit.core), s)
  | 0x011 => some (s.ctxid s.unit.ctx, s)
  | 0x012 => some (s.fibreReg, s)
  | 0x018 => some ((s.cluster (clOf s.unit.core)).mxissuer.setWidth 64, s)
  | _ => match loopReg code with
    | some (l, 0) => some (i.lb[l], s)
    | some (l, 1) => some (i.le[l], s)
    | some (l, _) => some (i.lcNow l, s)
    | none => none

/-- R144: a replay is under way, behind which a read or write of FCTL or FSTATUS by the primary waits. -/
def State.fpBusy (s : State) (code : Nat) : Bool := (code == 1 || code == 2) && s.isPrimary && s.me.rep.running

def effMfs (rd : Reg) (spr : BitVec 13) (s : State) : Res := do
  match s.spr spr.toNat with
  | none => throw (.trap .spr 0 0)
  | some (v, s') =>
    s.ready [.dx rd]
    if s.fpBusy spr.toNat then throw .hold
    .ok (s'.writeX rd v, .fall)

/-- R284, R288: the matrix-issue right moves: another context may come to hold the cluster's semaphores and copy core. The accumulator
tiles stay as they are, and the copy core's fibres stop with their context (DESIGN CHOICE, log 90). -/
def State.moveIssuer (s : State) (cl : Nat) (slot : BitVec 3) : State :=
  let old := s.holder cl
  let c := s.cluster cl
  let s1 := s.setCluster cl { c with mxissuer := slot }
  let new := s1.holder cl
  if old = new then s1
  else
    let s2 := match old with
      | some n => { s1 with sems := tset s1.sems (n * 512 + cl) c.hs }
      | none => s1
    let hs := match new with
      | some n => (tget s2.sems (n * 512 + cl)).getD (Vector.replicate 16 0)
      | none => Vector.replicate 16 0
    let s3 := s2.setCluster cl { s2.cluster cl with hs := hs }
    s3.setCore (coreAt cl 8) { s3.core (coreAt cl 8) with res := new }

/-- R208: write a special register that is RW to the issuer; none for any other. -/
def State.writeSpr (s : State) (code : Nat) (v : DWord) : Option State :=
  let i := s.me
  match code with
  | 0x000 => some (s.setMe { i with fmt := v })
  | 0x001 => some (s.setMe { i with fctl := v })
  | 0x002 => some (s.setMe { i with fstatus := v })
  | 0x018 => if s.unit.ctx = 0 then some (s.moveIssuer (clOf s.unit.core) (BitVec.ofNat 3 v.toNat)) else none
  | _ => match loopReg code with
    | some (l, 0) => some (s.setMe { i with lb := i.lb.set l v })
    | some (l, 1) => some (s.setMe { i with le := i.le.set l v })
    | some (l, _) => some (s.setMe { i with lc := i.lc.set l v, rep := i.rep.settled l })
    | none => none

/-- R284: a request accepted from the issuer of a cluster has not finished: one in the unit, or an `accrd` whose rows the issuer's q0 still
awaits. -/
def State.issuerBusy (s : State) (cl : Nat) : Bool :=
  !(s.cluster cl).mreqs.isEmpty || (s.holder cl).any fun n => !(s.img (s.issuerCore cl) n).cuts.isEmpty

def effMts (spr : BitVec 13) (ra : Src) (s : State) : Res := do
  s.ready [.x ra]
  let v := s.xVal ra.r
  let code := spr.toNat
  match s.writeSpr code v with
  | none => throw (.trap .spr 0 (if (s.spr code).isSome then v else 0))
  | some s' =>
    guardC (v &&& sprReserved code == 0) .spr 0 v
    if s.fpBusy code then throw .hold
    if code = 0x018 ∧ s.issuerBusy (clOf s.unit.core) then throw .hold
    .ok (s', .fall)

/-! ### `ifence` and `ckpt` (R130, R210) -/

def effIfence (s : State) : Res :=
  let cl := clOf s.unit.core
  .ok (s.setCluster cl { s.cluster cl with icache := [] }, .fall)

/-- R71, R72: a pre-emption request for a context is pending on a cluster. -/
def State.preempting (s : State) (cl ctx : Nat) : Bool := (s.cluster cl).preq.any fun p => p.ctx == ctx

def effCkpt (ra : Src) (s : State) : Res := do
  s.ready [.x ra]
  let t := s.xVal ra.r
  guardC (t.toNat % 8 == 0) .align t 8
  .ok (s, if s.preempting (clOf s.unit.core) s.unit.ctx then .ckpt t .fall else .fall)

end Sys2Proof.Machine
end

