-- ==== Sys2Proof/Machine/Place.lean ====
section
/-! DEFINITION. Where a crew may be placed and which context a core belongs to: target clusters and candidate nodes (R320, R323),
budgets (R344), contention and the next resident context (R328, R329). -/
namespace Sys2Proof.Machine

/-! ### Budgets (R344) -/

/-- A budget field that charges nothing. -/
def unmetered : DWord := 0xFFFFFFFFFFFFFFFF#64

/-- R344: the context, from one upward, whose budget is charged. -/
def State.charged (s : State) (n : Nat) : Option Nat := (s.upFrom n).find? fun m => (s.ctx m).budget != unmetered

/-- R344: a context whose charging budget is 0 does not contend (DEDUCED, log 26). -/
def State.funded (s : State) (n : Nat) : Bool :=
  match s.charged n with
  | some m => (s.ctx m).budget != 0#64
  | none => true

/-! ### Candidates (R320, R323) -/

/-- R99: the die of the translation unit that translates placement addresses: that of the quadrant of the context's node base (DESIGN
CHOICE, log 105). -/
def State.placeDie (s : State) (ctx : Nat) : Option Nat := some ((s.ctx ctx).base.toNat / 512)

/-- R320, R99: the home cluster of a placement address, or the cluster of the node's base; the translation needs the right of a load, and
an address that is not paged counts as one whose translation faults (DESIGN CHOICE, log 105). -/
def State.targetCluster (s : State) (ctx : Nat) (place : DWord) : Nat :=
  let c := s.ctx ctx
  let base := c.base.toNat / 8
  if place = 0 then base
  else match classify place with
    | .paged => match translate s ctx (s.placeDie ctx) place AccKind.load.right false with
      | .ok (_, _, mpa) => homeChannel s c mpa
      | .error _ => base
    | _ => base

/-- A distance between node bases. -/
def dist (a b : Nat) : Nat := if a < b then b - a else a - b

/-- R323: N0, by its base: the node of order k that contains t, or the one within the context's node nearest t. -/
def firstNode (c : Ctx) (k t : Nat) : Nat :=
  let n := 2 ^ c.order.toNat
  if c.base.toNat ≤ t ∧ t < c.base.toNat + n then t / 2 ^ k * 2 ^ k
  else if t < c.base.toNat then c.base.toNat
  else c.base.toNat + n - 2 ^ k

/-- R323: the candidate nodes of a record of order k, by their bases, in order. -/
def candidates (c : Ctx) (k t : Nat) (wide : Bool) : List Nat :=
  let n0 := firstNode c k t
  if c.order.toNat ≤ k then [n0]
  else
    let sib := if n0 / 2 ^ k % 2 = 0 then n0 + 2 ^ k else n0 - 2 ^ k
    if !wide then [n0, sib]
    else
      (List.range (c.order.toNat + 1)).foldl (fun l j =>
        if j < k + 2 then l
        else
          let lo := n0 / 2 ^ j * 2 ^ j
          let new := ((List.range (2 ^ (j - k))).map fun i => lo + i * 2 ^ k).filter fun b => !l.contains b
          l ++ sortBy (fun b => 2 * dist b n0 + (if b < n0 then 0 else 1)) new) [n0, sib]

/-- The first candidate of a record, as its cores (R322). -/
def State.firstCandidate (s : State) (l : Launch) (k : Nat) : List Nat :=
  nodeCores k (firstNode (s.ctx l.ctx) k (s.targetCluster l.ctx l.place * 8))

/-! ### Contention (R328) -/

/-- A context has a live fibre or a parked message on a core. -/
def Img.alive (i : Img) : Bool := i.rq.any (fun p => p.2.st != .free) || !i.parked.isEmpty

/-- A record of a context has reserved a core, or holds it (R322). -/
def State.claimed (s : State) (ctx core : Nat) : Bool :=
  (match (s.core core).reserved with
    | some id => match tget s.launches id with
      | some l => l.ctx == ctx && !l.started
      | none => false
    | none => false) ||
  s.quads.any fun q => match q.2.hold with
    | some id => match tget s.launches id with
      | some l => l.ctx == ctx && (s.firstCandidate l l.order).contains core
      | none => false
    | none => false

/-- R328: a context contends for a worker core; what it has on the copy core counts with the core that MXISSUER names (R48). -/
def State.contends (s : State) (ctx core : Nat) : Bool :=
  let c := s.ctx ctx
  let cl := clOf core
  c.st == .running && !c.pausing && !(c.stopping && decide (cl * 8 < c.stopUpTo)) && s.nodeHas c core && s.funded ctx &&
  ((s.img core ctx).alive || (core == s.issuerCore cl && (s.img (coreAt cl 8) ctx).alive) || s.claimed ctx core)

/-- The contexts that contend for a core, ascending. -/
def State.contenders (s : State) (core : Nat) : List Nat := (s.ctxs.map Prod.fst).filter fun n => s.contends n core

/-- R328, R329: who is to be resident next on a core that no context holds: the highest priority, then the next number after
the one that left. -/
def State.nextFor (s : State) (core : Nat) : Option Nat :=
  let cs := s.contenders core
  let top := cs.foldl (fun m n => max m (s.ctx n).prio.toNat) 0
  let best := cs.filter fun n => (s.ctx n).prio.toNat == top
  (best.find? fun n => decide ((s.core core).last < n)).or best.head?

/-- R328: a resident context must give way on a worker core: a higher priority contends, or it does not contend and another does. The
copy core follows the core that MXISSUER names (R48). -/
def State.mustYield (s : State) (core : Nat) : Bool :=
  match (s.core core).res with
  | none => false
  | some n => slotOf core != 8 && (s.contenders core).any fun m =>
      m != n && (decide ((s.ctx n).prio.toNat < (s.ctx m).prio.toNat) || !s.contends n core)

/-! ### Power states (R39, R40) -/

/-- R40: the parts that hold a cluster wake. -/
def State.wakeCluster (s : State) (cl : Nat) : State :=
  let s := s.setCluster cl { s.cluster cl with power := .active }
  let s := s.setQuad (cl / 16) { s.quad (cl / 16) with power := .active }
  s.setDie (cl / 64) { s.dieOf (cl / 64) with power := .active }

/-- R40: a core wakes, and the parts that hold it. -/
def State.wakeCore (s : State) (core : Nat) : State :=
  (s.setCore core { s.core core with power := .active, wakeBy := none }).wakeCluster (clOf core)

/-- The cores of a cluster, and the clusters of a quadrant. -/
def coresIn (cl : Nat) : List Nat := (List.range 9).map (coreAt cl)
def clustersIn (quad : Nat) : List Nat := (List.range 16).map (quad * 16 + ·)

/-- R39: the partitions that hold a cluster, those of greatest depth. -/
def State.partsOf (s : State) (cl : Nat) : List Nat :=
  let ps := (s.ctxs.map Prod.fst).filter fun n => s.isLive n && (s.ctx n).part && nodeTouches (s.ctx n) cl
  let top := ps.foldl (fun m n => max m (s.ctx n).depth) 0
  ps.filter fun n => (s.ctx n).depth == top

/-- R39: the tolerance that holds for a cluster; none for one in no partition (DEDUCED, log 25). -/
def State.tolerance (s : State) (cl : Nat) : Nat :=
  match (s.partsOf cl).map fun n => (s.ctx n).ltol.toNat with
  | [] => 0
  | t :: l => l.foldl min t

/-- R39: a tolerance has fallen: the clusters of a partition leave the states that it no longer allows. -/
def State.fitTolerance (s : State) (cl : Nat) : State :=
  let t := s.tolerance cl
  let d := s.dieOf (cl / 64)
  let s := if d.power = .parked ∧ t < 200000 then s.setDie (cl / 64) { d with power := .active } else s
  let q := s.quad (cl / 16)
  let s := if q.power = .deep ∧ t < 5000 then s.setQuad (cl / 16) { q with power := .active } else s
  let c := s.cluster cl
  let s := if c.power = .retention ∧ t < 200 then s.setCluster cl { c with power := .active } else s
  if t < 2 then (coresIn cl).foldl (fun s k => if (s.core k).power = .active then s else s.wakeCore k) s else s

/-- R39: the same for every cluster of a context's node. -/
def State.fitNode (s : State) (c : Ctx) : State := (nodeClusters c).foldl State.fitTolerance s

end Sys2Proof.Machine
end

