-- ==== Sys2Proof/Machine/Residency.lean ====
section
/-! DEFINITION. Pre-emption and residency (R71 to R77, R434 to R436): requests, the stop of a context on a cluster with its save
sequence, and the resume with the checks of R433. -/
namespace Sys2Proof.Machine

/-! ### The save area (R52) -/

/-- R52: the offset of a part of a cluster's save area, from the area's start (DEDUCED, log 49). -/
def saveOff (c : Ctx) (cl off : Nat) : Nat := (c.shlen.toNat * 4096 + 292 * 1024) * (cl - c.base.toNat / 8) + off

/-- The bytes of an MPA range as runs of one 4 KiB granule each: offset in the range, place, length (R98). -/
def mpaRuns (c : Ctx) (mpa n : Nat) : List (Nat × Nat × Nat) :=
  (List.range (n / 4096 + 2)).filterMap fun i =>
    let lo := max mpa ((mpa / 4096 + i) * 4096)
    let hi := min (mpa + n) ((mpa / 4096 + i + 1) * 4096)
    if lo < hi then some (lo - mpa, mpaPlace c lo, hi - lo) else none

/-- Copy places into an MPA range. -/
def State.copyToMpa (s : State) (c : Ctx) (src mpa n : Nat) : State :=
  (mpaRuns c mpa n).foldl (fun s r => s.copyRange (src + r.1) r.2.1 r.2.2) s

/-- Copy an MPA range into places. -/
def State.copyFromMpa (s : State) (c : Ctx) (mpa dst n : Nat) : State :=
  (mpaRuns c mpa n).foldl (fun s r => s.copyRange r.2.1 (dst + r.1) r.2.2) s

/-- Write bytes to an MPA range. -/
def State.putMpa (s : State) (c : Ctx) (mpa : Nat) (bs : Bytes) : State :=
  (mpaRuns c mpa bs.length).foldl (fun s r => s.putBytes r.2.1 ((bs.drop r.1).take r.2.2)) s

/-- Read an MPA range. -/
def State.getMpa (s : State) (c : Ctx) (mpa n : Nat) : Bytes :=
  (mpaRuns c mpa n).flatMap fun r => s.getBytes r.2.1 r.2.2

/-- The bytes of a cage (R75). -/
def State.cageBytes (s : State) (core ctx : Nat) : Bytes :=
  (List.range 4352).flatMap fun k => toBytes 8 (s.cageDword core ctx (8 * k)).toNat

/-- The key of what a context keeps for a cluster. -/
def clKey (ctx cl : Nat) : Nat := ctx * 512 + cl

/-! ### Requests (R71, R72, R434) -/

/-- The cores of a cluster that a context is resident on. -/
def State.residentOn (s : State) (cl ctx : Nat) : List Nat :=
  ((List.range 9).map (coreAt cl)).filter fun k => (s.core k).res == some ctx

/-- R73: the context's fibres have stopped on the cluster. -/
def State.closingOn (s : State) (cl ctx : Nat) : Bool := (s.cluster cl).closing.any fun c => c.ctx == ctx

/-- The context that issues on a core: the resident one, unless its fibres have stopped there. -/
def State.issuing (s : State) (core : Nat) : Option Nat :=
  match (s.core core).res with
  | some n => if s.closingOn (clOf core) n || (s.img core n).atCkpt.isSome then none else some n
  | none => none

/-- The fibres of a context stop on a cluster. -/
def State.startClose (s : State) (cl : Nat) (x : Closing) : State :=
  if s.closingOn cl x.ctx then s
  else let c := s.cluster cl; s.setCluster cl { c with closing := c.closing ++ [x] }

/-- A dword of a checkpoint table, read under a context. -/
def State.tableDword (s : State) (core ctx : Nat) (a : DWord) : Option (State × Nat) :=
  match s.resolve core ctx .load a 8 with
  | .ok (s', t) => some ({ s' with lookups := s.lookups }, s'.readNum (s.primaryWho core ctx) t 8)
  | .error _ => none

/-- The entries of a table (R76). -/
def State.tableEntries (s : State) (core ctx : Nat) (a : DWord) : Nat → Option (State × List Nat)
  | 0 => some (s, [])
  | n + 1 => do
    let (s, v) ← s.tableDword core ctx a
    let (s, l) ← s.tableEntries core ctx (a + 8) n
    some (s, v :: l)

/-- No two ranges overlap. -/
def disjoint : List (Nat × Nat) → Bool
  | [] => true
  | x :: l => !l.any (fun y => overlap x.1 x.2 y.1 y.2) && disjoint l

/-- R435: the ranges of a checkpoint table, none when it is refused. -/
def State.readTable (s : State) (core ctx : Nat) (t : DWord) : Option (State × List (Nat × Nat)) :=
  match s.tableDword core ctx t with
  | none => none
  | some (s, h) =>
    if h ≥ 2 ^ 16 ∨ h > 1024 then none
    else match s.tableEntries core ctx (t + 8) h with
      | none => none
      | some (s, es) =>
        let rs := es.map fun e => (bits e 19 0, bits e 40 20)
        let n := (s.ctx ctx).shlen.toNat * 4096
        if es.all (fun e => decide (e < 2 ^ 41)) && rs.all (fun r => r.1 % 16 == 0 && r.2 % 16 == 0 && decide (1 ≤ r.2 ∧ r.2 ≤ 2 ^ 20 ∧ r.1 + r.2 ≤ n)) &&
            disjoint rs then some (s, rs)
        else none

/-- The worker cores of a cluster on which a context's primary fibre lives. -/
def State.livePrimaries (s : State) (cl ctx : Nat) : List Nat :=
  (s.residentOn cl ctx).filter fun k => slotOf k != 8 && ((s.img k ctx).fibre 0).st != .free

/-- R72: with a request pending, the checkpoint branch when every primary has stopped at a `ckpt` of one table, the deadline
branch at once when no primary lives. -/
def State.checkStop (s : State) (cl ctx : Nat) : State :=
  if !s.preempting cl ctx || s.closingOn cl ctx then s
  else
    let ps := s.livePrimaries cl ctx
    match ps.map fun k => (s.img k ctx).atCkpt with
    | [] => s.startClose cl { ctx := ctx, cause := 2, table := 0 }
    | none :: _ => s
    | some t :: l =>
      if l.all (· == some t) then
        match s.readTable (ps.headD 0) ctx t with
        | some (s, rs) => s.startClose cl { ctx := ctx, cause := 1, table := t, ranges := rs }
        | none => (s.logRec 0 0 0 0 t (s.ctxid ctx) 0).startClose cl { ctx := ctx, cause := 3, table := t }
      else s

/-- R71: a pre-emption request for a context on a cluster. -/
def State.requestPre (s : State) (cl ctx : Nat) (byStop : Bool) : State :=
  if (s.residentOn cl ctx).isEmpty then s
  else
    let c := s.cluster cl
    let s := s.setCluster cl { c with preq := c.preq ++ [{ ctx := ctx, tick := s.tick, byStop := byStop }] }
    if (s.ctx ctx).deadline = 0 then s.startClose cl { ctx := ctx, cause := 2, table := 0 } else s.checkStop cl ctx

/-- R434: the tick of the earliest request pending for a context on a cluster. -/
def State.preTick (s : State) (cl ctx : Nat) : Option Nat :=
  (((s.cluster cl).preq.filter fun p => p.ctx == ctx).head?).map PreReq.tick

/-- R72: the deadline has expired. -/
def State.deadlineMet (s : State) (cl ctx : Nat) : Bool :=
  match s.preTick cl ctx with
  | some t => !s.closingOn cl ctx && decide (t + (s.ctx ctx).deadline.toNat ≤ s.tick)
  | none => false

/-! ### The save sequence (R73) -/

/-- The dwords of an `accrd` not yet delivered: from column pair `col` of a row on. -/
def State.readDwords (s : State) (cl t row col left : Nat) : List DWord :=
  ((List.range left).flatMap fun i =>
    let e := s.tileRow cl t (row + i)
    (List.range 32).map fun m => dw (e.getD (2 * m) 0 + 2 ^ 32 * e.getD (2 * m + 1) 0)).drop col

/-- R286: an `accrd` at the head of the unit's queue that finds q0 full while its context stops is cut short (DEDUCED, log 47). -/
def State.cutRead (s : State) (cl ctx : Nat) : State :=
  let c := s.cluster cl
  match c.mreqs with
  | r :: rs =>
    match r.op with
    | .read t row col left =>
      let i := s.img r.who.core r.who.ctx
      if r.who.ctx = ctx ∧ 16 ≤ i.q0.length then
        let cut : CutRead := { tile := t, row := row, left := left, dws := some (s.readDwords cl t row col left) }
        (s.setCluster cl { c with mreqs := rs }).setImg r.who.core r.who.ctx { i with cuts := i.cuts ++ [cut] }
      else s
    | _ => s
  | [] => s

/-- R73: an answer that a core waits for before it writes its cage (DEDUCED, log 24). -/
def Job.landsFirst : Job → Bool
  | .load _ _ _ => true
  | .gather _ _ => true
  | .value _ => true
  | .deq _ _ => true
  | _ => false

/-- R427, R430: a core enqueues what a q2 or q3 bound for enqueueing holds, until the queue is full. -/
def State.drained (s : State) (b : QReg) : Bool :=
  b.dir != 1#2 || b.buf.isEmpty ||
  match tget s.queues b.qid with
  | some q => decide (2 ^ q.cap ≤ q.count)
  | none => true

/-- R427: a copy has yet to write a v register of a context's core. -/
def State.windowCopy (s : State) (core ctx : Nat) : Bool :=
  s.copies.any fun p => p.2.who.ctx == ctx && p.2.lines.any fun l => !l.done && match l.dst with
    | .vreg k _ => k == core
    | _ => false

/-- R73, R427: every issued instruction has completed on the cluster's cores of a context, with the window copies that reach them, and
its matrix requests. -/
def State.quiet (s : State) (cl ctx : Nat) : Bool :=
  !s.flights.any (fun p => p.2.who.ctx == ctx && clOf p.2.who.core == cl && (s.core p.2.who.core).res == some ctx && p.2.job.landsFirst) &&
  !(s.cluster cl).mreqs.any (fun r => r.who.ctx == ctx) &&
  (s.residentOn cl ctx).all fun k =>
    let i := s.img k ctx
    !s.windowCopy k ctx && !(i.streams.toArray.any fun t => t.push.any fun e => e.val.isNone) && s.drained i.qreg[0] && s.drained i.qreg[1]

/-- The image of a core once its cage is written: prefetched elements discarded, and the words of R428. -/
def Img.closed (i : Img) (x : Closing) (tick : Nat) : Img :=
  { i with streams := i.streams.map fun t => { t with held := [] }, cause := BitVec.ofNat 3 x.cause, table := x.table,
           stopTick := dw tick, atCkpt := none }

/-- R52, R286, R288: what the holder of a cluster saves besides: tiles, the copy core's cage, semaphore counts. -/
def State.saveHeld (s : State) (cl ctx : Nat) : State :=
  let c := s.ctx ctx
  let base := c.svarea.toNat + saveOff c cl (c.shlen.toNat * 4096)
  let hs := (s.cluster cl).hs
  let s := s.copyToMpa c (accPlace cl 0) base (256 * 1024)
  let s := s.putMpa c (base + 256 * 1024) (s.cageBytes (coreAt cl 8) ctx)
  let s := s.putMpa c (base + 290 * 1024) (hs.toList.flatMap fun v => toBytes 8 v.toNat)
  { s.setCluster cl { s.cluster cl with hs := Vector.replicate 16 0 } with sems := tset s.sems (clKey ctx cl) hs }

/-- R73: the cages of a context on a cluster are written, its share saved, and its cores released. -/
def State.finishClose (s : State) (cl : Nat) (x : Closing) : State :=
  let ctx := x.ctx
  let c := s.ctx ctx
  let held := s.holder cl == some ctx
  let cores := s.residentOn cl ctx
  let s := cores.foldl (fun s k => s.flushPushes k ctx) s
  let s := cores.foldl (fun s k => s.setImg k ctx ((s.img k ctx).closed x s.tick)) s
  let base := c.svarea.toNat + saveOff c cl 0
  let share := spadPlace cl (c.shoff.toNat * 4096)
  let ranges := if x.cause = 1 then x.ranges else [(0, c.shlen.toNat * 4096)]
  let s := ranges.foldl (fun s r => s.copyToMpa c (share + r.1) (base + r.1) r.2) s
  let s := if held then s.saveHeld cl ctx else s
  let s := cores.foldl (fun s k => s.setCore k { s.core k with res := none, last := ctx }) s
  let k := s.cluster cl
  { s.setCluster cl { k with preq := k.preq.filter (fun p => p.ctx != ctx), closing := k.closing.filter (fun y => y.ctx != ctx),
                             slices := tdel k.slices ctx } with
    saves := tset s.saves (clKey ctx cl)
      { whole := x.cause != 1, ranges := ranges, tiles := held || ((tget s.saves (clKey ctx cl)).map SaveRec.tiles).getD false } }

/-- A step of the save sequence of a context that closes on a cluster. -/
def State.closeStep (s : State) (cl ctx : Nat) : State :=
  match (s.cluster cl).closing.find? fun x => x.ctx == ctx with
  | some x =>
    let s := s.cutRead cl ctx
    if s.quiet cl ctx then s.finishClose cl x else s
  | none => s

/-! ### Reload (R77, R433) -/

/-- R433: what a cage's header or primary region may not hold, among values that the fields do not. -/
def oddBad (off : Nat) (v : DWord) : Bool :=
  if off = 0x00 ∨ off = 0x58 ∨ off = 0x70 then false
  else if off = 0x30 then false
  else if off = 0x38 then fld v 63 25 != 0
  else if off = 0x40 then fld v 60 0 != 0
  else if off < 0x100 then true
  else if 0x600 ≤ off ∧ off < 0x640 then fld v 63 32 != 0
  else if off = 0x640 ∨ off = 0x648 then fld v 63 16 != 0
  else if 0x680 ≤ off ∧ off < 0x700 then true
  else if 0x900 ≤ off ∧ off < 0xB00 then off / 8 % 16 == 7 && fld v 63 48 != 0
  else if off = 0xB80 then fld v 52 17 != 0
  else if 0xB90 ≤ off ∧ off < 0xC00 then true
  else if off = 0xC10 ∨ off = 0xC18 then fld v 63 2 != 0
  else if off = 0xC60 then v &&& ~~~0x707#64 != 0
  else if 0xC68 ≤ off ∧ off < 0xC80 then true
  else if off = 0xC80 then v &&& ~~~0x3F3F0F#64 != 0
  else if 0xDA0 ≤ off ∧ off < 0x1000 then true
  else off == 0x1800

/-- R433: the header or the primary's state fails the check. -/
def Img.headerBad (i : Img) : Bool :=
  i.odd.any (fun p => oddBad p.1 p.2) || i.handlers.any (fun p => p.2 &&& 0xE000000000000003 != 0) ||
  i.streams.toArray.any (fun t => t.dw[0] &&& streamReserved != 0) ||
  decide (i.rep.len.toNat < i.rep.next.toNat) || (i.rep.act && i.rep.left == 0) ||
  i.fmt &&& sprReserved 0 != 0 || i.fctl &&& sprReserved 1 != 0 || i.fstatus &&& sprReserved 2 != 0 ||
  [i.lb[0], i.lb[1], i.le[0], i.le[1]].any fun a => a.toNat % 4 != 0

/-- The offset of an entry's status word. -/
def statusOff (e : Nat) : Nat := 0x1800 + 80 * e + 8

/-- R433: an entry's status word fails the check: state 5 to 7, kind 3, a token coded 3. -/
def Img.entryBad (i : Img) (e : Nat) : Bool :=
  let f := i.fibre e
  ((tget i.odd (statusOff e)).any fun v => decide (5 ≤ fld v 63 61)) || f.kind == 3#2 || (List.range 8).any fun t => f.token t == 3

/-- The address of a run-queue entry in a cage (R433): in a scratchpad, or the MPA in the save area for the copy core. -/
def entryAddr (c : Ctx) (cores : List Nat) (core e : Nat) : DWord :=
  let cl := clOf core
  if slotOf core = 8 then dw (c.svarea.toNat + saveOff c cl (c.shlen.toNat * 4096 + 256 * 1024) + 0x1800 + 80 * e)
  else dw (2 ^ 55 + (cl * 128 + 80) * 2 ^ 24 + c.cageoff.toNat * 128 + (cores.findIdx (· == core)) * 0x8800 + 0x1800 + 80 * e)

/-- R77, R244: the oldest parked message that has a slot to move into moves: a reply into its own, another, when none older is left
behind, into a free one. -/
def Img.moveOne (i : Img) : Option Img :=
  (i.parked.findIdx? fun m => m.slot.isSome || i.freeSlot.isSome).bind fun n =>
    (i.parked[n]?).bind fun m => (m.slot.or i.freeSlot).map fun k =>
      let i := if m.slot.isSome then i.unreserve k else i
      { i with inbox := tset i.inbox k { i.routed m with slot := none }, parked := i.parked.eraseIdx n }

/-- R77: parked messages move into the inbox while there are slots for them. -/
def Img.moveIn : Nat → Img → Img
  | 0, i => i
  | n + 1, i => match i.moveOne with
    | some i => Img.moveIn n i
    | none => i

/-- R433: messages that the mask of the header put into inbox slots take their way by the handler table. -/
def Img.routeWritten (i : Img) : Img := { i with inbox := i.inbox.map fun p => if p.2.order = 0 then (p.1, i.routed p.2) else p }

/-- R433: a binding of q2 or q3 that was written into the cage is used as written, if its capability gives the right (DEDUCED, log 95). -/
def State.rebind (s : State) (ctx : Nat) (q : QReg) : QReg :=
  if !q.written then q
  else match s.capIn ctx q.cap with
    | some k => if k.allows q.dir.toNat then { q with qid := k.qid, written := false } else { q with dir := 0, written := false }
    | none => { q with dir := 0, written := false }

/-- R433: an entry whose status word was written to say that it is parked on a page, and of which no parking is known: what its upcall will
say is open (DESIGN CHOICE, log 104). -/
def State.parkWritten (s : State) (core ctx : Nat) : State :=
  let new := (s.img core ctx).rq.filter fun p => p.2.st == .parked && p.2.wop == 0 && !(s.img core ctx).parkings.any fun q => q.entry == p.1
  new.foldl (fun (s : State) p =>
    let (a, s) := s.freeVal
    let (w, s) := s.freeVal
    let i := s.img core ctx
    { s.setImg core ctx { i with parkings := i.parkings ++ [{ entry := p.1, uid := p.2.uid, dva := a, access := w.setWidth 4,
                                                               level := BitVec.ofNat 2 (fld w 5 4), pc := p.2.pc, word := BitVec.ofNat 32 (fld w 63 32),
                                                               other := 0, seq := s.fresh }] } with fresh := s.fresh + 1 }) s

/-- R433: a core loads a context's cage; entries that fail the check are loaded frozen. -/
def State.reload (s : State) (core ctx : Nat) : State :=
  let s := s.parkWritten core ctx
  let i := s.img core ctx
  let cores := s.cageCores (s.ctx ctx) (clOf core)
  let bad := (List.range 256).filter fun e => i.entryBad e || (e == 0 && i.headerBad)
  let s := s.setImg core ctx { i.routeWritten.moveIn 128 with odd := [], qreg := i.qreg.map fun q => s.rebind ctx q }
  bad.foldl (fun s e => s.freeze (s.faultAt core ctx e) .ctxfmt (entryAddr (s.ctx ctx) cores core e) 0) s

/-- R77 step 1: the saved ranges or share are restored; share bytes outside the ranges are open (DESIGN CHOICE, log 8) (DEDUCED, log 23). -/
def State.restoreShare (s : State) (cl ctx : Nat) : State :=
  match tget s.saves (clKey ctx cl) with
  | none => s
  | some r =>
    let c := s.ctx ctx
    let base := c.svarea.toNat + saveOff c cl 0
    let share := spadPlace cl (c.shoff.toNat * 4096)
    let n := c.shlen.toNat * 4096
    let s := if r.whole then s
      else { s.zeroRange share (share + n) with lost := cutLost s.lost share (share + n) ++ [{ lo := share, hi := share + n, serial := s.fresh }],
                                                fresh := s.fresh + 1 }
    let s := r.ranges.foldl (fun s x => s.copyFromMpa c (base + x.1) (share + x.1) x.2) s
    { s with saves := tset s.saves (clKey ctx cl) { whole := true, ranges := [], tiles := r.tiles } }

/-- R77 step 1, R286: the saved tiles are restored to a context that takes the cluster. -/
def State.restoreTiles (s : State) (cl ctx : Nat) : State :=
  match tget s.saves (clKey ctx cl) with
  | some r =>
    if r.tiles then
      let c := s.ctx ctx
      let s := s.copyFromMpa c (c.svarea.toNat + saveOff c cl (c.shlen.toNat * 4096)) (accPlace cl 0) (256 * 1024)
      { s with saves := tset s.saves (clKey ctx cl) { r with tiles := false } }
    else s
  | none => s

/-- The dwords of a cut-short `accrd` whose record software wrote. -/
def State.fillCuts (s : State) (core ctx : Nat) : State :=
  let i := s.img core ctx
  s.setImg core ctx { i with cuts := i.cuts.map fun c =>
    match c.dws with
    | some _ => c
    | none => { c with dws := some (s.readDwords (clOf core) c.tile c.row 0 (min c.left (64 - c.row))) } }

/-- The worker cores of a cluster that a context may take (DEDUCED, log 22). -/
def State.takeable (s : State) (cl ctx : Nat) : List Nat :=
  (s.cageCores (s.ctx ctx) cl).filter fun k => (s.core k).res.isNone && s.nextFor k == some ctx

/-- R77: a context becomes resident on the cores of a cluster that it is next for. -/
def State.resume (s : State) (cl ctx : Nat) : State :=
  let cores := s.takeable cl ctx
  if cores.isEmpty || s.closingOn cl ctx then s
  else
    let s := if (s.residentOn cl ctx).isEmpty then s.restoreShare cl ctx else s
    let takes := cores.contains (s.issuerCore cl)
    let s := cores.foldl (fun s k => s.setCore k { s.core k with res := some ctx }) s
    let s := cores.foldl (fun s k => s.reload k ctx) s
    let s := if takes then
        let hs := (tget s.sems (clKey ctx cl)).getD (Vector.replicate 16 0)
        let s := (s.restoreTiles cl ctx).setCluster cl { s.cluster cl with hs := hs }
        let s := (s.setCore (coreAt cl 8) { s.core (coreAt cl 8) with res := some ctx }).reload (coreAt cl 8) ctx
        s.fillCuts (s.issuerCore cl) ctx
      else s
    let k := s.cluster cl
    s.setCluster cl { k with slices := if (tget k.slices ctx).isSome then k.slices else tset k.slices ctx s.tick }

end Sys2Proof.Machine
end

