-- ==== Sys2Proof/Machine/Halt.lean ====
section
/-! DEFINITION. Contexts ended or returned to Created (R393, R470 to R473, R499): cores stop, requests are purged, owed replies are
answered, torn scatters are recorded, state is cleared, and resources return. -/
namespace Sys2Proof.Machine

/-! ### Placements (R327) -/

/-- R327: a context's reservations and holds are released; its record stays at the head. -/
def State.releaseClaims (s : State) (ctx : Nat) : State :=
  let mine (id : Nat) : Bool := ((tget s.launches id).map fun l => l.ctx == ctx && !l.started).getD false
  { s with cores := s.cores.map fun c => (c.1, if (c.2.reserved.map mine).getD false then { c.2 with reserved := none } else c.2),
           quads := s.quads.map fun q => (q.1, if (q.2.hold.map mine).getD false then { q.2 with hold := none } else q.2),
           launches := s.launches.map fun l => (l.1, if l.2.ctx = ctx ∧ !l.2.started then { l.2 with placed := none } else l.2) }

/-! ### Stopping at once, and the purge (R471 steps 1 to 3, R470) -/

/-- The lane of a scatter that a store is: its scatter, its number, the lanes that passed their checks. -/
def PStore.laneOf (p : PStore) : Option (Nat × Nat × Byte) :=
  match p.op with
  | .scat _ _ _ g l m => some (g, l, m)
  | _ => none

/-- R455: the scatters of some contexts that have lanes outstanding: still to be performed, or refused by their home (R450). -/
def State.torn (s : State) (ns : List Nat) : List Torn :=
  let mine (ps : List PStore) : List PStore := ps.filter fun p => ns.contains p.who.ctx && !p.granted && p.laneOf.isSome
  let left := mine (s.stores.map Prod.snd)
  let lost := mine s.undone
  let tears := left ++ lost.filter fun p => p.t.homed
  ((tears.filterMap fun p => p.laneOf.map Prod.fst).eraseDups).filterMap fun g =>
    let unperformed := (left ++ lost).filter fun p => (p.laneOf.map Prod.fst) == some g
    unperformed.head?.bind fun p => p.laneOf.map fun x =>
      let n := unperformed.foldl (fun y q => y + ((q.laneOf.map fun z => 2 ^ z.2.1).getD 0)) 0
      { core := p.who.core, pc := p.pc, ctx := s.ctxid p.who.ctx, syn := dw ((x.2.2.toNat - n) + x.2.2.toNat * 256) }

/-- R455: the records of torn scatters. -/
def State.recordTorn (s : State) (ts : List Torn) : State :=
  ts.foldl (fun s t => s.logRec 0 0 (lidOf t.core) 0 t.pc t.ctx t.syn) s

/-- The clusters that some contexts hold. -/
def State.heldBy (s : State) (ns : List Nat) : List Nat :=
  (s.clusters.map Prod.fst).filter fun cl => ((s.holder cl).map ns.contains).getD false

/-- R471 step 1: every core of some contexts stops issuing at once; no cage is written. -/
def State.haltCores (s : State) (ns : List Nat) : State :=
  let held := s.heldBy ns
  let out (n : Nat) : Bool := !ns.contains n
  { s with
    cores := s.cores.map fun c => (c.1, if (c.2.res.map ns.contains).getD false then { c.2 with res := none } else c.2)
    clusters := s.clusters.map fun c => (c.1,
      { c.2 with preq := c.2.preq.filter fun p => out p.ctx, closing := c.2.closing.filter fun x => out x.ctx,
                 slices := c.2.slices.filter fun x => out x.1, mreqs := c.2.mreqs.filter fun r => out r.who.ctx,
                 hs := if held.contains c.1 then Vector.replicate 16 0 else c.2.hs }) }

/-- R470, R453, R471 steps 2 and 3: the requests of some contexts are dropped, their copies abandoned, their page requests
ended, but for a record that keeps only its count of Successes (R448); replies to them are dropped, and no reply of theirs to others; a store that its home has granted goes on (DEDUCED, log 50). -/
def State.purge (s : State) (ns : List Nat) : State :=
  let out (w : Who) : Bool := !ns.contains w.ctx
  { s with
    flights := s.flights.filter fun p => out p.2.who
    stores := s.stores.filter fun p => p.2.granted || out p.2.who
    wbars := s.wbars.filter fun b => out b.who
    copies := s.copies.filter fun p => out p.2.who
    undone := s.undone.filter fun p => out p.who
    msgs := s.msgs.filter fun p =>
      (p.2.isReply || out p.2.who || p.2.again) && !((p.2.again || p.2.isReply && !p.2.peer) && ns.contains p.2.toCtx)
    hosts := s.hosts.map fun h => (h.1,
      { h.2 with asking := h.2.asking.filter fun a => out a.who,
                 recs := h.2.recs.filterMap fun r =>
                   let r' : PageRec := { r with joined := r.joined.filter out, copies := r.copies.filter fun c => ((tget s.copies c).map fun x => out x.who).getD false }
                   if r'.joined.isEmpty && r'.copies.isEmpty && !(r.joined.isEmpty && r.copies.isEmpty) then none else some r' }) }

/-- The context that a link's answer goes to, none for another package. -/
def LinkKind.home : LinkKind → Option Nat
  | .message _ c _ _ _ _ _ => some c
  | .remote _ _ _ _ => none
  | .upcall _ c _ _ => some c
  | .composer _ c _ _ => some c

/-- R471 step 4: "no reply" on the links that fibres of some contexts owe to others. -/
def State.answerOwed (s : State) (ns : List Nat) : State :=
  s.imgs.foldl (fun s p =>
    let core := p.1 / 4096
    let ctx := p.1 % 4096
    if ns.contains ctx then
      p.2.rq.foldl (fun s f =>
        match f.2.owes with
        | some id => match tget s.links id with
          | some l =>
            if l.replied || ((l.kind.home.map ns.contains).getD false) then s
            else s.noReply { core := core, ctx := ctx, gen := (s.ctx ctx).gen, entry := f.1, uid := f.2.uid } f.2
          | none => s
        | none => s) s
    else s) s

/-- Steps 1 to 4 of R471 on a set of contexts. -/
def State.haltSet (s : State) (ns : List Nat) : State :=
  let s := ns.foldl (fun s n => s.releaseClaims n) s
  ((s.haltCores ns).purge ns).answerOwed ns

/-- A context's state on every core, and what stops saved of it, are cleared. -/
def State.clearImgs (s : State) (ctx : Nat) : State :=
  { s with imgs := s.imgs.filter (fun p => p.1 % 4096 != ctx), saves := s.saves.filter (fun p => p.1 / 512 != ctx),
           sems := s.sems.filter (fun p => p.1 / 512 != ctx) }

/-- A range without others. -/
def withoutRanges (r : Nat × Nat) (holes : List (Nat × Nat)) : List (Nat × Nat) :=
  holes.foldl (fun rs h => rs.flatMap fun r =>
    if r.1 < h.2 ∧ h.1 < r.2 then
      (if r.1 < h.1 then [(r.1, h.1)] else []) ++ (if h.2 < r.2 then [(h.2, r.2)] else [])
    else [r]) [r]

/-- R459: what would have reached fill words of some ranges of a cluster's scratchpad is dropped. -/
def State.dropFills (s : State) (cl : Nat) (rs : List (Nat × Nat)) : State :=
  let k := s.cluster cl
  let inside (off : Nat) : Bool := rs.any fun r => decide (r.1 ≤ off ∧ off < r.2)
  s.setCluster cl { k with fills := k.fills.filter (fun f => !inside f.off), advanced := k.advanced.filter (fun o => !inside o), words := k.words.filter fun w => !inside w.2 }

/-- R393 step 6, R459: a context's share on a cluster is cleared, but for the shares of descendants that live on, with what
would have reached its fill words (DEDUCED, log 59). -/
def State.clearShare (s : State) (ctx cl : Nat) (keep : List Nat) : State :=
  let holes := (keep.filter fun m => nodeTouches (s.ctx m) cl).map fun m => shareOf (s.ctx m)
  let rs := withoutRanges (shareOf (s.ctx ctx)) holes
  (rs.foldl (fun s r => s.zeroRange (spadPlace cl r.1) (spadPlace cl r.2)) s).dropFills cl rs

/-- R393 step 6: a context returns to Created; `held`: the clusters whose tiles it held; `keep`: the descendants that the
reset does not reach. -/
def State.toCreated (s : State) (ctx : Nat) (held keep : List Nat) : State :=
  let c := s.ctx ctx
  let s := s.clearImgs ctx
  let s := (nodeClusters c).foldl (fun s cl => s.clearShare ctx cl keep) s
  let s := held.foldl (fun s cl => s.zeroRange (accPlace cl 0) (accPlace cl 0x40000)) s
  s.setCtx ctx { c with st := .created, stopping := false, pausing := false, busy := false, stoppedBy := none, savedBy := none }

/-- R393 step 6: the records of contexts that had started are written with code 5, and their done arrivals delivered. -/
def State.endRecords (s : State) (ns : List Nat) : State :=
  let mine (l : Launch) : Bool := ns.contains l.ctx && l.started
  let done := s.launches.filter fun l => mine l.2
  let s := { s with launches := s.launches.filter fun l => !mine l.2 }
  done.foldl (fun s l => s.writeStatus l.2 5 true) s

/-! ### Revocation (R220, R473, R327) -/

/-- R327: the nearest ancestor that still lives. -/
def State.liveAbove (s : State) (n : Nat) : Option Nat := (s.upFrom n).find? fun m => s.isLive m

/-- R327: a dropped record: status code 3 and the done arrival, under an ancestor. -/
def State.dropRecord (s : State) (anc : Nat) (addr done : DWord) (base : Nat) : State :=
  s.status { ctx := anc, addr := addr, word := statusWordOf s.tick base 3, done := done, quad := (s.ctx anc).base.toNat / 128, tells := false }

/-- A dword read under a context by a dispatcher, none when a check fails. -/
def State.dispLoad (s : State) (ctx : Nat) (a : DWord) : Option (State × DWord) :=
  match classify a with
  | .paged => match s.translated ctx none a AccKind.load.right false with
    | .ok (s, t, _) => some (s, dw (s.readAs ctx none t.place 8))
    | .error _ => none
  | _ => none

/-- R327: the records of a revoked context are dropped, those taken and those in its launch queue. -/
def State.dropLaunches (s : State) (ctx : Nat) : State :=
  let mine := s.launches.filter fun l => l.2.ctx == ctx
  let taken := b2n (mine.any fun l => !l.2.started)
  let s := { s with launchFifo := s.launchFifo.filter (· != ctx) }
  match s.liveAbove ctx with
  | none => { s with launches := s.launches.filter fun l => l.2.ctx != ctx }
  | some anc =>
    let s := { s with launches := s.launches.filter fun l => l.2.ctx != ctx }
    let s := mine.foldl (fun s l => s.dropRecord anc l.2.addr l.2.done (l.2.placed.getD 0)) s
    match tget s.queues (s.ctx ctx).lq with
    | none => s
    | some q => (List.range (q.count - taken)).foldl (fun s k =>
        let a := dw (ofBytes (s.getBytes (q.slot (q.h + taken + k)) 8))
        if a.toNat % 64 ≠ 0 then s
        else match s.dispLoad anc (a + 32) with
          | some (s, d) => s.dropRecord anc a d 0
          | none => s) s

/-- The identity that a register of the edges names is that of a context (R45 [31:0]). -/
def State.namesCtx (s : State) (v ctx : Nat) : Bool := v % 4096 == ctx && bits v 31 16 == (s.ctx ctx).gen.toNat

/-- R500: a port leaves ingress; the frames not yet written are discarded, and counted in seq. A link in state 4 then runs the protocol of R461
as a link that is up, on the lanes that it has (DESIGN CHOICE, log 97). -/
def Port.closeIngress (p : Port) : Port :=
  { p with ing := #v[setFld p.ing[0] 63 63 0, p.ing[1], p.ing[2], setFld p.ing[3] 63 32 (fld p.ing[3] 63 32 + p.frames.length)],
           frames := [], cut := none,
           link := { p.link with state := if p.link.state = 4#3 then (if p.link.lanes < 2 then 3#3 else 2#3) else p.link.state } }

/-- R464, R500: a port of the table leaves ingress, and a link that comes to state 3 writes its record. -/
def State.leaveIngress (s : State) (port : Nat) : State :=
  let p := s.port port
  let q := p.closeIngress
  let s := s.setPort port q
  if q.link.state = 3 ∧ p.link.state ≠ 3 then s.logRec 1 0x12 port 0 0 0 0 else s

/-- R473: accept dwords, bindings, exports and ingress of a revoked context are cleared. -/
def State.clearEdges (s : State) (ctx : Nat) : State :=
  { s with
    vfs := s.vfs.map fun v => (v.1, if v.2.bind.getLsbD 63 && s.namesCtx (fld v.2.bind 31 0) ctx then { v.2 with bind := 0 } else v.2)
    exports := s.exports.map fun e => (e.1, if s.namesCtx (fld e.2.d0 31 0) ctx then { e.2 with d0 := setFld e.2.d0 63 63 0 } else e.2)
  }

/-- Fault packets that wait for a queue of a revoked context are discarded, and the overmen take what cores have kept (R385). -/
def State.dropPackets (s : State) (ctx : Nat) : State :=
  let s := { s with quads := s.quads.map fun (q : Nat × Quad) => (q.1, { q.2 with waiting := q.2.waiting.filter fun w => w.2.1 != ctx }) }
  (s.quads.map Prod.fst).foldl State.takeKept s

/-- R473: the packets in the fault queues of revoked contexts, which no other context has, are discarded. -/
def State.dropFaults (s : State) (ns : List Nat) : State :=
  ns.foldl (fun s n =>
    match (s.ctx n).fq with
    | some q =>
      if s.ctxs.any fun c => s.isLive c.1 && c.2.fq == some q then s
      else match tget s.queues q with
        | some x => { s with queues := tset s.queues q { x with h := x.t, count := 0 } }
        | none => s
    | none => s) s

/-- R39: the parts of the nodes of partitions that have ended leave the states that no tolerance allows any more. -/
def State.fitEnded (s : State) (ns : List Nat) : State := ns.foldl (fun s n => if (s.ctx n).part then s.fitNode (s.ctx n) else s) s

/-- The acceptance of a revocation: the subtree's contexts are Revoked, their accesses purged (R220, R473). -/
def State.revokeSubtree (s : State) (root : Nat) : State :=
  let ns := s.subtree root
  let ts := s.torn ns
  let s := s.haltSet ns
  let s := ns.foldl (fun s n => s.setCtx n { s.ctx n with st := .revoked, stopping := false, busy := false, accept := 0 }) s
  let s := (ns.foldl (fun s n => ((s.dropLaunches n).clearEdges n).dropPackets n) s).dropFaults ns
  let s := { s with late := s.late.filter (fun x => !ns.contains x.ctx), flrs := s.flrs.filter fun f => !ns.contains f.ctx }
  ((ns.foldl (fun s n => s.clearImgs n) s).fitEnded ns).recordTorn ts

/-! ### What returns (R344, R499, R473) -/

/-- Two entries carry the same rights and flags. -/
def Range.alike (a b : Range) : Bool := a.dt == b.dt && a.scrub == b.scrub && a.rights == b.rights

/-- An entry ends where another begins, in PPA and in MPA. -/
def Range.adjoins (a b : Range) : Bool := a.limit == b.base && a.target + (a.limit - a.base) == b.target

/-- R499: a piece returns to a table, joined with its neighbours; a table that has no room does without it (DEDUCED, log 51). -/
def regain (rs : List Range) (p : Range) : List Range :=
  let (p1, rs1) := match rs.find? fun r => r.adjoins p && r.alike p with
    | some l => ({ p with base := l.base, target := l.target }, rs.filter (· != l))
    | none => (p, rs)
  let (p2, rs2) := match rs1.find? fun r => p1.adjoins r && r.alike p1 with
    | some r => ({ p1 with limit := r.limit }, rs1.filter (· != r))
    | none => (p1, rs1)
  if rs.any fun r => decide (r.base.toNat < p.limit.toNat ∧ p.base.toNat < r.limit.toNat) then rs
  else
    let new := sortBy (fun r => r.base.toNat) (p2 :: rs2)
    if new.length ≤ 48 then new else rs

/-- R499: pieces return to a table; one that finds no room is tried again when others have returned. -/
def regainAll (rs : List Range) (ps : List Range) : Nat → List Range
  | 0 => rs
  | n + 1 =>
    let r := ps.foldl (fun (x : List Range × List Range) p =>
      let rs' := regain x.1 p
      (rs', if rs' = x.1 then x.2 ++ [p] else x.2)) (rs, [])
    regainAll r.1 r.2 n

/-- R499: every piece taken for a context returns to the tables that still belong to a live context. -/
def State.returnPieces (s : State) (ctx : Nat) : State :=
  let ps := (s.ctx ctx).removed
  ((ps.map fun r => (r.ctx, r.gen)).eraseDups).foldl (fun s t =>
    if s.isLive t.1 && (s.ctx t.1).gen == t.2 then
      let c := s.ctx t.1
      let mine := (ps.filter fun r => r.ctx == t.1 && r.gen == t.2).map Removal.piece
      s.setCtx t.1 { c with ranges := regainAll c.ranges mine mine.length }
    else s) (s.setCtx ctx { s.ctx ctx with removed := [] })

/-- R473: a queue that a revoked context created: its generation is bumped and it ends. -/
def State.endQueue (s : State) (qid : Nat) : State :=
  match tget s.queues qid with
  | some q => { s with queues := tdel s.queues qid, qgens := tset s.qgens qid (q.gen + 1) }
  | none => s

/-- The live partitions. -/
def State.partitions (s : State) : List Nat := (s.ctxs.map Prod.fst).filter fun n => s.isLive n && (s.ctx n).part

/-- R346: bytes that no key of the reader decrypts read as free bytes until they are written. -/
def State.lose (s : State) (lo n : Nat) : State :=
  { s.zeroRange lo (lo + n) with lost := s.lost ++ [{ lo := lo, hi := lo + n, serial := s.fresh }], fresh := s.fresh + 1 }

/-- The lines among n bytes of the second tier stand under no key any more. -/
def State.unkey (s : State) (lo n : Nat) : State := { s with keyed := s.keyed.filter fun x => !decide (lo < 128 * x.1 + 128 ∧ 128 * x.1 < lo + n) }

/-- R345, R346: what stood in the second tier under another key is not what a new partition's entries read there (DEDUCED, log 38). -/
def State.newKey (s : State) (rs : List Range) : State :=
  rs.foldl (fun s r =>
    let t := r.target.toNat
    let n := r.limit.toNat - r.base.toNat
    if t.testBit 52 && !t.testBit 51 then (s.lose (t % 2 ^ 52) n).unkey (t % 2 ^ 52) n else s) s

/-- The lines among n bytes of the second tier that stand under the key of another partition that lives. -/
def State.otherLines (s : State) (ctx lo n : Nat) : List (Nat × Nat) :=
  (s.keyed.filter fun x => decide (lo < 128 * x.1 + 128 ∧ 128 * x.1 < lo + n) && s.partitions.any fun m => m != ctx && s.keyOf m == some x.2).map
    fun x => (128 * x.1, 128 * x.1 + 128)

/-- R473, R93, R346: the memory of a revoked partition: its channels are zeroed, its scrubbed ranges too, and what other second-tier
ranges hold becomes unreadable with its key, but for lines under another's (DESIGN CHOICE, log 7) (DEDUCED, log 38). -/
def State.endKey (s : State) (ctx : Nat) : State :=
  let c := s.ctx ctx
  let s := (channelSet c).foldl (fun s ch => s.zeroRange (hbmPlace ch 0) (hbmPlace ch 0x60000000)) s
  c.ranges.foldl (fun s r =>
    let t := r.target.toNat
    let n := r.limit.toNat - r.base.toNat
    if t.testBit 52 && !t.testBit 51 then
      let lo := t % 2 ^ 52
      if r.scrub then (s.zeroRange lo (lo + n)).unkey lo n
      else
        let others := s.otherLines ctx lo n
        (withoutRanges (lo, lo + n) others).foldl (fun s x => (s.lose x.1 (x.2 - x.1)).unkey x.1 (x.2 - x.1)) s
    else s) s

/-- R344: core-ticks return to a context: to the budget that charges for it, if one does (DESIGN CHOICE, log 96). -/
def State.refund (s : State) (n : Nat) (b : DWord) : State :=
  match s.charged n with
  | some m => let c := s.ctx m; s.setCtx m { c with budget := c.budget + b }
  | none => s

/-- R437, R473: the resources of one revoked context return to the issuer of `ctxrevoke`. -/
def State.returnOne (s : State) (issuer ctx : Nat) : State :=
  let c := s.ctx ctx
  let s := if c.part then s.endKey ctx else s
  let s := if c.budget = unmetered then s else s.refund issuer c.budget
  let s := c.queues.foldl State.endQueue s
  let s := s.setCtx ctx { s.ctx ctx with budget := unmetered, queues := [], part := false, caps := [], ranges := [], rights := [] }
  s.returnPieces ctx

/-- R220: the numbers of revoked contexts return. -/
def State.freeNumbers (s : State) (ns : List Nat) : State := { s with ctxs := ns.foldl tdel s.ctxs }

/-- The revoked contexts of a subtree, ascending. -/
def State.revokedBelow (s : State) (root : Nat) : List Nat :=
  (s.ctxs.map Prod.fst).filter fun m => !s.isLive m && (m == root || s.isBelow m root)

end Sys2Proof.Machine
end

