-- ==== Sys2Proof/Machine/Context.lean ====
section
/-! DEFINITION. Context instructions (R212 to R222): their order, targets and refusals, descriptors and composition (R340 to R342,
R345), budgets, starts and stops, images (R343), `reflect`. -/
namespace Sys2Proof.Machine

/-! ### Shape (R212 to R215) -/

/-- R214: the value that a refusal writes. -/
def refusal (code : Nat) : DWord := dw (2 ^ 63 + code)

/-- What the body of a context instruction finds: a stop of the unit, or a refusal code. -/
inductive CtxFail
  | stop (s : Stop)
  | code (n : Nat)
  deriving DecidableEq, Repr

/-- A check of R214. -/
def need (ok : Bool) (code : Nat) : Except CtxFail Unit := if ok then .ok () else .error (.code code)

/-- How a check of an address ends a context instruction: a host page that does not translate yet parks its fibre (R349), an access that its
home refuses is an uncorrectable error (R450), any other failure is a refusal. -/
def AFail.ctx (k : Nat) : AFail → CtxFail
  | .hostMiss p g v w => .stop (.park (.hostMiss p g v w) k)
  | .isolated ch mpa => .stop (.park (.isolated ch mpa) k)
  | _ => .code 5

/-- An address check of a context instruction. -/
def ctxChk {α : Type} (k : Nat) (e : Except AFail α) : Except CtxFail α :=
  match e with
  | .ok a => .ok a
  | .error f => .error (f.ctx k)

/-- A context instruction: operands, its guard, token, the `fence.pk` before it, then the body, whose refusal has no other effect. -/
def ctxOp (rd : Reg) (srcs : List Src) (tk : Option (BitVec 3)) (guard : State → Except CtxFail Unit)
    (body : State → Except CtxFail (State × DWord)) (s : State) : Res := do
  let os := .dx rd :: srcs.map Opnd.x
  s.enter os
  match guard s with
  | .error (.stop x) => throw x
  | _ => pure ()
  s.settle os
  match tk with
  | some t => if s.myFibre.token t.toNat = 1 then throw (.wait 4 (2 ^ t.toNat) (.tokens (BitVec.ofNat 8 (2 ^ t.toNat))))
  | none => pure ()
  if !s.fenceDone s.who .pk then throw (.wait 7 4 (.fence .pk))
  match body s with
  | .ok (s', v) => .ok (s'.writeX rd v, .fall)
  | .error (.code n) => .ok (s.writeX rd (refusal n), .fall)
  | .error (.stop x) => .error x

/-- A context instruction without a guard of its own. -/
def noGuard (_ : State) : Except CtxFail Unit := .ok ()

/-- R213: the live strict descendant that a value names. -/
def State.targetOf (s : State) (v : DWord) : Except CtxFail Nat :=
  match s.named v with
  | some n => if s.isBelow n s.unit.ctx then .ok n else .error (.code 1)
  | none => .error (.code 1)

/-- R214 code 0x03: a long operation on a context is in progress. -/
def State.opBusy (s : State) (n : Nat) : Bool := (s.ctx n).busy

/-! ### Reading descriptors -/

/-- Dwords at rising addresses, as loads of the issuing context (DEDUCED, log 30). -/
def State.ctxDwords (s : State) (a : DWord) : Nat → Except CtxFail (State × List DWord)
  | 0 => .ok (s, [])
  | n + 1 =>
    match s.resolve s.unit.core s.unit.ctx .load a 8 with
    | .error f => .error (f.ctx 0)
    | .ok (s', t) =>
      if s'.lineOwned s.fresh t 8 then .error (.stop .hold)
      else do
        let (s2, l) ← s'.ctxDwords (a + 8) n
        .ok (s2, dw (s'.readNum s.who t 8) :: l)

/-- A range request (R93, R340). -/
structure RangeReq where
  valid : Bool
  bad : Bool
  r : Range
  deriving DecidableEq, Repr

/-- R93, R340: a range request from its four dwords. -/
def rangeReq (l : List DWord) : RangeReq :=
  let d (k : Nat) : DWord := l.getD k 0
  { valid := (d 0).getLsbD 63
    bad := fld (d 0) 62 53 != 0 || fld (d 1) 63 53 != 0 || fld (d 2) 63 53 != 0 || fld (d 0) 15 0 != 0 || fld (d 1) 15 0 != 0 ||
      fld (d 2) 15 0 != 0 || fld (d 3) 63 8 != 0
    r := { base := BitVec.ofNat 53 (d 0).toNat, limit := BitVec.ofNat 53 (d 1).toNat, target := BitVec.ofNat 53 (d 2).toNat,
           dt := (d 3).getLsbD 7, scrub := (d 3).getLsbD 6, rights := BitVec.ofNat 6 (d 3).toNat } }

/-- A descriptor as read: header, range requests, capability requests. -/
structure Desc where
  d : List DWord
  ranges : List RangeReq
  caps : List (DWord × DWord)
  deriving DecidableEq, Repr

def Desc.h (x : Desc) (k : Nat) : DWord := x.d.getD k 0
/-- R340: override bit k. -/
def Desc.ovr (x : Desc) (k : Nat) : Bool := (x.h 0).getLsbD k
def Desc.part (x : Desc) : Bool := (x.h 0).getLsbD 63

/-- R342: the bits of a capability request that must be zero. -/
def capReqBad (d : DWord) : Bool := fld d 62 60 != 0 || fld d 47 44 != 0 || fld d 27 3 != 0

/-- Read a descriptor. -/
def State.readDesc (s : State) (a : DWord) : Except CtxFail (State × Desc) := do
  need (a.toNat % 64 == 0) 5
  let (s, d) ← s.ctxDwords a 24
  let nr := fld (d.getD 4 0) 55 48
  let nc := fld (d.getD 4 0) 39 32
  let (s, rs) ← s.ctxDwords (a + 192) (4 * nr)
  let (s, cs) ← s.ctxDwords (a + 192 + dw (32 * nr)) (2 * nc)
  .ok (s, { d := d, ranges := (List.range nr).map fun i => rangeReq (rs.drop (4 * i)),
            caps := (List.range nc).map fun i => (cs.getD (2 * i) 0, cs.getD (2 * i + 1) 0) })

/-- R340: the bits of a dword of a creation descriptor that belong to a field; the others are reserved (DEDUCED, log 31). The low bits of
a save area's address are an alignment, refused with 0x05 (R52). -/
def Desc.named (x : Desc) (k : Nat) : DWord :=
  if 8 ≤ k ∧ !x.part then 0
  else match k with
  | 0 => 0xC0FFFFFC000001FF
  | 3 => if x.ovr 5 then 0xFFFFFFFC00000000 else 0xFFFFFFFFFFFFFFFF
  | 4 => 0x00FF00FFFFFF0000
  | 7 => 0x001FFFFFFFFFFFFF
  | 8 => 0x001FFFFFFFFFE000
  | 9 => 0xFFFFFF00FFFFFFFF
  | 10 => 0xF0000000
  | 12 => 0
  | 13 => 0
  | 14 => 0
  | 15 => 0
  | _ => 0xFFFFFFFFFFFFFFFF

/-- R340: the reserved fields of a creation descriptor. -/
def Desc.newBad (x : Desc) : Bool :=
  ((List.range 24).any fun k => x.h k &&& ~~~(x.named k) != 0) ||
  x.ranges.any (·.bad) || x.caps.any fun c => capReqBad c.1

/-- R340: in a grant descriptor every field is zero but ovr bits 6 and 7, dwords 2 and 6, nrange and ncap. -/
def Desc.grantBad (x : Desc) : Bool :=
  (x.h 0).toNat &&& (2 ^ 64 - 1 - 0xC0) != 0 || x.h 4 &&& (~~~(0x00FF00FF00000000#64)) != 0 ||
  ((List.range 24).any fun k => x.h k != 0 && !([0, 2, 4, 6].contains k)) ||
  x.ranges.any (·.bad) || x.caps.any fun c => capReqBad c.1

/-- R212: CTXFMT: the guard of an instruction that reads a descriptor, whose reserved fields are zero; a descriptor that cannot be read is
refused afterwards. -/
def descGuard (bad : Desc → Bool) (a : DWord) (s : State) : Except CtxFail Unit :=
  match s.readDesc a with
  | .ok (u, x) => if bad x then .error (.stop (.after u (.trap .ctxfmt a 0))) else .ok ()
  | .error (.stop z) => .error (.stop z)
  | .error (.code _) => .ok ()

/-! ### Composition of range tables (R341, R96) -/

/-- R93: the tier bits of an entry agree, and it holds a byte. -/
def Range.shaped (r : Range) : Bool :=
  decide (r.base.toNat < r.limit.toNat) && r.base.toNat.testBit 52 == (r.limit.toNat - 1).testBit 52 &&
  r.base.toNat.testBit 52 == r.target.toNat.testBit 52

/-- R341: the pieces of a request within a table. -/
def pieceOf (q p : Range) : Option Range :=
  let t := q.target.toNat
  let len := q.limit.toNat - q.base.toNat
  let lo := max t p.base.toNat
  let hi := min (t + len) p.limit.toNat
  if lo < hi then
    some { base := BitVec.ofNat 53 (q.base.toNat + (lo - t)), limit := BitVec.ofNat 53 (q.base.toNat + (hi - t)),
           target := BitVec.ofNat 53 (p.target.toNat + (lo - p.base.toNat)), rights := q.rights &&& p.rights,
           scrub := q.scrub || p.scrub, dt := q.dt || p.dt }
  else none

/-- The bytes that entries map. -/
def mapped (rs : List Range) : Nat := rs.foldl (fun n r => n + (r.limit.toNat - r.base.toNat)) 0

/-- R341: the entries of one request, none when it is refused; a request of no bytes has none. -/
def composeOne (table : List Range) (part : Bool) (q : RangeReq) : Option (List Range) :=
  if !q.valid || (!part && q.r.target != q.r.base) || q.r.base.toNat.testBit 52 != q.r.target.toNat.testBit 52 then none
  else if q.r.base = q.r.limit then some []
  else if !q.r.shaped then none
  else
    let out := table.filterMap (pieceOf q.r)
    if mapped out = q.r.limit.toNat - q.r.base.toNat then some out else none

/-- No two entries overlap. -/
def apart : List Range → Bool
  | [] => true
  | r :: l => !l.any (fun x => decide (r.base.toNat < x.limit.toNat ∧ x.base.toNat < r.limit.toNat)) && apart l

/-- R337: the second-tier address at which the control area begins. -/
def controlArea : Nat := 0x1FFE0000000

/-- R96, R337: no tier-0 target at or beyond the pool of n channels, none of the second tier in the control area or beyond it, and none of
the hosts beyond the last machine-physical address. -/
def inPool (n : Nat) (r : Range) : Bool :=
  let t := r.target.toNat
  let len := r.limit.toNat - r.base.toNat
  if !t.testBit 52 then decide (t + len ≤ n * 0x60000000)
  else if t.testBit 51 then decide (t + len ≤ 2 ^ 53) else decide (t % 2 ^ 52 + len ≤ controlArea)

/-- R337: n machine-physical bytes lie outside the control area. -/
def offControl (a n : Nat) : Bool := !a.testBit 52 || a.testBit 51 || decide (a % 2 ^ 52 + n ≤ controlArea)

/-- R341: compose requests over a table. -/
def compose (table : List Range) (part : Bool) (pool : Nat) (qs : List RangeReq) : Except CtxFail (List Range) := do
  let out ← qs.foldlM (fun l q => match composeOne table part q with
    | some x => .ok (l ++ x)
    | none => .error (.code 5)) []
  need (apart out && out.all (inPool pool)) 5
  need (decide (out.length ≤ 48)) 6
  .ok (sortBy (fun r => r.base.toNat) out)

/-! ### Ranges taken out of tables (R52, R345) -/

/-- An entry without the machine-physical bytes [lo, hi): what is left, and the piece taken. -/
def cutRange (lo hi : Nat) (r : Range) : List Range × Option Range :=
  let t := r.target.toNat
  let n := r.limit.toNat - r.base.toNat
  let a := max lo t
  let b := min hi (t + n)
  let at' (x : Nat) : BitVec 53 := r.base + BitVec.ofNat 53 (x - t)
  if a < b then
    ((if t < a then [{ r with limit := at' a }] else []) ++
      (if b < t + n then [{ r with base := at' b, target := BitVec.ofNat 53 b }] else []),
     some { r with base := at' a, limit := at' b, target := BitVec.ofNat 53 a })
  else ([r], none)

/-- R90: an access of a context admitted by a PPA of a range is not yet performed. -/
def State.admitted (s : State) (n : Nat) (p : Range) : Bool :=
  let hit (w : Who) (l : Lookups) : Bool := w.ctx == n && l.ppas.any fun a => decide (p.base.toNat ≤ a ∧ a < p.limit.toNat)
  s.flights.any (fun f => hit f.2.who f.2.adm) || s.stores.any (fun p => !p.2.granted && hit p.2.who p.2.adm) ||
  s.copies.any fun c => hit c.2.who c.2.adm

/-- R52, R345: take machine-physical bytes out of the tables of some contexts; refused when a table would grow too long. The change waits
for the accesses that the entries have admitted (R90). -/
def State.takeOut (s : State) (ns : List Nat) (lo hi : Nat) : Except CtxFail (State × List Removal) :=
  ns.foldlM (fun (x : State × List Removal) n => do
    let c := x.1.ctx n
    let cuts := c.ranges.map (cutRange lo hi)
    let new := cuts.flatMap Prod.fst
    need (decide (new.length ≤ 48)) 6
    if (cuts.filterMap Prod.snd).any (s.admitted n) then throw (.stop .hold)
    .ok (x.1.setCtx n { c with ranges := new }, x.2 ++ (cuts.filterMap Prod.snd).map fun p => { ctx := n, gen := c.gen, piece := p })) (s, [])

/-- R52: the machine-physical address of a PPA range, which must be mapped whole, with W and E, and contiguous (DEDUCED, log 32). -/
def coverMpa (rs : List Range) : Nat → Nat → Nat → Option Nat
  | 0, _, _ => none
  | fuel + 1, a, n =>
    match rs.find? fun r => decide (r.base.toNat ≤ a ∧ a < r.limit.toNat) with
    | none => none
    | some r =>
      let mpa := r.target.toNat + (a - r.base.toNat)
      if !r.rights.getLsbD 1 || !r.rights.getLsbD 4 then none
      else if a + n ≤ r.limit.toNat then some mpa
      else
        let k := r.limit.toNat - a
        if coverMpa rs fuel r.limit.toNat (n - k) = some (mpa + k) then some mpa else none

/-! ### Queues and capabilities (R342) -/

/-- R340: the granules of a ring's places, translated under the issuing context with R and W. -/
def State.ringPlaces (s : State) (a : DWord) (cap : Nat) : Except CtxFail (State × List Nat) := do
  let size := 8 * 2 ^ cap
  need (decide (3 ≤ cap ∧ cap ≤ 13) && a.toNat % size == 0 && classify a == .paged) 5
  (List.range (max 1 (size / 4096))).foldlM (fun (x : State × List Nat) k => do
    let die := some (dieOfCore s.unit.core)
    let (s1, _) ← ctxChk 0 (translate x.1 s.unit.ctx die (a + dw (4096 * k)) 0 false)
    let (s2, t, _) ← ctxChk 0 (translate s1 s.unit.ctx die (a + dw (4096 * k)) 1 true)
    .ok (s2, x.2 ++ [t.place])) (s, [])

/-- R342: the queue controller takes a free queue ID; an ID that was never used has generation 0 (DESIGN CHOICE, log 34). -/
def State.newQueue (s : State) (q : Queue) : Option (Nat × BitVec 16 × State) :=
  let free := fun (i : Nat) => (tget s.queues i).isNone
  match (lowest 65536 fun i => free i && (tget s.qgens i).isNone).or (lowest 65536 free) with
  | none => none
  | some i =>
    let g := (tget s.qgens i).getD 0
    some (i, g, { s with queues := tset s.queues i { q with gen := g }, qgens := tset s.qgens i g })

/-- A new queue with a ring of the issuing context. -/
def State.makeQueue (s : State) (ring : DWord) (cap : Nat) (launchOf ringOf : Option Nat) : Except CtxFail (Nat × BitVec 16 × State) := do
  let (s, ps) ← s.ringPlaces ring cap
  match s.newQueue { ring := ps, cap := cap, launchOf := launchOf, ringOf := ringOf } with
  | some x => .ok x
  | none => .error (.code 5)

/-- A capability with its rights masked. -/
def Cap.masked (c : Cap) (m : Nat) : Cap := { c with enq := c.enq && m.testBit 0, deq := c.deq && m.testBit 1, steal := c.steal && m.testBit 2 }

/-- R342: one capability request, from the issuer to another context. -/
def State.applyCap (s : State) (dst : Nat) (r : DWord × DWord) : Except CtxFail State := do
  let me := s.unit.ctx
  let mine := fld r.1 59 48
  let its := fld r.1 43 32
  let mask := fld r.1 2 0
  if r.1.getLsbD 63 then
    need ((tget s.myCtx.caps mine).isNone) 5
    let (id, g, s) ← s.makeQueue r.2 (fld r.1 31 28) none none
    let k : Cap := { qid := id, gen := g, steal := true, deq := true, enq := true }
    let c := s.ctx me
    let s := s.setCtx me { c with caps := tset c.caps mine k, queues := c.queues ++ [id] }
    let t := s.ctx dst
    .ok (s.setCtx dst { t with caps := tset t.caps its (k.masked mask) })
  else
    match tget s.myCtx.caps mine with
    | none => .error (.code 5)
    | some k => let t := s.ctx dst; .ok (s.setCtx dst { t with caps := tset t.caps its (k.masked mask) })

def State.applyCaps (s : State) (dst : Nat) (rs : List (DWord × DWord)) : Except CtxFail State := rs.foldlM (fun s r => s.applyCap dst r) s

/-! ### Rights and budgets (R342, R344) -/

/-- R342: the rights mask of a descriptor, 4096 bytes. -/
def State.rightsMask (s : State) (a : DWord) : Except CtxFail (State × List Byte) := do
  need (a.toNat % 4096 == 0) 5
  let (s, ds) ← s.ctxDwords a 512
  .ok (s, ds.flatMap fun d => toBytes 8 d.toNat)

/-- The rights map ANDed with a mask. -/
def andRights (m : Tab Byte) (mask : List Byte) : Tab Byte :=
  (m.map fun p => (p.1, p.2 &&& mask.getD p.1 0)).filter fun p => p.2 != 0

/-- A rights map with rights added. -/
def orRights (m add : Tab Byte) : Tab Byte := add.foldl (fun t p => tset t p.1 ((tget t p.1).getD 0 ||| p.2)) m

/-- R344: draw core-ticks from the budget that charges for the issuer. -/
def State.draw (s : State) (b : DWord) : Except CtxFail State :=
  match s.charged s.unit.ctx with
  | none => .ok s
  | some m =>
    let c := s.ctx m
    if b.toNat ≤ c.budget.toNat then .ok (s.setCtx m { c with budget := c.budget - b }) else .error (.code 5)

/-! ### `ctxnew` (R216, R50 to R52, R345) -/

/-- R466: the link of a die has failed. -/
def State.dieFailed (s : State) (d : Nat) : Bool := (s.dieOf d).link.failed

/-- The dies of a node's clusters. -/
def nodeDies (c : Ctx) : List Nat := ((nodeClusters c).map (· / 64)).eraseDups

/-- R466: the dies of the cores and the channels of a context's partition. -/
def State.partDies (s : State) (n : Nat) : List Nat :=
  (nodeDies (s.ctx (s.partitionOf n)) ++ (channelSet (s.ctx (s.partitionOf n))).map (· / 64)).eraseDups

/-- R50, R51: the share and cages of a child: those of the descriptor, or the defaults. -/
def placeShare (p c : Ctx) (x : Desc) : Option Ctx :=
  let (lo, hi) := shareOf p
  let n := min 8 (2 ^ c.order.toNat)
  if x.ovr 5 then
    let shoff := fld (x.h 3) 63 56
    let shlen := fld (x.h 3) 55 47
    let cageoff := fld (x.h 3) 46 34
    let a := shoff * 4096
    let b := (shoff + shlen) * 4096
    let ca := cageoff * 128
    let cb := ca + n * 34816
    if 1 ≤ shlen ∧ shlen ≤ 256 ∧ lo ≤ a ∧ b ≤ hi ∧ lo ≤ ca ∧ cb ≤ hi ∧ !overlap a (b - a) ca (cb - ca) then
      some { c with shoff := BitVec.ofNat 8 shoff, shlen := BitVec.ofNat 9 shlen, cageoff := BitVec.ofNat 13 cageoff }
    else none
  else
    let (a, b) := if 3 ≤ c.order.toNat then (lo, hi)
      else let o := c.base.toNat % 8 * 131072; (o, o + 2 ^ c.order.toNat * 131072)
    let k := (n * 34816 + 4095) / 4096 * 4096
    if lo ≤ a ∧ b ≤ hi ∧ a + k + 4096 ≤ b then
      some { c with shoff := BitVec.ofNat 8 (a / 4096), shlen := BitVec.ofNat 9 ((b - k - a) / 4096),
                    cageoff := BitVec.ofNat 13 ((b - k) / 128) }
    else none

/-- Two nodes have a core in common. -/
def nodesMeet (a b : Ctx) : Bool := overlap a.base.toNat (2 ^ a.order.toNat) b.base.toNat (2 ^ b.order.toNat)

/-- R345, R97: the checks of a new partition. -/
def State.partOk (s : State) (c : Ctx) : Bool :=
  let p := s.myCtx
  let all := (List.range 512).filter fun ch => c.chmap.getLsbD ch
  p.depth == 0 && decide (6 ≤ c.order.toNat) &&
  all.all (fun ch => (nodeClusters c).contains ch && (nodeClusters p).contains ch && !p.chmap.getLsbD ch && !s.dieFailed (ch / 64)) &&
  s.partitions.all fun n =>
    let q := s.ctx n
    c.chmap &&& q.chmap == 0 && !(q.depth == c.depth && nodesMeet q c)

/-- R338: the partition's items, which every context of it copies. -/
def Ctx.copyPart (c p : Ctx) : Ctx :=
  { c with dq := p.dq, ptroot := p.ptroot, seed := p.seed, dmask := p.dmask, pno := p.pno, ltol := p.ltol, chmap := p.chmap }

/-- R216, R44, R340: the child as its descriptor and its parent make it, before tables, queues and save area (DEDUCED, log 28). -/
def State.childOf (s : State) (x : Desc) : Except CtxFail Ctx := do
  let p := s.myCtx
  let d0 := x.h 0
  let order := if x.ovr 0 then fld d0 55 52 else p.order.toNat
  let base := if x.ovr 0 then fld d0 51 40 else p.base.toNat
  let prio := if x.ovr 1 then fld d0 39 37 else p.prio.toNat
  let scap := if x.ovr 2 then fld d0 36 34 else p.scap.toNat
  let dl := if x.ovr 3 then fld (x.h 1) 63 32 else p.deadline.toNat
  need (decide (order ≤ p.order.toNat ∧ base % 2 ^ order = 0 ∧ p.base.toNat ≤ base ∧ base + 2 ^ order ≤ p.base.toNat + 2 ^ p.order.toNat)) 5
  need (decide (prio ≤ p.prio.toNat ∧ 1 ≤ scap ∧ scap ≤ p.scap.toNat ∧ dl ≤ p.deadline.toNat)) 5
  let c : Ctx :=
    { parent := some (s.unit.ctx, p.gen), depth := p.depth + 1, part := x.part, trest := d0.getLsbD 62, prio := BitVec.ofNat 3 prio,
      scap := BitVec.ofNat 3 scap, order := BitVec.ofNat 4 order, base := BitVec.ofNat 12 base, deadline := BitVec.ofNat 32 dl,
      slice := if x.ovr 4 then BitVec.ofNat 32 (fld (x.h 1) 31 0) else p.slice, fq := p.fq, caps := p.caps }
  need (!(nodeDies c).any s.dieFailed) 5
  let c : Ctx := if x.part then
      { c with ptroot := BitVec.ofNat 53 (fld (x.h 8) 52 13 * 8192), seed := BitVec.ofNat 16 (fld (x.h 9) 63 48),
               dmask := BitVec.ofNat 8 (fld (x.h 9) 47 40), ltol := BitVec.ofNat 32 (fld (x.h 9) 31 0),
               chmap := BitVec.ofNat 512 (ofLanes 64 ((List.range 8).map fun k => (x.h (16 + k)).toNat)),
               pno := BitVec.ofNat 6 ((lowest 64 fun k => s.partitions.all fun n => (s.ctx n).pno.toNat != k).getD 0) }
    else c.copyPart p
  if x.part then need (s.partOk c) 5
  match placeShare p c x with
  | some c => .ok c
  | none => .error (.code 5)

/-- R52: the length of a save area. -/
def saveLen (c : Ctx) : Nat := (c.shlen.toNat * 4096 + 292 * 1024) * (nodeClusters c).length

/-- R340, R341, R344, R216: a descriptor without nonzero reserved fields, a free number, and the depth and number of partitions. -/
def State.newNumber (s : State) (x : Desc) : Except CtxFail Nat := do
  let n ← match lowest 4096 fun i => (tget s.ctxs i).isNone with
    | some n => .ok n
    | none => .error (.code 4)
  need (decide (s.myCtx.depth < 7) && (!x.part || decide (s.partitions.length < 64))) 4
  .ok n

/-- The contexts whose tables lose what a new context takes: the issuer and its live descendants (R52, R345). -/
def State.losers (s : State) : List Nat :=
  s.unit.ctx :: (s.ctxs.map Prod.fst).filter fun m => s.isLive m && s.isBelow m s.unit.ctx

/-- R52: the save area of a new context: its MPA, taken out of the tables. -/
def State.takeSave (s : State) (x : Desc) (c : Ctx) : Except CtxFail (State × Nat × List Removal) := do
  let sv := fld (x.h 7) 52 0
  need (sv != 0 && sv % 65536 == 0) 5
  let mpa ← match coverMpa s.myCtx.ranges 64 sv (saveLen c) with
    | some m => .ok m
    | none => .error (.code 5)
  let (s, gone) ← s.takeOut s.losers mpa (mpa + saveLen c)
  .ok (s, mpa, gone)

/-- R341, R345: the range table of a new context; a partition's is taken out of the tables. -/
def State.newTable (s : State) (x : Desc) (c : Ctx) : Except CtxFail (State × List Range × List Removal) := do
  let pool := (channelSet c).length
  let table ← if x.ranges.isEmpty then pure s.myCtx.ranges else compose s.myCtx.ranges x.part pool x.ranges
  need (table.all (inPool pool)) 5
  if x.part then do
    let (s, gone) ← table.foldlM (fun (y : State × List Removal) r => do
      let (s, g) ← y.1.takeOut s.losers r.target.toNat (r.target.toNat + (r.limit.toNat - r.base.toNat))
      .ok (s, y.2 ++ g)) (s, [])
    .ok (s.newKey table, table, gone)
  else .ok (s, table, [])

/-- R342: the rights map of a new context. -/
def State.newRights (s : State) (x : Desc) : Except CtxFail (State × Tab Byte) :=
  if x.ovr 7 then do
    let (s, m) ← s.rightsMask (x.h 6)
    .ok (s, andRights s.myCtx.rights m)
  else .ok (s, s.myCtx.rights)

/-- R344: the budget that a new context is given. -/
def State.newBudget (s : State) (x : Desc) : Except CtxFail State := if x.ovr 6 then s.draw (x.h 2) else .ok s

/-- R340: the launch queue of a new context, with the issuer's capability for it. -/
def State.launchQueue (s : State) (x : Desc) (n : Nat) : Except CtxFail State := do
  let (lq, lg, s) ← s.makeQueue (x.h 5) (fld (x.h 4) 31 28) (some n) none
  let s := s.setCtx n { s.ctx n with lq := lq, queues := [lq] }
  .ok (s.setCtx s.unit.ctx { s.myCtx with caps := tset s.myCtx.caps 4095 { qid := lq, gen := lg, steal := false, deq := false, enq := true } })

/-- R340: the dirty ring of a new partition, with the issuer's capability for it. -/
def State.dirtyRing (s : State) (x : Desc) (n : Nat) : Except CtxFail State :=
  if x.part then do
    let (dq, dg, s) ← s.makeQueue (x.h 11) (fld (x.h 10) 31 28) none (some n)
    let s := s.setCtx n { s.ctx n with dq := dq, queues := (s.ctx n).queues ++ [dq] }
    .ok (s.setCtx s.unit.ctx { s.myCtx with caps := tset s.myCtx.caps 4094 { qid := dq, gen := dg, steal := false, deq := true, enq := false } })
  else .ok s

/-- R340: the fault queue that a descriptor names among the new context's capabilities. -/
def State.faultQueue (s : State) (x : Desc) (n : Nat) : Except CtxFail State :=
  if x.ovr 8 then
    match tget (s.ctx n).caps (fld (x.h 4) 27 16) with
    | some k => .ok (s.setCtx n { s.ctx n with fq := some k.qid, accept := 0xFFFFFFFFFFFFFFFF })
    | none => .error (.code 5)
  else .ok s

/-- R216: what `ctxnew` does of a descriptor's address (DESIGN CHOICE, log 29). -/
def ctxnewBody (a : DWord) (s : State) : Except CtxFail (State × DWord) := do
  let (s, x) ← s.readDesc a
  let n ← s.newNumber x
  let c ← s.childOf x
  need (decide (x.ranges.length ≤ 48)) 5
  let gen := ((tget s.gens n).map (· + 1)).getD 0
  let (s, mpa, gone) ← s.takeSave x c
  let (s, table, gone2) ← s.newTable x c
  let (s, rights) ← s.newRights x
  let s ← s.newBudget x
  let c := { c with gen := gen, budget := if x.ovr 6 then x.h 2 else unmetered, svarea := BitVec.ofNat 53 mpa, ranges := table,
                    rights := rights, removed := gone ++ gone2 }
  let s := { s.setCtx n c with gens := tset s.gens n gen }
  let s ← s.launchQueue x n
  let s ← s.dirtyRing x n
  let s ← s.applyCaps n x.caps
  let s ← s.faultQueue x n
  .ok (if x.part then s.fitNode c else s, s.ctxid n)

def effCtxnew (rd : Reg) (ra : Src) (s : State) : Res :=
  ctxOp rd [ra] none (fun s => descGuard Desc.newBad (s.xVal ra.r) s) (fun s => ctxnewBody (s.xVal ra.r) s) s

/-! ### `ctxgrant` (R217) -/

/-- The contexts on the path from the issuer to a target, the target first. -/
def State.path (s : State) (t : Nat) : List Nat := (s.upFrom t).takeWhile fun n => n != s.unit.ctx

/-- R217: ranges added to the tables on a path. -/
def State.grantRanges (s : State) (ns : List Nat) (out : List Range) : Except CtxFail State :=
  ns.foldlM (fun (s : State) n => do
    let c := s.ctx n
    let new := sortBy (fun r => r.base.toNat) (c.ranges ++ out)
    need (apart new && out.all (inPool (channelSet c).length)) 5
    need (decide (new.length ≤ 48)) 6
    pure (s.setCtx n { c with ranges := new })) s

/-- R217, R342: rights added to the maps on a path. -/
def State.grantRights (s : State) (x : Desc) (ns : List Nat) : Except CtxFail State :=
  if x.ovr 7 then do
    let (s, m) ← s.rightsMask (x.h 6)
    let add := andRights s.myCtx.rights m
    .ok (ns.foldl (fun (s : State) n => let c := s.ctx n; s.setCtx n { c with rights := orRights c.rights add }) s)
  else .ok s

/-- R217, R344: core-ticks drawn for the target (DEDUCED, log 33). -/
def State.grantBudget (s : State) (x : Desc) (t : Nat) : Except CtxFail State :=
  if x.ovr 6 then do
    let s ← s.draw (x.h 2)
    let c := s.ctx t
    .ok (s.setCtx t { c with budget := if c.budget = unmetered then x.h 2 else c.budget + x.h 2 })
  else .ok s

/-- R217: what `ctxgrant` does of a target's identity and a descriptor's address. -/
def ctxgrantBody (v a : DWord) (s : State) : Except CtxFail (State × DWord) := do
  let t ← s.targetOf v
  need ((s.ctx t).st != .saved) 2
  need (!s.opBusy t) 3
  let (s, x) ← s.readDesc a
  need (decide (x.ranges.length ≤ 48)) 5
  let out ← if x.ranges.isEmpty then pure [] else compose s.myCtx.ranges false (channelSet s.myCtx).length x.ranges
  need (!(s.partDies t).any s.dieFailed) 5
  let s ← s.grantRanges (s.path t) out
  let s ← s.grantRights x (s.path t)
  let s ← s.grantBudget x t
  let s ← s.applyCaps t x.caps
  .ok (s, 0)

def effCtxgrant (rd : Reg) (ra rb : Src) (s : State) : Res :=
  ctxOp rd [ra, rb] none (fun s => descGuard Desc.grantBad (s.xVal rb.r) s) (fun s => ctxgrantBody (s.xVal ra.r) (s.xVal rb.r) s) s

/-! ### Starting and stopping (R218) -/

/-- R438: the target of a paused `ctxstop` whose subtree holds a context. -/
def State.stopTarget (s : State) (n : Nat) : Option Nat :=
  s.imgs.findSome? fun p => p.2.ops.findSome? fun o =>
    let t := fld o.word 56 45
    if fld o.word 62 60 = 1 ∧ s.isLive t ∧ (s.ctx t).gen.toNat = fld o.word 44 29 ∧ (s.upFrom n).contains t then some t else none

/-- R218: a context becomes Running, and the descendants that the stop of it took with it; those that a paused `ctxstop` was taking to
Stopped stay there (R438). -/
def State.startCtx (s : State) (t : Nat) : State :=
  let s := s.setCtx t { s.ctx t with st := .running, stoppedBy := none }
  (s.subtree t).foldl (fun (s : State) n =>
    let k := s.ctx n
    if k.stoppedBy = some t then
      match s.stopTarget n with
      | some u => s.setCtx n { k with stoppedBy := if u = n then none else some u }
      | none => s.setCtx n { k with st := .running, stoppedBy := none }
    else s) s

/-- R218: what `ctxstart` does of a target's identity. -/
def ctxstartBody (v : DWord) (s : State) : Except CtxFail (State × DWord) := do
  let t ← s.targetOf v
  let c := s.ctx t
  need ((c.st == .created || c.st == .stopped) && ((s.path t).drop 1).all (fun n => (s.ctx n).st == .running) &&
    !(s.partDies t).any s.dieFailed) 2
  need (!s.opBusy t) 3
  .ok (s.startCtx t, 0)

def effCtxstart (rd : Reg) (ra : Src) (s : State) : Res := ctxOp rd [ra] none noGuard (fun s => ctxstartBody (s.xVal ra.r) s) s

/-- R429: a progress word. -/
def progressWord (op tok tnum tgen : Nat) : DWord := dw (2 ^ 63 + op * 2 ^ 60 + tok * 2 ^ 57 + tnum * 2 ^ 45 + tgen * 2 ^ 29)

/-- R214: a long operation is accepted: its token is pending, the target busy, and its progress recorded (DEDUCED, log 35). -/
def State.acceptLong (s : State) (op : Nat) (tk : BitVec 3) (t : Nat) (image : DWord) : State :=
  let i := s.me
  let f := s.myFibre
  let o : LongOp := { word := progressWord op tk.toNat t (s.ctx t).gen.toNat, image := image, uid := f.uid }
  let s := s.setMe { i with ops := i.ops ++ [o] }
  let s := s.setMyFibre (s.myFibre.setToken tk.toNat 1)
  if op = 4 then s else s.setCtx t { s.ctx t with busy := true }

/-- The contexts that a `ctxstop` of a target takes to Stopped: it and its Running descendants. -/
def State.toStop (s : State) (t : Nat) : List Nat := (s.subtree t).filter fun n => (s.ctx n).st == .running

/-- R218: a `ctxstop` begins; its blocks make the requests (R437). It takes the contexts that are Running when it is accepted, and no
descendant that starts later (DESIGN CHOICE, log 107); one that another stop is taking goes on as it stands (R438). -/
def State.beginStop (s : State) (t : Nat) : State :=
  (s.toStop t).foldl (fun (s : State) n =>
    if (s.ctx n).stopping then s else (s.releaseClaims n).setCtx n { (s.releaseClaims n).ctx n with stopping := true, stopUpTo := 0 }) s

/-- R218: what `ctxstop` does of a target's identity. -/
def ctxstopBody (v : DWord) (tk : BitVec 3) (s : State) : Except CtxFail (State × DWord) := do
  let t ← s.targetOf v
  need ((s.ctx t).st == .running) 2
  need (!s.opBusy t) 3
  .ok ((s.acceptLong 1 tk t 0).beginStop t, 0)

def effCtxstop (rd : Reg) (ra : Src) (tk : BitVec 3) (s : State) : Res :=
  ctxOp rd [ra] (some tk) noGuard (fun s => ctxstopBody (s.xVal ra.r) tk s) s

/-! ### Images (R343) -/

/-- The parts of an image. -/
inductive Seg
  | head
  | control (ctx : Nat)
  | cage (ctx core : Nat)
  | share (ctx cl : Nat)
  | held (ctx cl : Nat)
  deriving DecidableEq, Repr

/-- The bytes of a part. -/
def State.segLen (s : State) : Seg → Nat
  | .head => 4096
  | .control _ => 72 * 1024
  | .cage _ _ => 34 * 1024
  | .share n _ => (s.ctx n).shlen.toNat * 4096
  | .held _ _ => 292 * 1024

/-- R343: the parts of a subtree's image; contexts in ascending number, of each its control structures, cages, shares, and what it held of
clusters, in ascending order (DESIGN CHOICE, log 110). -/
def State.segs (s : State) (t : Nat) : List Seg :=
  .head :: (s.subtree t).flatMap fun n =>
    let c := s.ctx n
    [Seg.control n] ++ (nodeCores c.order.toNat c.base.toNat).map (Seg.cage n) ++ (nodeClusters c).map (Seg.share n) ++
    ((nodeClusters c).filter fun cl => ((tget s.saves (clKey n cl)).map SaveRec.tiles).getD false).map (Seg.held n)

/-- The parts with their offsets. -/
def State.layout (s : State) : Nat → List Seg → List (Nat × Seg)
  | _, [] => []
  | o, g :: gs => (o, g) :: s.layout (o + s.segLen g) gs

/-- The 4 KiB blocks of an image. -/
def State.imageBlocks (s : State) (t : Nat) : Nat := ((s.segs t).foldl (fun n g => n + s.segLen g) 0 + 4095) / 4096

/-! ### The control area (R337 to R339) -/

/-- R46: the state codes. -/
def CState.code : CState → Nat
  | .created => 0 | .running => 1 | .stopped => 2 | .saved => 3 | .revoked => 4

/-- The control-area address of a context's structures: its RCB, range table, rights map, capability table, 72 KiB for each context
(DESIGN CHOICE, log 98). -/
def controlAddr (n : Nat) : Nat := 2 ^ 52 + controlArea + 0x1000000 + n * 0x12000

/-- R338: a dword of a context's RCB. -/
def State.rcbDword (s : State) (n k : Nat) : DWord :=
  let c := s.ctx n
  match k with
  | 0 => s.ctxid n
  | 1 =>
    dw ((match c.parent with | some (p, g) => p * 2 ^ 52 + g.toNat * 2 ^ 36 | none => 0xFFF * 2 ^ 52) + b2n c.part * 2 ^ 35 +
      b2n c.trest * 2 ^ 34 + c.st.code * 2 ^ 31 + c.prio.toNat * 2 ^ 28 + c.scap.toNat * 2 ^ 25 + c.order.toNat * 2 ^ 21 +
      c.base.toNat * 2 ^ 9 + b2n c.busy * 2 ^ 8)
  | 2 => dw (c.deadline.toNat * 2 ^ 32 + c.slice.toNat)
  | 3 => c.budget
  | 4 => c.thr.setWidth 64
  | 5 => dw (c.shoff.toNat * 2 ^ 56 + c.shlen.toNat * 2 ^ 47 + c.cageoff.toNat * 2 ^ 34)
  | 6 => dw (controlAddr n + 256 + 1536)
  | 7 => dw (c.ranges.length * 2 ^ 58 + controlAddr n + 256)
  | 8 => dw (controlAddr n + 256 + 1536 + 4096)
  | 9 => dw (c.lq * 2 ^ 48 + c.fq.getD 0 * 2 ^ 32 + c.dq * 2 ^ 16)
  | 10 => dw (c.ptroot.toNat / 8192 * 8192)
  | 11 => dw (c.seed.toNat * 2 ^ 48 + c.dmask.toNat * 2 ^ 40 + c.pno.toNat * 2 ^ 34 + c.ltol.toNat)
  | 20 => dw (c.svarea.toNat / 65536 * 65536)
  | k => if 12 ≤ k ∧ k ≤ 19 then hdw c.chmap (k - 12) else 0

/-- R93: a dword of a context's range table. -/
def State.rangeDword (s : State) (n k : Nat) : DWord :=
  match (s.ctx n).ranges[k / 4]? with
  | none => 0
  | some r => match k % 4 with
    | 0 => dw (2 ^ 63 + r.base.toNat)
    | 1 => dw r.limit.toNat
    | 2 => dw r.target.toNat
    | _ => dw (b2n r.dt * 128 + b2n r.scrub * 64 + r.rights.toNat)

/-- R339: a dword of a context's capability table: of an empty slot, 0. -/
def State.capDword (s : State) (n k : Nat) : DWord :=
  match tget (s.ctx n).caps (k / 2) with
  | some c => if k % 2 = 0 then dw (c.qid * 2 ^ 48 + c.gen.toNat * 2 ^ 32 + 8 + b2n c.steal * 4 + b2n c.deq * 2 + b2n c.enq) else 0
  | none => 0

/-- R337: a dword of a context's structures, by its offset from `controlAddr`. -/
def State.controlDword (s : State) (n off : Nat) : DWord :=
  let k := off / 8
  if k < 32 then s.rcbDword n k
  else if k < 224 then s.rangeDword n (k - 32)
  else if k < 736 then dw (ofBytes ((List.range 8).map fun i => (tget (s.ctx n).rights (8 * (k - 224) + i)).getD 0))
  else if k < 8928 then s.capDword n (k - 736)
  else 0

/-- A byte of a context's structures. -/
def State.controlByte (s : State) (n off : Nat) : Byte := BitVec.ofNat 8 (lane (s.controlDword n off).toNat 8 (off % 8))

/-- Bytes of a part (DEDUCED, log 36). -/
def State.segBytes (s : State) (t : Nat) (g : Seg) (o n : Nat) : Bytes :=
  match g with
  | .head => (List.range n).map fun i => Config.imageByte t (o + i)
  | .control m => (List.range n).map fun i => s.controlByte m (o + i)
  | .cage m core => (List.range n).map fun i => s.cageByte core m (o + i)
  | .share m cl => let c := s.ctx m; s.getMpa c (c.svarea.toNat + saveOff c cl o) n
  | .held m cl =>
    let c := s.ctx m
    let a := 256 * 1024
    (s.getMpa c (c.svarea.toNat + saveOff c cl (c.shlen.toNat * 4096 + o)) n).zipIdx.map fun b =>
      if a ≤ o + b.2 ∧ o + b.2 < a + 34816 then s.cageByte (coreAt cl 8) m (o + b.2 - a) else b.1

/-- Write bytes into a cage, where they differ. -/
def State.loadCage (s : State) (core ctx o : Nat) (bs : Bytes) : State :=
  bs.zipIdx.foldl (fun s b => if s.cageByte core ctx (o + b.2) = b.1 then s else s.setCageByte core ctx (o + b.2) b.1) s

/-- R219: bytes of a part are placed back. -/
def State.loadSeg (s : State) (g : Seg) (o : Nat) (bs : Bytes) : State :=
  match g with
  | .head | .control _ => s
  | .cage m core => s.loadCage core m o bs
  | .share m cl =>
    let c := s.ctx m
    (s.putMpa c (c.svarea.toNat + saveOff c cl o) bs).putBytes (spadPlace cl (c.shoff.toNat * 4096 + o)) bs
  | .held m cl =>
    let c := s.ctx m
    let s := s.putMpa c (c.svarea.toNat + saveOff c cl (c.shlen.toNat * 4096 + o)) bs
    let a := 256 * 1024
    let z := 290 * 1024
    let lo := max o a
    let hi := min (o + bs.length) z
    let s := if lo < hi then s.loadCage (coreAt cl 8) m (lo - a) ((bs.drop (lo - o)).take (hi - lo)) else s
    if overlap o bs.length z 128 then
      let raw := s.getMpa c (c.svarea.toNat + saveOff c cl (c.shlen.toNat * 4096 + z)) 128
      { s with sems := tset s.sems (clKey m cl) (Vector.ofFn fun (k : Fin 16) => BitVec.ofNat 16 (ofBytes ((raw.drop (8 * k.val)).take 8))) }
    else s

/-- The parts that a block covers: part, offset in it, offset in the block, length. -/
def State.blockParts (s : State) (t blk : Nat) : List (Seg × Nat × Nat × Nat) :=
  (s.layout 0 (s.segs t)).filterMap fun p =>
    let lo := max p.1 (4096 * blk)
    let hi := min (p.1 + s.segLen p.2) (4096 * blk + 4096)
    if lo < hi then some (p.2, lo - p.1, lo - 4096 * blk, hi - lo) else none

/-- The place of an image block under the issuing context. -/
def State.imagePlace (s : State) (core ctx : Nat) (a : DWord) (load : Bool) : Except AFail (State × Target) :=
  match classify a with
  | .paged => (s.resolve core ctx (if load then .copySrc else .copyDst) a 4096).map fun x => ({ x.1 with lookups := s.lookups }, x.2)
  | _ => .error (.trap .kind a 0)

/-- R219, R343: an image is 4 KiB aligned and every block passes its checks. -/
def State.imageOk (s : State) (a : DWord) (n : Nat) (load : Bool) : Except CtxFail Unit := do
  need (a.toNat % 4096 == 0) 5
  (List.range n).forM fun k =>
    ctxChk (if load then 8 else 9) ((s.imagePlace s.unit.core s.unit.ctx (a + dw (4096 * k)) load).map fun _ => ())

/-- The target of a long operation is busy, or is not. -/
def State.setBusy (s : State) (t : Nat) (b : Bool) : State := s.setCtx t { s.ctx t with busy := b }

/-- R219: what `ctxsave` (`load` false) and `ctxload` do of a target's identity and an image's address. -/
def imageBody (load : Bool) (v a : DWord) (tk : BitVec 3) (s : State) : Except CtxFail (State × DWord) := do
  let t ← s.targetOf v
  need ((s.ctx t).st == if load then .saved else .stopped) 2
  need (!s.opBusy t) 3
  s.imageOk a (s.imageBlocks t) load
  .ok (s.acceptLong (if load then 3 else 2) tk t a, 0)

def effCtxsave (rd : Reg) (ra rb : Src) (tk : BitVec 3) (s : State) : Res :=
  ctxOp rd [ra, rb] (some tk) noGuard (fun s => imageBody false (s.xVal ra.r) (s.xVal rb.r) tk s) s

def effCtxload (rd : Reg) (ra rb : Src) (tk : BitVec 3) (s : State) : Res :=
  ctxOp rd [ra, rb] (some tk) noGuard (fun s => imageBody true (s.xVal ra.r) (s.xVal rb.r) tk s) s

/-- R220: what `ctxrevoke` does of a target's identity. -/
def ctxrevokeBody (v : DWord) (tk : BitVec 3) (s : State) : Except CtxFail (State × DWord) := do
  let t ← s.targetOf v
  .ok ((s.acceptLong 4 tk t 0).revokeSubtree t, 0)

def effCtxrevoke (rd : Reg) (ra : Src) (tk : BitVec 3) (s : State) : Res :=
  ctxOp rd [ra] (some tk) noGuard (fun s => ctxrevokeBody (s.xVal ra.r) tk s) s

/-! ### `ctxinfo` (R221, R457) and `reflect` (R222) -/

/-- R221: an item of a context, none when its number is not listed. -/
def State.infoItem (s : State) (n : Nat) (item : DWord) : Option DWord :=
  let c := s.ctx n
  match item.toNat with
  | 0 => some (dw (c.st.code + b2n c.busy * 256))
  | 1 => some (s.ctxid n)
  | 2 => some (dw (c.order.toNat + c.base.toNat * 2 ^ 16))
  | 3 => some c.budget
  | 4 => some (c.thr.setWidth 64)
  | 5 => some (dw (c.prio.toNat + c.scap.toNat * 16 + b2n (c.demoted != 0) * 256 + c.demoted.toNat * 512))
  | 6 => some (c.deadline.setWidth 64)
  | _ => none

/-- R221: what `ctxinfo` does: `own`: its operand is x0. -/
def ctxinfoBody (own : Bool) (v item : DWord) (s : State) : Except CtxFail (State × DWord) := do
  let n ← if own then pure s.unit.ctx else s.targetOf v
  match s.infoItem n item with
  | some v => .ok (s, v)
  | none => .error (.code 8)

def effCtxinfo (rd : Reg) (ra rb : Src) (s : State) : Res :=
  ctxOp rd [ra, rb] none noGuard (fun s => ctxinfoBody (ra.r == 0#5) (s.xVal ra.r) (s.xVal rb.r) s) s

/-- R222, R497: the dwords of a packet held in the issuing context's fault queue, at an address. -/
def State.heldPacket (s : State) (a : DWord) : Except CtxFail (List DWord) := do
  need (a.toNat % 64 == 0) 9
  match s.myCtx.fq with
  | none => .error (.code 9)
  | some qid => match tget s.queues qid with
    | none => .error (.code 9)
    | some q =>
      let slots := (List.range q.count).map fun i => q.slot (q.h + i)
      (List.range 8).mapM fun k =>
        match s.resolve s.unit.core s.unit.ctx .load (a + dw (8 * k)) 8 with
        | .ok (_, t) => if t.homed && slots.contains t.place then .ok (dw (s.readFor (some (dieOfCore s.unit.core)) t.place 8)) else .error (.code 9)
        | .error _ => .error (.code 9)

/-- The packet of some dwords, reflected once more (R222, R382). -/
def reflected (ds : List DWord) : Packet :=
  let d (k : Nat) : DWord := ds.getD k 0
  { ctx := d 0, d1 := d 1, pc := d 2, d3 := d 3, addr := d 4, extra := d 5, d6 := d 6, refl := BitVec.ofNat 4 (min 15 (fld (d 7) 35 32 + 1)),
    d7 := (d 7).setWidth 32 }

/-- R222: what `reflect` does of a packet's address. -/
def reflectBody (a : DWord) (s : State) : Except CtxFail (State × DWord) := do
  let ds ← s.heldPacket a
  let cls := fld (ds.getD 1 0) 35 30
  let above := (s.upFrom s.unit.ctx).drop 1
  need (s.accepter above cls).isSome 7
  .ok (s.routePacket (quadOf s.unit.core) above cls (reflected ds), 0)

def effReflect (rd : Reg) (ra : Src) (s : State) : Res := ctxOp rd [ra] none noGuard (fun s => reflectBody (s.xVal ra.r) s) s

end Sys2Proof.Machine
end

