-- ==== Sys2Proof/Machine/Queue.lean ====
section
/-! DEFINITION. Queue-controller queues through capabilities (R248, R497), the bindings of q2 and q3 (R249, R408), the queue
registers (R250 to R252) and prefetches (R253). -/
namespace Sys2Proof.Machine

/-! ### Capabilities (R248, R339) -/

/-- R248: the slot that a register value of the issuing fibre names. -/
def State.capOf (s : State) (c : DWord) : Option Cap := s.capIn s.unit.ctx c

/-- R248: the capability, with the right needed. -/
def State.capFor (s : State) (c : DWord) (right : Cap → Bool) : Except Stop Cap :=
  match s.capOf c with
  | some k => if right k then .ok k else .error (.trap .cap 0 c)
  | none => .error (.trap .cap 0 c)

def effQenq (ra rb : Src) (pn : BitVec 3) (s : State) : Res := do
  let os := [.x ra, .x rb]
  s.enterFor [.x ra] os
  let k ← s.capFor (s.xVal ra.r) (·.enq)
  s.settle os
  s.slotFree
  let s' := s.demote s.unit.ctx .pk
  .ok (s'.swapOut (.xp 0 pn) (.enq k.qid (s.xVal rb.r)) (some (s.capped s.unit.ctx .pk)), .fall)

/-- `qdeq` and `qsteal`. -/
def takeFrom (rd : Reg) (ra : Src) (pn : BitVec 3) (steal : Bool) (s : State) : Res := do
  let os := [.dx rd, .x ra]
  s.enter os
  let k ← s.capFor (s.xVal ra.r) (if steal then (·.steal) else (·.deq))
  s.settle os
  s.slotFree
  .ok ((s.demote s.unit.ctx .pk).swapOut (.xp rd pn) (.deq k.qid steal), .fall)

def effQdeq (rd : Reg) (ra : Src) (pn : BitVec 3) : State → Res := takeFrom rd ra pn false
def effQsteal (rd : Reg) (ra : Src) (pn : BitVec 3) : State → Res := takeFrom rd ra pn true

/-! ### Bindings (R249) -/

/-- R249: elements put back at the head of a queue, in their order, or at its tail. -/
def State.putBack (s : State) (qid : Nat) (steal : Bool) (l : List DWord) : State :=
  match tget s.queues qid with
  | none => s
  | some q =>
    let n := 2 ^ q.cap
    if steal then l.reverse.foldl (fun s v => (s.enqueue qid v).getD s) s
    else
      let h := (q.h + n - l.length % n) % n
      let s := (l.zipIdx).foldl (fun (s : State) (v : DWord × Nat) => s.writeNat (q.slot (h + v.2)) 8 v.1.toNat) s
      let s := { s with queues := tset s.queues qid { q with h := h, t := h + l.length + q.count, count := q.count + l.length } }
      if l.isEmpty then s else s.joinFifo q

/-- R117: what was published with elements that a register has fetched is met again at their queue, as they are put back. -/
def State.backRels (s : State) (key qid : Nat) (steal : Bool) (n : Nat) : State :=
  match tget s.queues qid with
  | some q =>
    let at' (p : Nat) : Nat := if steal then q.t + (n - 1 - p) else (q.h + 2 ^ q.cap - n % 2 ^ q.cap) % 2 ^ q.cap + p
    if s.rels.isEmpty then s
    else { s with rels := s.rels.map fun r => if r.key = key then { r with key := elemKey qid q (at' r.pos), pos := 0 } else r }
  | none => s

/-- R124: a copy owns a line of some elements of a queue's ring, from an index on. -/
def State.ringOwned (s : State) (qid : Nat) (i n : Nat) : Bool :=
  match tget s.queues qid with
  | some q => (List.range n).any fun k => s.lineOwned s.fresh (.mem (q.slot (i + k))) 8
  | none => false

/-- R249: unbinding is possible: an enqueue buffer has drained, and what was fetched ahead fits the queue again (DEDUCED, log 13). -/
def State.unbindable (s : State) (b : QReg) : Bool :=
  if b.dir = 1#2 then b.buf.isEmpty
  else if b.dir = 0#2 then true
  else match tget s.queues b.qid with
    | some q => decide (q.count + b.buf.length ≤ 2 ^ q.cap)
    | none => true

/-- R249, R408: bind or unbind q2 or q3. -/
def bindTo (q : BitVec 1) (ra : Src) (dir : Nat) (right : Cap → Bool) (s : State) : Res := do
  s.enter [.x ra]
  let c := s.xVal ra.r
  let new ← if c.getLsbD 63 then pure ({} : QReg)
    else (s.capFor c right).map fun k => ({ cap := c, dir := BitVec.ofNat 2 dir, qid := k.qid } : QReg)
  let i := s.me
  let old := i.qreg[q.toNat]
  let n := old.buf.length
  let from' := match tget s.queues old.qid with
    | some q => if old.dir = 3#2 then q.t else (q.h + 2 ^ q.cap - n % 2 ^ q.cap) % 2 ^ q.cap
    | none => 0
  if s.unbindable old then
    if old.dir.toNat ≥ 2 ∧ s.ringOwned old.qid from' n then throw .hold
    let s' := if old.dir = 2#2 ∨ old.dir = 3#2 then
        (s.backRels (qregKey s.unit.core s.unit.ctx (q.toNat + 2)) old.qid (old.dir == 3#2) n).putBack old.qid (old.dir == 3#2) old.buf
      else s
    .ok (s'.setMe { i with qreg := i.qreg.set q.toNat new }, .fall)
  else if old.dir = 1#2 then .error (.wait 2 (q.toNat + 2) (.qpush (q.toNat + 2) 4))
  else .error .hold

def effQenqBind (q : BitVec 1) (ra : Src) : State → Res := bindTo q ra 1 (·.enq)
def effQdeqBind (q : BitVec 1) (ra : Src) : State → Res := bindTo q ra 2 (·.deq)
def effQstealBind (q : BitVec 1) (ra : Src) : State → Res := bindTo q ra 3 (·.steal)

/-! ### Queue registers (R250 to R252) -/

/-- The elements that a queue register of a context's core holds for a pop. -/
def State.qElems (s : State) (core ctx q : Nat) : List DWord :=
  let i := s.img core ctx
  match q with
  | 0 => i.q0
  | 1 => i.q1
  | 2 => i.qreg[0].buf
  | 3 => i.qreg[1].buf
  | 4 => if slotOf core = 8 then [] else i.fifoL
  | _ => if slotOf core = 8 then [] else i.fifoR

/-- The spaces that a push to a queue register finds. -/
def State.qSpaces (s : State) (core ctx q : Nat) : Nat :=
  let i := s.img core ctx
  match q with
  | 2 => 4 - i.qreg[0].buf.length
  | 3 => 4 - i.qreg[1].buf.length
  | 4 => match s.neighbour core ctx true with
    | some n => 8 - (s.img n ctx).fifoR.length
    | none => 0
  | 5 => match s.neighbour core ctx false with
    | some n => 8 - (s.img n ctx).fifoL.length
    | none => 0
  | _ => 0

/-- R251: pop n dwords of q1: a slot is freed when its eighth dword has been popped. The messages are in the order of their acceptance: one held
that `tagctl.en` delivers comes before a newer one, though dwords of that have been popped (DESIGN CHOICE, log 108). -/
def Img.popQ1 (i : Img) (n : Nat) : Img :=
  (List.range n).foldl (fun i _ =>
    match i.q1Slots with
    | [] => i
    | (k, m) :: _ =>
      { i with inbox := if 8 ≤ m.popped + 1 then tdel i.inbox k else tset i.inbox k { m with popped := m.popped + 1 } }) i

/-- Remove n elements from a queue register. -/
def Img.popQ (i : Img) (q n : Nat) : Img :=
  match q with
  | 0 => { i with q0 := i.q0.drop n }
  | 1 => i.popQ1 n
  | 2 => { i with qreg := i.qreg.set 0 { i.qreg[0] with buf := i.qreg[0].buf.drop n } }
  | 3 => { i with qreg := i.qreg.set 1 { i.qreg[1] with buf := i.qreg[1].buf.drop n } }
  | 4 => { i with fifoL := i.fifoL.drop n }
  | _ => { i with fifoR := i.fifoR.drop n }

/-- Append elements through a queue register (R251). -/
def State.pushQ (s : State) (q : Nat) (l : List DWord) : State :=
  let i := s.me
  let u := s.unit
  match q with
  | 2 => s.setMe { i with qreg := i.qreg.set 0 { i.qreg[0] with buf := i.qreg[0].buf ++ l, ords := i.qreg[0].ords ++ l.map fun _ => s.fresh } }
  | 3 => s.setMe { i with qreg := i.qreg.set 1 { i.qreg[1] with buf := i.qreg[1].buf ++ l, ords := i.qreg[1].ords ++ l.map fun _ => s.fresh } }
  | 4 => match s.neighbour u.core u.ctx true with
    | some n => let j := s.img n u.ctx; s.setImg n u.ctx { j with fifoR := j.fifoR ++ l }
    | none => s
  | _ => match s.neighbour u.core u.ctx false with
    | some n => let j := s.img n u.ctx; s.setImg n u.ctx { j with fifoL := j.fifoL ++ l }
    | none => s

/-- R404: the extra field of QEMPTY and QFULL. -/
def qExtra (q n : Nat) : DWord := dw (q + 256 * min 255 n)

/-- R251: q2 and q3 must be bound in the direction of the transfer. -/
def State.bindGuard (s : State) (q : Nat) (push : Bool) : Except Stop Unit :=
  if q = 2 ∨ q = 3 then
    let d := (s.me.qreg.toArray.getD (q - 2) {}).dir
    guardC (if push then d == 1#2 else d == 2#2 || d == 3#2) .qbind 0 (dw (q + 256 * d.toNat))
  else .ok ()

/-- R413: a handler may not use a queue register in block mode. -/
def State.qHandler (s : State) (fa : Bool) : Except Stop Unit := guardC (fa || s.myFibre.kind != 2#2) .hwait

/-- R117: the acquire that a pop of q1, q2 or q3 is. -/
def State.popScope (s : State) (q : Nat) : Scope :=
  match q with
  | 1 => match s.me.q1Slots with
    | (_, m) :: _ => hdrScope m.msg.hdr s.unit.core
    | [] => .core
  | 2 | 3 => .pk
  | _ => .cl

/-- R117: the acquires of the issuing fibre's pop of n dwords. -/
def State.popAcquire (s : State) (q n : Nat) : State :=
  match q with
  | 0 => s
  | 1 => ((s.me.q1Slots.flatMap fun p => (p.2.msg.dwords.drop p.2.popped).map fun _ => p.2).take n).foldl (fun (s : State) m =>
      s.acquireAt s.who (msgKey m.order) 1 (s.capped s.unit.ctx (hdrScope m.msg.hdr s.unit.core)) none) s
  | 2 | 3 => s.acquireFirst s.who (qregKey s.unit.core s.unit.ctx q) n (s.capped s.unit.ctx .pk)
  | _ => s.acquireFirst s.who (qregKey s.unit.core s.unit.ctx q) n (s.capped s.unit.ctx .cl)

/-- R117: the release of the issuing fibre's push of n dwords to q4 or q5, in the queue of its neighbour. -/
def State.pushRelease (s : State) (q n : Nat) : State :=
  match s.neighbour s.unit.core s.unit.ctx (q == 4) with
  | some k =>
    let i := s.img k s.unit.ctx
    s.publishAt s.who s.fresh (qregKey k s.unit.ctx (9 - q)) n (s.capped s.unit.ctx .cl) s.fresh
      (if q = 4 then i.fifoR.length else i.fifoL.length)
  | none => s

/-- R250: pop n dwords. The guards are those of R406, then those that a push of the dwords to a stream adds. -/
def popQueue (q : BitVec 3) (fa : Bool) (n : Nat) (dst : Opnd) (guards : State → Except Stop State)
    (write : List DWord → State → Except Stop State) (s : State) : Res := do
  s.qHandler fa
  s.bindGuard q.toNat false
  let es := s.qElems s.unit.core s.unit.ctx q.toNat
  guardC (!fa || decide (n ≤ es.length)) .qempty 0 (qExtra q.toNat es.length)
  s.pushGuards [dst]
  let _ ← guards s
  s.settle [dst, .cond (decide (n ≤ es.length)) 2 q.toNat (.qpop q.toNat n)]
  let t := s.popAcquire q.toNat n
  let s' ← write (es.take n) ((t.setMe (t.me.popQ q.toNat n)).demote s.unit.ctx (s.popScope q.toNat))
  .ok (s', .fall)

/-- R250, R117: push n dwords; to q2 and q3 a release at `.pk`, to q4 and q5 one at `.cl`. -/
def pushQueue (q : BitVec 3) (fa : Bool) (n : Nat) (src : Opnd) (vals : List DWord) (after : State → State) (s : State) : Res := do
  s.qHandler fa
  s.enterFor [] [src]
  s.bindGuard q.toNat true
  let room := s.qSpaces s.unit.core s.unit.ctx q.toNat
  guardC (!fa || decide (n ≤ room)) .qfull 0 (qExtra q.toNat room)
  s.settle [.cond (decide (n ≤ room)) 2 q.toNat (.qpush q.toNat n), src]
  let sc : Scope := if 4 ≤ q.toNat then .cl else .pk
  if 4 ≤ q.toNat ∧ !s.orderKept s.who s.fresh false (some (s.capped s.unit.ctx .cl)) then .error .hold
  else
    let t := if 4 ≤ q.toNat then s.pushRelease q.toNat n else s
    .ok (((after t).pushQ q.toNat vals).demote s.unit.ctx sc, .fall)

def effQpop (rd : Reg) (q : BitVec 3) (fa : Bool) : State → Res :=
  popQueue q fa 1 (.dx rd) .ok fun l s => .ok (s.popInto (.x rd) ((l.headD 0).setWidth 256))

def effQpush (q : BitVec 3) (fa : Bool) (rb : Src) (s : State) : Res := pushQueue q fa 1 (.x rb) [s.xVal rb.r] id s

/-- R250, R64: the four dwords go to a v register, or to the push stream that it is bound to, in a later cycle. -/
def effQpopv (rd : Reg) (q : BitVec 3) (fa : Bool) : State → Res :=
  popQueue q fa 4 (.dv rd) (·.pushCheck rd (2 ^ 32 - 1)) fun l s =>
    let v : VWord := BitVec.ofNat 256 (ofLanes 64 (l.map BitVec.toNat))
    match s.me.boundTo rd with
    | some t => (s.pushV rd t none (2 ^ 32 - 1)).map fun x => x.2.popInto (.v rd (2 ^ 32 - 1) (some (rd.toNat, x.1))) v
    | none => .ok (s.popInto (.v rd (2 ^ 32 - 1) none) v)

def effQpushv (q : BitVec 3) (fa : Bool) (rb : Src) (s : State) : Res :=
  let v := s.vVal rb.r 0
  pushQueue q fa 4 (.v rb) ((List.range 4).map (vDword v)) (fun s => s.popV rb.r 1) s

/-! ### Prefetch (R253): no architectural effect; R406 gives it no guard, so only block-mode sources are waited for (DEDUCED, log 14) -/

/-- The block-mode sources of a memory operand. -/
def blockOps (m : MemOp) : List Opnd := (m.srcs.filter fun a => !a.t).map Opnd.x

def effPf (m : MemOp) (s : State) : Res := do
  s.settle (blockOps m)
  .ok (s, .fall)

def effPfL2 (m : MemOp) (s : State) : Res := do
  s.settle (blockOps m)
  .ok (s, .fall)

end Sys2Proof.Machine
end

