-- ==== Sys2Proof/Machine/EffOf.lean ====
section
/-! DEFINITION. The effect of each instruction that has an encoding; a step without one has no effect as a word of a unit. -/
namespace Sys2Proof.Machine

/-- The effect of an instruction, before the checks and the end of its unit. -/
def effOf : Instr → State → Res
  | .add rd ra rb w => effAdd rd ra rb w
  | .sub rd ra rb w => effSub rd ra rb w
  | .mul rd ra rb w => effMul rd ra rb w
  | .mulh rd ra rb => effMulh rd ra rb
  | .mulhu rd ra rb => effMulhu rd ra rb
  | .div rd ra rb w => effDiv rd ra rb w
  | .divu rd ra rb w => effDivu rd ra rb w
  | .rem rd ra rb w => effRem rd ra rb w
  | .remu rd ra rb w => effRemu rd ra rb w
  | .and rd ra rb => effAnd rd ra rb
  | .or rd ra rb => effOr rd ra rb
  | .xor rd ra rb => effXor rd ra rb
  | .shl rd ra rb w => effShl rd ra rb w
  | .shr rd ra rb w => effShr rd ra rb w
  | .sra rd ra rb w => effSra rd ra rb w
  | .min rd ra rb => effMin rd ra rb
  | .max rd ra rb => effMax rd ra rb
  | .minu rd ra rb => effMinu rd ra rb
  | .maxu rd ra rb => effMaxu rd ra rb
  | .adds rd ra rb => effAdds rd ra rb
  | .subs rd ra rb => effSubs rd ra rb
  | .clz rd ra => effClz rd ra
  | .ctz rd ra => effCtz rd ra
  | .popc rd ra => effPopc rd ra
  | .addi rd ra imm => effAddi rd ra imm
  | .andi rd ra imm => effAndi rd ra imm
  | .ori rd ra imm => effOri rd ra imm
  | .xori rd ra imm => effXori rd ra imm
  | .shli rd ra w amount => effShli rd ra w amount
  | .shri rd ra w amount => effShri rd ra w amount
  | .srai rd ra w amount => effSrai rd ra w amount
  | .li rd q imm => effLi rd q imm
  | .lik rd q imm => effLik rd q imm
  | .lea rt m => effLea rt m
  | .cmp pd c cb ra rb => effCmp pd c cb ra rb
  | .cmpi pd c ra imm => effCmpi pd c ra imm
  | .pand pd pa pb => effPand pd pa pb
  | .por pd pa pb => effPor pd pa pb
  | .pxor pd pa pb => effPxor pd pa pb
  | .pandn pd pa pb => effPandn pd pa pb
  | .pnot pd pa => effPnot pd pa
  | .pset pd => effPset pd
  | .pclr pd => effPclr pd
  | .prd rd => effPrd rd
  | .pwr ra => effPwr ra
  | .csel rd pn ra rb => effCsel rd pn ra rb
  | .cseln rd pn ra rb => effCseln rd pn ra rb
  | .br disp => effBr disp
  | .bp pn disp => effBp pn disp
  | .bpn pn disp => effBpn pn disp
  | .call rd disp => effCall rd disp
  | .jr ra => effJr ra
  | .callr rd ra => effCallr rd ra
  | .ret ra => effRet ra
  | .lpset0 count disp => effLpset0 count disp
  | .lpset1 count disp => effLpset1 count disp
  | .lpsetr0 rc disp => effLpsetr0 rc disp
  | .lpsetr1 rc disp => effLpsetr1 rc disp
  | .spawn rd ra level => effSpawn rd ra level
  | .yield => effYield
  | .exit => effExit
  | .sys num => effSys num
  | .brk num => effBrk num
  | .mfs rd spr => effMfs rd spr
  | .mts spr ra => effMts spr ra
  | .ifence => effIfence
  | .ckpt ra => effCkpt ra
  | .wfe rd mask => effWfe rd mask
  | .ctxnew rd ra => effCtxnew rd ra
  | .ctxgrant rd ra rb => effCtxgrant rd ra rb
  | .ctxrevoke rd ra tk => effCtxrevoke rd ra tk
  | .ctxstart rd ra => effCtxstart rd ra
  | .ctxstop rd ra tk => effCtxstop rd ra tk
  | .ctxsave rd ra rb tk => effCtxsave rd ra rb tk
  | .ctxload rd ra rb tk => effCtxload rd ra rb tk
  | .ctxinfo rd ra rb => effCtxinfo rd ra rb
  | .reflect rd ra => effReflect rd ra
  | .ldB rt m sc => effLdB rt m sc
  | .ldBu rt m sc => effLdBu rt m sc
  | .ldH rt m sc => effLdH rt m sc
  | .ldHu rt m sc => effLdHu rt m sc
  | .ldW rt m sc => effLdW rt m sc
  | .ldWu rt m sc => effLdWu rt m sc
  | .ldD rt m sc => effLdD rt m sc
  | .ldv rt m sc => effLdv rt m sc
  | .stB m rt sc md => effStB m rt sc md
  | .stH m rt sc md => effStH m rt sc md
  | .stW m rt sc md => effStW m rt sc md
  | .stD m rt sc md => effStD m rt sc md
  | .stv m rt sc md => effStv m rt sc md
  | .amo op rd ra rb sc => effAmo op rd ra rb sc
  | .cas rd ra rb sc => effCas rd ra rb sc
  | .fence sc => effFence sc
  | .fenceW sc => effFenceW sc
  | .syncinit rd ra => effSyncinit rd ra
  | .syncarr rd ra => effSyncarr rd ra
  | .syncwait rd ra => effSyncwait rd ra
  | .waitt mask => effWaitt mask
  | .waitany rd mask => effWaitany rd mask
  | .waitanyF rd ra mask => effWaitanyF rd ra mask
  | .sendm rd ra rb => effSendm rd ra rb
  | .reply ra rb => effReply ra rb
  | .tagctlLd ra tag => effTagctlLd ra tag
  | .tagctlEn tag => effTagctlEn tag
  | .tagctlDis tag => effTagctlDis tag
  | .tagctlPon tag => effTagctlPon tag
  | .tagctlPoff tag => effTagctlPoff tag
  | .tagctlRd rd tag => effTagctlRd rd tag
  | .qenq ra rb pn => effQenq ra rb pn
  | .qdeq rd ra pn => effQdeq rd ra pn
  | .qsteal rd ra pn => effQsteal rd ra pn
  | .qenqBind q ra => effQenqBind q ra
  | .qdeqBind q ra => effQdeqBind q ra
  | .qstealBind q ra => effQstealBind q ra
  | .pf m => effPf m
  | .pfL2 m => effPfL2 m
  | .qpop rd q fa => effQpop rd q fa
  | .qpush q fa rb => effQpush q fa rb
  | .qpopv rd q fa => effQpopv rd q fa
  | .qpushv q fa rb => effQpushv q fa rb
  | .mma c ha hb k => effMma c ha hb k
  | .mmas c ha hb k => effMmas c ha hb k
  | .mmac c src hb k => effMmac c src hb k
  | .mxfmt sat fa fb fd => effMxfmt sat fa fb fd
  | .accz t => effAccz t
  | .accrd t ra => effAccrd t ra
  | .accdc t hd w => effAccdc t hd w
  | .hld ht m sc => effHld ht m sc
  | .hst m ht sc md => effHst m ht sc md
  | .hset hd idx rb => effHset hd idx rb
  | .hget rd hs idx => effHget rd hs idx
  | .hgat rd hs rb m => effHgat rd hs rb m
  | .hsca op hd ra rb m => effHsca op hd ra rb m
  | .semwait n => effSemwait n
  | .sempost n cnt => effSempost n cnt
  | .copy rd ra rb sc => effCopy rd ra rb sc
  | .copym rd ra rb sc => effCopym rd ra rb sc
  | .copyx rd ra rb sc => effCopyx rd ra rb sc
  | .vadd d a b m t => effVadd d a b m t
  | .vsub d a b m t => effVsub d a b m t
  | .vmul d a b m t => effVmul d a b m t
  | .vdiv d a b m t => effVdiv d a b m t
  | .vmin d a b m t => effVmin d a b m t
  | .vmax d a b m t => effVmax d a b m t
  | .vsqrt d a m t => effVsqrt d a m t
  | .vand d a b m t => effVand d a b m t
  | .vor d a b m t => effVor d a b m t
  | .vxor d a b m t => effVxor d a b m t
  | .vshl d a b m t => effVshl d a b m t
  | .vshr d a b m t => effVshr d a b m t
  | .vsra d a b m t => effVsra d a b m t
  | .vabs d a m t => effVabs d a m t
  | .vneg d a m t => effVneg d a m t
  | .vfmaF32 d a b c => effVfmaF32 d a b c
  | .vfnmaF32 d a b c => effVfnmaF32 d a b c
  | .vfmaF64 d a b c => effVfmaF64 d a b c
  | .vfnmaF64 d a b c => effVfnmaF64 d a b c
  | .vfmaF16 d a b c => effVfmaF16 d a b c
  | .vfnmaF16 d a b c => effVfnmaF16 d a b c
  | .vfmaBf16 d a b c => effVfmaBf16 d a b c
  | .vfnmaBf16 d a b c => effVfnmaBf16 d a b c
  | .vcmp cond k a b m t => effVcmp cond k a b m t
  | .vsel d a b m t => effVsel d a b m t
  | .vcvt d a b m form => effVcvt d a b m form
  | .vbcast d a t => effVbcast d a t
  | .vmovx d a t lane => effVmovx d a t lane
  | .vperm d a b m t => effVperm d a b m t
  | .vzip d a b m t => effVzip d a b m t
  | .vunzip d a b m t => effVunzip d a b m t
  | .vrsum d a m t => effVrsum d a m t
  | .vrmax d a m t => effVrmax d a m t
  | .vrmin d a m t => effVrmin d a m t
  | .vdot d a b m => effVdot d a b m
  | .kand d a b => effKand d a b
  | .kor d a b => effKor d a b
  | .kxor d a b => effKxor d a b
  | .kandn d a b => effKandn d a b
  | .knot d a => effKnot d a
  | .kfromx d a => effKfromx d a
  | .ktox d a => effKtox d a
  | .vaddi d a t imm => effVaddi d a t imm
  | .vshli d a t amount => effVshli d a t amount
  | .vshri d a t amount => effVshri d a t amount
  | .vsrai d a t amount => effVsrai d a t amount
  | .scfg u a idx => effScfg u a idx
  | .sbindPop u => effSbindPop u
  | .sbindPush u => effSbindPush u
  | .sunbind u => effSunbind u
  | .sstat d u => effSstat d u
  | .repImm n cnt => effRepImm n cnt
  | .repReg n a => effRepReg n a
  | .longOpBlock _ => fun _ => .error .hold
  | .fillWordUpdate _ _ => fun _ => .error .hold
  | .qregEnqueueDrain _ _ => fun _ => .error .hold
  | .qregFetchAhead _ _ => fun _ => .error .hold
  | .matrixRequestStart _ => fun _ => .error .hold
  | .matrixRequestEnd _ => fun _ => .error .hold
  | .formatBubbleEnd _ => fun _ => .error .hold
  | .accrdDeliver _ => fun _ => .error .hold
  | .copyEngineStart _ => fun _ => .error .hold
  | .copyLineWrite _ _ => fun _ => .error .hold
  | .copyReleased _ => fun _ => .error .hold
  | .copyVisible _ => fun _ => .error .hold
  | .streamFetchAhead _ _ => fun _ => .error .hold
  | .streamPushStore _ _ => fun _ => .error .hold
  | .replayWord _ => fun _ => .error .hold
  | .answerArrival _ _ => fun _ => .error .hold
  | .ageBoost _ _ => fun _ => .error .hold
  | .messageArrival _ => fun _ => .error .hold
  | .messageResend _ => fun _ => .error .hold
  | .handlerStart _ => fun _ => .error .hold
  | .upcallStart _ => fun _ => .error .hold
  | .dispatcherStep _ => fun _ => .error .hold
  | .crewStart _ => fun _ => .error .hold
  | .timeSliceExpiry _ _ => fun _ => .error .hold
  | .checkpointDeadlineExpiry _ _ => fun _ => .error .hold
  | .contextResume _ _ => fun _ => .error .hold
  | .parkedMessageMoveIn _ => fun _ => .error .hold
  | .timeBaseTick => fun _ => .error .hold
  | .powerStateEntry _ => fun _ => .error .hold
  | .wakeEvent _ => fun _ => .error .hold
  | .throttleStep _ => fun _ => .error .hold
  | .homeGrant _ _ => fun _ => .error .hold
  | .efInvalidationLands _ _ => fun _ => .error .hold
  | .invalidationResend _ _ => fun _ => .error .hold
  | .isolationTimeout _ _ => fun _ => .error .hold
  | .frameDelivery _ => fun _ => .error .hold
  | .pageRequestSend _ => fun _ => .error .hold
  | .pageRequestTimeout _ _ => fun _ => .error .hold
  | .partitionReset _ => fun _ => .error .hold
  | .restartPoint _ => fun _ => .error .hold
  | .faultPacketEnqueue _ => fun _ => .error .hold
  | .heldRecordFlush => fun _ => .error .hold
  | .acceptTableWrite _ => fun _ => .error .hold
  | .debugRelease _ => fun _ => .error .hold
  | .debugRetire _ => fun _ => .error .hold
  | .retiredEntryFree _ _ => fun _ => .error .hold
  | .debugMirrorWrite _ => fun _ => .error .hold
  | .flitReplay _ => fun _ => .error .hold
  | .notAnInstruction _ _ => fun _ => .error .hold
  | .instructionFetchFault => fun _ => .error .hold
  | .storeCompletion _ _ => fun _ => .error .hold
  | .atsTranslationCompletion _ _ _ => fun _ => .error .hold
  | .throttleSignal _ _ _ => fun _ => .error .hold
  | .isolationReport _ _ => fun _ => .error .hold
  | .frameArrival _ _ _ => fun _ => .error .hold
  | .ingestConfigWrite _ _ _ => fun _ => .error .hold
  | .hostLaunchWrite _ _ => fun _ => .error .hold
  | .lstatRead _ => fun _ => .error .hold
  | .ltolWrite _ _ => fun _ => .error .hold
  | .vfBindingWrite _ _ => fun _ => .error .hold
  | .hostBar2Read _ _ _ => fun _ => .error .hold
  | .hostBar2Write _ _ _ _ _ => fun _ => .error .hold
  | .registerWrite _ _ => fun _ => .error .hold
  | .pageResponse _ _ _ _ => fun _ => .error .hold
  | .atsInvalidateRequest _ _ => fun _ => .error .hold
  | .priEnableToggle _ => fun _ => .error .hold
  | .prdropRead _ => fun _ => .error .hold
  | .peerPushArrival _ => fun _ => .error .hold
  | .mgmtCreateContext _ => fun _ => .error .hold
  | .mgmtSetAccept _ _ _ => fun _ => .error .hold
  | .packageIdAssign _ => fun _ => .error .hold
  | .routeTableWrite _ _ => fun _ => .error .hold
  | .exportTableWrite _ _ _ _ _ => fun _ => .error .hold
  | .moduleReset _ => fun _ => .error .hold
  | .recoveryGo _ _ => fun _ => .error .hold
  | .recoveryProg _ _ => fun _ => .error .hold
  | .svnRaise => fun _ => .error .hold
  | .softErrorDetect _ => fun _ => .error .hold
  | .scrubRead _ => fun _ => .error .hold
  | .ellostRead => fun _ => .error .hold
  | .flitReceive _ _ => fun _ => .error .hold
  | .retrainComplete _ _ => fun _ => .error .hold
  | .linkCounterRead _ _ => fun _ => .error .hold
  | .linkRetrainCommand _ => fun _ => .error .hold
  | .hostLinkDown _ => fun _ => .error .hold
  | .functionLevelReset _ => fun _ => .error .hold
  | .trustDieError => fun _ => .error .hold
  | .powerLoss => fun _ => .error .hold
  | .hostLinkUp _ => fun _ => .error .hold
  | .mgmtRangeGrant _ _ _ _ _ _ => fun _ => .error .hold

end Sys2Proof.Machine
end

