-- ==== Sys2Proof/Machine/Unit.lean ====
section
/-! DEFINITION. A unit (R400): its fetch and placement, the fibres that may issue it, what holds it back behind a replay, its
effect, pairs (R161), the end of the unit (R201, R403); the executions of a repetition body (R279, R416). -/
namespace Sys2Proof.Machine

/-! ### Who may issue a unit (R400 step 4) -/

/-- R175, R404: the special registers that only the primary fibre may write. -/
def primarySpr (code : Nat) : Bool := decide (code ≤ 2) || (loopReg code).isSome

/-- The special register that an instruction writes, if only the primary may. -/
def sprOf : Instr → Option Nat
  | .mts spr _ => if primarySpr spr.toNat then some spr.toNat else none
  | _ => none

/-- R62, R174, R404: LIGHT, with its reason (DEDUCED, log 79); where several apply, the first of the order 1, 2, 3 with the first register
that the word names, 4 (DESIGN CHOICE, log 99). -/
def State.lightGuard (s : State) (i : Instr) : Except Stop Unit :=
  if s.isPrimary then .ok ()
  else if s.unit.pair.isSome || isAClass i then .error (.trap .light 0 1)
  else if primaryOnly i then .error (.trap .light 0 2)
  else match (instrNames i).find? fun n => n.1 == 0 && decide (9 ≤ n.2) with
    | some n => .error (.trap .light 0 (dw (3 + n.2 * 2 ^ 8)))
    | none => match sprOf i with
      | some code => .error (.trap .light 0 (dw (4 + code * 2 ^ 16)))
      | none => .ok ()

/-! ### Behind a replay (R280) -/

/-- The registers that the words of the repetition body name. -/
def Rep.names (r : Rep) : List RegName :=
  (r.body.toList.take (r.len.toNat + 1)).flatMap fun w => match decodeWord w with
    | .ok i => instrNames i
    | .error _ => []

/-- R280, R117: a fence, a release, a `.ga` store, a context instruction, `mts`, `ckpt` or `exit`. -/
def State.ordersReplay (s : State) : Instr → Bool
  | .fence _ => true
  | .fenceW _ => true
  | .stB _ _ sc md => sc != .core || md == .ga
  | .stH _ _ sc md => sc != .core || md == .ga
  | .stW _ _ sc md => sc != .core || md == .ga
  | .stD _ _ sc md => sc != .core || md == .ga
  | .stv _ _ sc md => sc != .core || md == .ga
  | .hst _ _ sc md => sc != .core || md == .ga
  | .amo _ _ _ _ sc => sc != .core
  | .cas _ _ _ sc => sc != .core
  | .sendm _ _ _ => true
  | .reply _ _ => true
  | .qenq _ _ _ => true
  | .qpush q _ _ => q == 4#3 || q == 5#3 || (s.me.qreg.toArray.getD (q.toNat - 2) {}).dir == 1#2
  | .qpushv q _ _ => q == 4#3 || q == 5#3 || (s.me.qreg.toArray.getD (q.toNat - 2) {}).dir == 1#2
  | .sempost _ _ => true
  | .syncarr _ _ => true
  | .ctxnew _ _ => true
  | .ctxgrant _ _ _ => true
  | .ctxrevoke _ _ _ => true
  | .ctxstart _ _ => true
  | .ctxstop _ _ _ => true
  | .ctxsave _ _ _ _ => true
  | .ctxload _ _ _ _ => true
  | .ctxinfo _ _ _ => true
  | .reflect _ _ => true
  | .mts _ _ => true
  | .ckpt _ => true
  | .exit => true
  | _ => false

/-- R280, R426: the unit may issue while the replay of its core runs. -/
def State.mayRunAhead (s : State) (i : Instr) : Bool :=
  let r := s.me.rep
  !s.isPrimary || !r.running ||
  (!r.alone && s.unit.pair.isNone && !isAClass i && !s.ordersReplay i && !(instrNames i).any fun n => r.names.contains n)

/-! ### The indices of streams (R276, R277) -/

/-- R276: the index of an item waits as a load of a given number does. -/
def State.indexHeld (s : State) (core ctx : Nat) (t : Stream) (id j : Nat) : Bool :=
  if t.kind = 1 then
    let w := if t.dw[0].getLsbD 16 then 4 else 2
    match s.resolve core ctx .pop (t.dw[6] + dw (j * w)) w with
    | .ok (s, tg) => s.readHeld (s.primaryWho core ctx) id tg w || s.lineOwned s.fresh tg w
    | .error _ => false
  else false

/-- R276: an element that a unit pops, or the one that it pushes, awaits its indices: for a pop it has not been fetched ahead. -/
def State.indexWaits (s : State) (i : Instr) : Bool :=
  let names := instrNames i ++ ((s.unit.pair.map instrNames).getD [])
  s.isPrimary && (List.range 4).any fun u =>
    let t := s.me.streams.toArray.getD u {}
    let n := (names.filter (· == (1, u))).length
    if t.bind = 1#2 then
      (List.range n).any fun k => decide (t.held.length ≤ k) &&
        (t.elemItems (t.pos.toNat + k * t.lanes)).any (s.indexHeld s.unit.core s.unit.ctx t t.bindAt)
    else t.bind == 2#2 && decide (0 < n) && (t.elemItems t.pos.toNat).any (s.indexHeld s.unit.core s.unit.ctx t s.fresh)

/-! ### The effect of a unit (R161) -/

/-- What becomes of a unit: why it stops, with the word concerned as where codes it, or what it leaves. -/
abbrev UnitRes := Except (BitVec 2 × Stop) (State × Ctl)

/-- The word of a unit that stands at a place of it. -/
def State.atWord (s : State) (wh : BitVec 2) (view : Option Img) : State := { s with unit := { s.unit with wh := wh, view := view } }

/-- R400: the C word cannot issue; the guards of the A word come before its waits. -/
def State.pairStops (s : State) (a : Instr) (x : Stop) : UnitRes :=
  if x.isGuard then .error (1#2, x)
  else match effOf a (s.atWord 2#2 (some s.me)) with
    | .error y => if y.isGuard then .error (2#2, y) else .error (1#2, x)
    | .ok _ => .error (1#2, x)

/-- R161, R206: `exit` in a pair: the A word takes effect first; a replay that it starts runs to its end before the change (DEDUCED, log 53). -/
def State.pairExit (s : State) (a : Instr) : UnitRes :=
  match (s.atWord 1#2 none).exitReady with
  | .error x => s.pairStops a x
  | .ok _ =>
    match effOf a (s.atWord 2#2 (some s.me)) with
    | .error x => .error (2#2, x)
    | .ok (s', _) =>
      if s'.me.rep.running then .ok (s'.setMyFibre { s'.myFibre.waiting 1 0 .producers with retiring := true }, .fall)
      else .ok (s'.retire s.unit.core s.unit.ctx s.unit.entry, .ended)

/-- R161: the bytes of a v register that an A word leaves as they are, when it takes effect on a state. -/
def State.lanesLeft (s : State) (view : Img) (a : Instr) (r : Reg) : Nat :=
  let probe (v : VWord) : Nat :=
    match effOf a ((s.setMe { s.me with v := s.me.v.set r.toNat v }).atWord 2#2 (some view)) with
    | .ok (t, _) => t.me.v[r.toNat].toNat
    | .error _ => 0
  let p := probe 0
  let q := probe (BitVec.allOnes 256)
  (List.range 32).foldl (fun m k => if lane p 8 k = lane q 8 k then m else m + 2 ^ k) 0

/-- R161: of two writes of one register in a pair the A word's is the final one: what the C word awaits fills only the bytes that the A
word has left. `kept`: those bytes of a v register. -/
def State.settleDsts (s : State) (fresh : Nat) (kept : Reg → Nat) : State :=
  s.flights.foldl (fun (st : State) p =>
    let put (d : Dst) : State := { st with flights := tset st.flights p.1 { p.2 with dst := d } }
    if p.1 < fresh then st
    else match p.2.dst with
      | .x r => if s.xFull r then put (.x 0) else st
      | .xp r n => if s.xFull r then put (.xp 0 n) else st
      | .v r l none =>
        if !s.me.vfull.getLsbD r.toNat then st
        else
          let left := l &&& BitVec.ofNat 32 (kept r)
          if left = 0 then put .none else (put (.v r left none)).setMe (st.me.setVfull r.toNat false)
      | _ => st) s

/-- A target that may answer with a fault (R452, R469). -/
def Target.mayFail : Target → Bool
  | .host _ _ => true
  | .peer _ _ => true
  | _ => false

/-- A round trip whose answer may be a fault (R409, R452, R469). -/
def Flight.mayFail (f : Flight) : Bool :=
  (match f.dst with
   | .h _ => true
   | _ => false) ||
  match f.job with
  | .load t _ _ => t.mayFail
  | .gather ts _ => ts.any fun t => t.2.mayFail
  | .amo t _ _ => t.mayFail
  | .cas t _ _ => t.mayFail
  | _ => false

/-- A round trip that a unit has started, from the state before it. -/
def State.starts (s0 : State) (id : Nat) : Bool := !s0.flights.any fun q => q.1 == id

/-- R403: what a late fault takes back of a pair, or of a unit that has popped a stream, from the state before it. -/
def State.noteUndo (s0 s : State) : State :=
  let new := s.flights.filter fun p => s0.starts p.1
  if !new.any (fun p => p.2.mayFail) then s
  else
    let u : Undo := { before := s0.me, after := s.me, dsts := new.map fun p => p.2.dst, first := s0.fresh }
    { s with flights := s.flights.map fun p => if s0.starts p.1 ∧ !p.2.isPop then (p.1, { p.2 with undo := some u }) else p }

/-- A unit has popped a stream. -/
def State.hasPopped (s0 s : State) : Bool :=
  (List.range 4).any fun u =>
    let t := s0.me.streams.toArray.getD u {}
    t.bind == 1#2 && t.pos != (s.me.streams.toArray.getD u {}).pos

/-- What a lone word leaves, its round trips noting what a late fault takes back of the streams that it has popped. -/
def State.noted (s0 s : State) : State := if s0.hasPopped s then s0.noteUndo s else s

/-- R161: a pair: the C word, then the A word on what it leaves, both reading the registers as they stood. -/
def State.pairUnit (s : State) (c a : Instr) (eff : State → Res) : UnitRes :=
  if c = .exit then s.pairExit a
  else match eff (s.atWord 1#2 none) with
    | .error x => s.pairStops a x
    | .ok (s', ctl) =>
      match effOf a (s'.atWord 2#2 (some s.me)) with
      | .error x => .error (2#2, if x.isGuard then .after s' x else x)
      | .ok (s2, ctlA) => .ok (s.noteUndo ((s2.atWord 2#2 none).settleDsts s.fresh (s'.lanesLeft s.me a)), match ctl with
        | .fall => ctlA
        | .ckpt t _ => .ckpt t ctlA
        | _ => ctl)

/-- R400: the checks of a unit after decoding, and its effect. -/
def State.unitResult (s : State) (i : Instr) (eff : State → Res) : UnitRes :=
  match s.lightGuard i with
  | .error x => .error (if s.unit.pair.isSome then 1#2 else s.unit.wh, x)
  | .ok _ =>
    if !s.mayRunAhead i || s.indexWaits i then .error (s.unit.wh, .hold)
    else match s.unit.pair with
      | some a => s.pairUnit i a eff
      | none => match eff s with
        | .error x => .error (s.unit.wh, x)
        | .ok r => .ok (s.noted r.1, r.2)

/-! ### The end of a unit -/

/-- R201: the next PC after a unit whose last word is at e, with the end check of the primary's loops. -/
def State.nextPc (s : State) (e t : DWord) : State × DWord :=
  if s.isPrimary then
    let (i, n) := endCheck s.me e
    (s.setMe i, n.getD t)
  else (s, t)

/-- The round-robin of the level at which an entry issued (R69). -/
def State.turnOf (s : State) (core entry : Nat) (f : Fibre) : State :=
  let c := s.core core
  s.setCore core { c with rr := c.rr.setIfInBounds f.effLevel (f.rrPos entry) }

/-- The primary stops at a `ckpt` (R72). -/
def State.stopAt (s : State) (t : DWord) : State := s.setMe { s.me with atCkpt := some t }

/-- A primary has stopped or ended: the stop of its context may be complete (R72). -/
def State.primaryStopped (s : State) : State := s.checkStop (clOf s.unit.core) s.unit.ctx

/-- R281, R439: the end check of a `rep` unit: the counts that it lowers fall as its replay completes. -/
def State.deferEnd (s0 s : State) : State :=
  let i := s.me
  let bit (l : Fin 2) : Nat := if i.lc[l] = s0.me.lc[l] then 0 else 2 ^ l.val
  s.setMe { i with lc := s0.me.lc, rep := { i.rep with ends := BitVec.ofNat 2 (bit 0 + bit 1) } }

/-- R61, R201, R206, R207, R210: a unit that took effect ends. -/
def State.commit (s0 s : State) (ctl : Ctl) : State :=
  let u := s0.unit
  let s := { s with unit := u, lookups := {} }
  let step : Ctl → State
    | .past e t => let r := s.nextPc e t; (s.deferEnd r.1).issued r.2
    | .jump t => s.issued t
    | _ => let r := s.nextPc (u.unitEnd - 4) u.unitEnd; r.1.issued r.2
  match ctl with
  | .fall => let r := s.nextPc (u.unitEnd - 4) u.unitEnd; r.1.issued r.2
  | .past e t => let r := s.nextPc e t; (s.deferEnd r.1).issued r.2
  | .jump t => s.issued t
  | .freeze cls extra pc => (s.issued pc).freeze (s0.unitFault (if u.pair.isSome then 1#2 else u.wh)) cls 0 extra
  | .ended =>
    let s := s.turnOf u.core u.entry s0.myFibre
    if s0.isPrimary then s.primaryStopped else s
  | .ckpt t c => ((step c).stopAt t).primaryStopped

/-- A unit issues, or its fibre waits, parks or freezes. -/
def runUnit (i : Instr) (eff : State → Res) (s : State) : State :=
  match s.unitResult i eff with
  | .ok r => s.commit r.1 r.2
  | .error x => s.stopUnit x.1 x.2

/-- The meaning of an instruction that has an encoding: the unit that it makes, alone or with the A word of its pair. -/
def finish (i : Instr) (eff : State → Res) (s : State) : Host.Outcome State Fault Refusal := .next (runUnit i eff s)

/-! ### Fetch and placement (R400 to R402, R442) -/

/-- What stands at a fibre's PC. -/
inductive Fetched
  /-- A unit, with the state that names it. -/
  | unit (i : Instr) (s : State)
  /-- The words are no unit (R401), or cannot be fetched (R442). -/
  | none (i : Instr) (s : State)
  /-- R402: the placement is not legal. -/
  | place (s : State) (reason : Nat) (addr : DWord)

/-- A leading word (R402). -/
def leads (pc : DWord) (w : Word) : Bool := !wLone w && !wClass w && pc.toNat % 8 == 0

/-- R401: 0 for a word that is not erased or unwritten memory. -/
def blank (w : Word) : Nat := if w = 0#32 then 1 else if w = 0xFFFFFFFF#32 then 2 else 0

/-- A lone word, or the leading word alone. -/
def fetchLone (s : State) (u : UnitCtx) (w : Word) : Fetched :=
  let s := { s with unit := { u with word := w } }
  if blank w ≠ 0 then .none (.notAnInstruction (blank w) 0) s
  else if !wLone w then .place s (if wClass w then 1 else 2) u.pc
  else match decodeWord w with
    | .ok i => .unit i s
    | .error r => .none (.notAnInstruction r 0) s

/-- A leading word and the word after it. -/
def fetchPair (s : State) (u : UnitCtx) (w0 w1 : Word) : Fetched :=
  let s0 := { s with unit := { u with word := w0 } }
  let s := { s with unit := { u with word := w0, other := w1, unitEnd := u.pc + 8 } }
  if blank w0 ≠ 0 then .none (.notAnInstruction (blank w0) 0) s0
  else if blank w1 ≠ 0 then .none (.notAnInstruction (blank w1) 2) s
  else if wLone w1 || !wClass w1 then .place { s with unit := { s.unit with wh := 1 } } 3 (u.pc + 4)
  else match decodeWord w0, decodeWord w1 with
    | .error r, _ => .none (.notAnInstruction r 1) s
    | _, .error r => .none (.notAnInstruction r 2) s
    | .ok c, .ok a => .unit c { s with unit := { s.unit with pair := some a } }

/-- R400, R442: fetch the unit at the PC of a fibre. -/
def State.fetchUnit (s : State) (core ctx entry : Nat) : Fetched :=
  let pc := ((s.img core ctx).fibre entry).pc
  let u : UnitCtx := { core := core, ctx := ctx, entry := entry, pc := pc, unitEnd := pc + 4 }
  match s.fetchWord core ctx pc with
  | .error _ => .none .instructionFetchFault { s with unit := u }
  | .ok (s, w0) =>
    if leads pc w0 then
      match s.fetchWord core ctx (pc + 4) with
      | .error _ => .none .instructionFetchFault { s with unit := u }
      | .ok (s, w1) => fetchPair s u w0 w1
    else fetchLone s u w0

/-- R402: a PLACE fault of the unit. -/
def State.placeFault (s : State) (reason : Nat) (addr : DWord) : State := s.stopUnit s.unit.wh (.trap .place addr (dw reason))

/-- The fibre that the unit names is ready to issue. -/
def State.atUnit (s : State) : Bool := s.myFibre.st == .ready && s.myFibre.pc == s.unit.pc

/-- NOT_AN_INSTRUCTION (R401): ILL. -/
def evNotAnInstruction (reason wh : Nat) (s : State) : State :=
  if s.atUnit then s.stopUnit (BitVec.ofNat 2 wh) (.trap .ill 0 (dw reason)) else s

/-- INSTRUCTION_FETCH_FAULT (R442): the class of the check that fails, at the unit's first word. -/
def evInstructionFetchFault (s : State) : State :=
  let s := { s with unit := { s.unit with word := 0, other := 0, wh := 0 } }
  if !s.atUnit then s
  else match s.fetchWord s.unit.core s.unit.ctx s.unit.pc with
    | .ok _ => s
    | .error (.trap c _ x) => s.stopUnit 0 (.trap c s.unit.pc x)
    | .error f => s.stopUnit 0 (f.stop 3)

/-! ### Replays (R279, R282, R416) -/

/-- The body word that a replay executes next: its address. -/
def Rep.wordPc (r : Rep) : DWord := r.repat + 4 + dw (4 * r.next.toNat)

/-- A body word has been executed. -/
def Rep.advance (r : Rep) : Rep :=
  if r.next.toNat < r.len.toNat then { r with next := r.next + 1 }
  else if 1 < r.left.toNat then { r with next := 0, left := r.left - 1 }
  else { r with next := 0, left := 0, act := false, alone := false }

/-- The same of a core's registers: with the last word the `rep` unit completes (R439). -/
def Img.advanceRep (i : Img) : Img :=
  let i := { i with rep := i.rep.advance, hush := false }
  if i.rep.act then i else i.endRep

/-- The unit that the next body word of a context's core is, in its replay. -/
def State.bodyUnit (s : State) (core ctx : Nat) : State :=
  let r := (s.img core ctx).rep
  { s with unit := { core := core, ctx := ctx, entry := 0, pc := r.wordPc, unitEnd := r.wordPc + 4,
                     word := r.body.toArray.getD r.next.toNat 0, other := r.wd, wh := 3, body := r.next } }

/-- What the next body word does, in the state that its unit names. -/
def State.bodyResult (s : State) : Res :=
  match decodeWord s.unit.word with
  | .error e => .error (.trap .ill 0 (dw e))
  | .ok b => if s.indexWaits b then .error .hold else effOf b s

/-- R279: the next body word must wait. -/
def State.bodyWaits (s : State) (core ctx : Nat) : Bool :=
  match (s.bodyUnit core ctx).bodyResult with
  | .error (.wait _ _ _) => true
  | _ => false

/-- The primary no longer waits for its replay's next word. -/
def Fibre.replayed (f : Fibre) : Fibre := if f.st == .waiting && f.cond == .replay then f.readied else f

/-- REPLAY_WORD (R279): one execution of one body word; none when the replay is paused or the word must wait, for which the primary then
waits. -/
def evReplayWord (core : Nat) (s : State) : Option State :=
  match s.issuing core with
  | none => none
  | some ctx =>
    let i := s.img core ctx
    let st := (i.fibre 0).st
    let b := s.bodyUnit core ctx
    if !i.rep.running || s.undoing core ctx || st == .parked || st == .frozen || st == .free then none
    else match b.bodyResult with
      | .ok (s', _) => some { (s'.setMe s'.me.advanceRep).setMyFibre ((s'.setMe s'.me.advanceRep).myFibre.replayed) with lookups := s.lookups }
      | .error (.wait w o _) => if st == .ready then some (b.stopUnit 3#2 (.wait w o .replay)) else none
      | .error x => if x.isGuard && !x.awaitsHost b then some (b.stopUnit 3#2 x) else none

end Sys2Proof.Machine
end

