-- ==== Sys2Proof/Machine/Turn.lean ====
section
/-! DEFINITION. A core's turn: waiting fibres whose conditions are met become ready, and one ready fibre is selected to issue
(R61, R69, R169, R331). -/
namespace Sys2Proof.Machine

/-! ### Conditions (R60, R61) -/

/-- R206: nothing more will land in a fibre's registers, and a replay that its last unit started has ended. -/
def State.landed (s : State) (core ctx entry : Nat) : Bool :=
  (s.producer core ctx entry).isNone && !(entry == 0 && (s.img core ctx).rep.running)

/-- The condition of a waiting fibre is met. The unit of the state names the fibre. -/
def State.condMet (s : State) : Bool :=
  let u := s.unit
  let i := s.me
  let f := s.myFibre
  match f.cond with
  | .none => !s.flights.any fun p => p.2.who.same s.who && !p.2.isPop
  | .xreg r => s.xFull r
  | .vreg r n => s.vReady r n
  | .xdst r => s.xFull r || !s.awaitsX u.core u.ctx u.entry r
  | .vdst r n =>
    match i.boundTo r with
    | some t => t.room n
    | none => i.vfull.getLsbD r.toNat || !s.awaitsV u.core u.ctx r
  | .producers => s.landed u.core u.ctx u.entry
  | .qpop q n => decide (n ≤ (s.qElems u.core u.ctx q).length)
  | .qpush q n =>
    let b := i.qreg.toArray.getD (q - 2) {}
    if (q = 2 ∨ q = 3) ∧ n = 4 ∧ b.dir ≠ 1#2 then s.unbindable b else decide (n ≤ s.qSpaces u.core u.ctx q)
  | .hw mask => s.hwPreds u.core u.ctx &&& mask != 0
  | .fill a g => s.fillGen a != g
  | .fills a mask seen => (s.changed a mask.toNat seen).isSome
  | .tokens mask => (f.tokensIn mask 1).isEmpty
  | .anyToken mask => !(f.tokensIn mask 2).isEmpty || (f.tokensIn mask 1).isEmpty
  | .sem n => s.holder (clOf u.core) == some u.ctx && s.sem (BitVec.ofNat 4 n) != 0
  | .fence sc => s.fenceDone s.who sc
  | .replay => !i.rep.running || !s.bodyWaits u.core u.ctx

/-- R61: a waiting fibre whose condition is met becomes ready; one that has been retired ends. -/
def State.wakeOne (s : State) (core ctx entry : Nat) : State :=
  let s1 := { s with unit := { core := core, ctx := ctx, entry := entry } }
  let f := s1.myFibre
  if f.st == .waiting && s1.condMet then
    if f.retiring then
      let s := s.retire core ctx entry
      if entry = 0 then s.checkStop (clOf core) ctx else s
    else s.setImg core ctx ((s.img core ctx).setFibre entry f.readied)
  else s

/-- The entries of a state. -/
def Img.entriesIn (i : Img) (st : FState) : List Nat := (i.rq.filter fun p => p.2.st == st).map Prod.fst

/-- R61, R69: the waiting fibres of a context's core. -/
def State.wake (s : State) (core ctx : Nat) : State :=
  ((s.img core ctx).entriesIn .waiting).foldl (fun s e => s.wakeOne core ctx e) s

/-! ### Selection (R69, R331) -/

/-- The place of a ready fibre in the order of selection: the highest level first, and within a level in turn from the place after
the last one that issued (DESIGN CHOICE, log 27). -/
def selectKey (c : Core) (e : Nat) (f : Fibre) : Nat :=
  let l := f.effLevel
  (3 - l) * 512 + ((f.rrPos e).toNat + 511 - (c.rr.toArray.getD l 0).toNat) % 512

/-- The ready entries in the order of selection. -/
def State.selectOrder (s : State) (core ctx : Nat) : List Nat :=
  let c := s.core core
  (sortBy (fun p => selectKey c p.1 p.2) ((s.img core ctx).rq.filter fun p => p.2.st == .ready)).map Prod.fst

/-- R331: the unit takes no effect and its fibre stays ready. -/
def State.heldBack (s : State) (i : Instr) : Bool := match s.unitResult i (effOf i) with
  | .error (_, .hold) => true
  | .error (_, x) => x.awaitsHost s
  | _ => false

/-- R331: the first of some entries whose unit is not held back, with what stands at its PC. -/
def State.selectFrom (s : State) (core ctx : Nat) : List Nat → Option Fetched
  | [] => none
  | e :: es =>
    match s.fetchUnit core ctx e with
    | .unit i s' => if s'.heldBack i then s.selectFrom core ctx es else some (.unit i s')
    | x => some x

/-- R60, R331: the ages of ready fibres that do not issue in this cycle. -/
def State.ageOthers (s : State) (core ctx entry : Nat) : State :=
  let i := s.img core ctx
  s.setImg core ctx { i with rq := i.rq.map fun p =>
    if p.2.st == .ready && p.1 != entry then (p.1, { p.2 with age := if p.2.age = 4095 then 4095 else p.2.age + 1 }) else p }

/-- What a core does at its turn. -/
inductive Turn
  /-- It issues an instruction, in a state whose unit names it. -/
  | exec (i : Instr) (s : State)
  /-- It issues nothing. -/
  | done (s : State)

/-- The unit of a state waits when it is selected, so that the core selects again (R331). -/
def State.unitWaits (s : State) (i : Instr) : Bool := match s.unitResult i (effOf i) with
  | .error (_, .wait _ _ _) => true
  | _ => false

/-- A core's turn: one of its cycles; a core that is not Active (R39) only readies fibres, which call it (R40). The turn passes to the next core, but for a unit that only becomes waiting (R331). -/
def State.coreTurn (s : State) (core : Nat) : Turn :=
  let pass (s : State) : State := { s with turn := core + 1 }
  match (s.core core).res with
  | none => .done (pass s)
  | some ctx =>
    if (s.core core).power != .active then .done ((s.issuing core).elim (pass s) fun ctx => (pass s).wake core ctx)
    else if s.closingOn (clOf core) ctx then .done ((pass s).closeStep (clOf core) ctx)
    else match s.issuing core with
      | none => .done (pass s)
      | some ctx =>
        let s := s.wake core ctx
        match s.selectFrom core ctx (s.selectOrder core ctx) with
        | none => .done ((pass s).ageOthers core ctx 256)
        | some (.unit i s') =>
          let s' := { s' with lull := false }
          if s'.unitWaits i then .exec i s' else .exec i ((pass s').ageOthers core ctx s'.unit.entry)
        | some (.none i s') => .exec i ((pass s').ageOthers core ctx s'.unit.entry)
        | some (.place s' reason a) => .done (((pass s').placeFault reason a).ageOthers core ctx s'.unit.entry)

end Sys2Proof.Machine
end

