-- ==== Sys2Proof/Machine/EvMem.lean ====
section
/-! DEFINITION. The steps of memory: grants and invalidations (R111, R118 to R122, R450), answers (R63, R223), completions of
stores (R120, R452), fill words (R233), queue registers (R249) and stream units (R268, R274). A step that is not enabled
answers none. -/
namespace Sys2Proof.Machine

/-! ### Wake events (R40) -/

/-- The clusters that hold a target, of at most one. -/
def Target.clusters : Target → List Nat
  | .mem a => match spadOf a, accOf a with
    | some (cl, _), _ => [cl]
    | none, some (cl, _) => [cl]
    | none, none => []
  | .vreg core _ => [clOf core]
  | .inbox core _ => [clOf core]
  | .sem cl _ => [cl]
  | _ => []

/-- R40: what an engine, a port or a host reaches has woken; the die of a channel too. -/
def State.wakeFor (s : State) (t : Target) : State :=
  let s := t.clusters.foldl State.wakeCluster s
  match t with
  | .mem a => if 2 ^ 44 ≤ a ∧ a < 2 ^ 52 then
      let d := (a - 2 ^ 44) / 0x60000000 / 64
      s.setDie d { s.dieOf d with power := .active }
    else s
  | _ => s

/-! ### Fill words (R233, R458) -/

/-- R233: one update of a fill word; `init`: the operand of a syncinit that reaches it. -/
def State.fillStep (s : State) (cl off : Nat) (init : Option (Nat × Nat)) : State :=
  let a := spadPlace cl off
  let d0 := ofBytes (s.getBytes a 8)
  let d1 := ofBytes (s.getBytes (a + 8) 8)
  let c := s.cluster cl
  let op := (c.fills.find? fun f => f.off == off).getD { off := off }
  let target := (init.map Prod.fst).getD (bits d0 31 0)
  let expected := (init.map Prod.snd).getD (bits d1 15 0)
  let count := ((if init.isSome then 0 else bits d0 63 32) + op.bytes) % 2 ^ 32
  let arrivals := ((if init.isSome then 0 else bits d1 31 16) + op.arrivals) % 2 ^ 16
  let gen := bits d1 63 32
  let adv := decide (target ≤ count ∧ expected ≤ arrivals)
  let count' := if adv then (if target = 0 then 0 else count - target) else count
  let arrivals' := if adv then (if expected = 0 then 0 else arrivals - expected) else arrivals
  let gen' := if adv then (gen + 1) % 2 ^ 32 else gen
  let rest := c.advanced.filter (· != off)
  let s := s.setCluster cl { c with fills := c.fills.filter (fun f => f.off != off),
                                    advanced := if adv && (count' != 0 || arrivals' != 0) then rest ++ [off] else rest }
  (s.writeNat a 8 (count' * 2 ^ 32 + target)).writeNat (a + 8) 8 (gen' * 2 ^ 32 + arrivals' * 2 ^ 16 + expected)

/-- FILL_WORD_UPDATE (R233). -/
def evFillWordUpdate (cl off : Nat) (s : State) : Option State :=
  let c := s.cluster cl
  if c.fills.any (fun f => f.off == off) || c.advanced.contains off then some (s.fillStep cl off none) else none

/-! ### Grants (R111, R119, R120) -/

/-- The die that is the home of a place of paged memory (R99). -/
def State.homeOf (s : State) (ctx a : Nat) : Nat := s.homeCh ctx a / 64

/-- The MPA of a place in a partition's channels or in the second tier (R96, R98). -/
def mpaAt (c : Ctx) (a : Nat) : Option Nat :=
  if a < 2 ^ 44 then some (2 ^ 52 + a)
  else
    let ch := (a - 2 ^ 44) / 0x60000000
    let loc := (a - 2 ^ 44) % 0x60000000
    let set := channelSet c
    let row := loc / 4096
    (((List.range set.length).map fun k => row * set.length + k).find? fun g =>
      (interleave set c.seed.toNat (g * 4096)).1 == ch).map fun g => g * 4096 + loc % 4096

/-- The channel and the MPA of the line of a place, for a context (R398). -/
def State.lineMpa (s : State) (ctx a : Nat) : Nat × Nat :=
  let c := s.ctx ctx
  let line := a / 128 * 128
  let mpa := (mpaAt c line).getD 0
  (if 2 ^ 44 ≤ line then (line - 2 ^ 44) / 0x60000000 else homeChannel s c mpa, mpa)

/-- R450: the home of a target refuses the accesses of a die, one that has issued already among them. -/
def State.refusedAt (s : State) (ctx : Nat) (die : Option Nat) (t : Target) : Bool := t.homed && s.refuses ctx die t.place

/-- R450: a refused access is an uncorrectable error of its partition. -/
def State.refuseAccess (s : State) (ctx : Nat) (t : Target) : State :=
  let (ch, mpa) := s.lineMpa ctx t.place
  s.machineCheck (s.partitionOf ctx) 2 0x0C ch (dw mpa) 0

/-- An earlier lane of the same scatter is not yet performed (R299). -/
def State.laneBefore (s : State) (p : PStore) : Bool :=
  match p.op with
  | .scat _ _ _ g l _ => s.stores.any fun q => !q.2.granted && (match q.2.op with
    | .scat _ _ _ g' l' _ => g' == g && decide (l' < l)
    | _ => false)
  | _ => false

/-- R119, R120: a store of bytes to paged memory is granted; `sharers`: the dies that hold copies. The hosts may take it later, whatever its
mode (R132; DESIGN CHOICE, log 101). -/
def State.grantHomed (s : State) (id : Nat) (p : PStore) (a : Nat) (bs : Bytes) (sharers : Nat) : State :=
  let w := dieOfCore p.who.core
  let ga := asGa p.md p.rel
  let late := if Config.lateAtHost s.fresh then [hostDie] else []
  let stale := (if ga then [] else (ones sharers 8).filter fun d => decide (d < s.dies) && d != w) ++ late
  let old := if stale.isEmpty then [] else s.oldCells a bs.length
  let seen := if late.isEmpty then (s.seenBy ga (some w) a).landLine (some hostDie) a s.fresh
    else if ga then (List.range s.dies).foldl (fun s d => s.landLine (some d) a s.fresh) s
    else s.seenBy false (some w) a
  let q := { p with granted := true, gord := s.fresh, stale := stale, old := old, resent := [], sentTick := s.tick }
  { s with stores := tset seen.stores id q, fresh := s.fresh + 1 }.writeTarget p.who.ctx p.t bs

/-- HOME_GRANT (R111): the agent that holds a location performs a store, its bytes all at one moment (DESIGN CHOICE, log 89). A syncinit
takes effect before the counts that have reached its fill word in the same cycle (R233), which those of its own core have not. -/
def evHomeGrant (id : Nat) (sharers : Byte) (s : State) : Option State :=
  match tget s.stores id with
  | none => none
  | some p =>
    let outside := match p.t with
      | .peer _ _ => true
      | .overman _ _ => true
      | _ => false
    if p.granted || outside || s.storeHeld id p || s.laneBefore p || !p.isolating.isEmpty then none
    else if s.refusedAt p.who.ctx (some (dieOfCore p.who.core)) p.t then
      some ({ s with stores := tdel s.stores id, undone := if p.laneOf.isSome then s.undone ++ [p] else s.undone }.pruneBars.refuseAccess p.who.ctx p.t)
    else
      let done : State := { s with stores := tset s.stores id { p with granted := true, gord := s.fresh }, fresh := s.fresh + 1 }
      match p.op with
      | .bytes bs =>
        let t := match p.t with
          | .mem a => if isHomed a then s.grantHomed id p a bs sharers.toNat else done.writeTarget p.who.ctx p.t bs
          | t => done.writeTarget p.who.ctx t bs
        some (t.hasReleased p.who p.ord p.t bs.length p.rel s.fresh)
      | .scat op t v _ _ _ => some (done.rmw p.who p.t (t.width / 8) fun old => some (scatNew op t old v.toNat)).2
      | .init target expected =>
        match p.t with
        | .mem a =>
          let (cl, off) := fillOf a
          if (s.cluster cl).fills.any fun f => f.off == off && f.cores.contains p.who.core then none
          else some ((done.useWord p.who.ctx cl off).fillStep cl off (some (target.toNat, expected.toNat)))
        | _ => none

/-- EF_INVALIDATION_LANDS (R120): a die takes its moment of an early-forwarded store, and of those granted before it on the line. -/
def evEfInvalidationLands (id die : Nat) (s : State) : Option State :=
  match tget s.stores id with
  | some p =>
    if p.granted && p.stale.contains die && (tget p.isolating die).isNone then
      let s := s.landLine (some die) p.t.flat p.gord
      some { s with stores := tset s.stores id { p with stale := p.stale.filter (· != die) } }
    else none
  | none => none

/-! ### Lost acknowledgements (R450) -/

/-- A home has sent an invalidation of a store's line to a die, and has no acknowledgement of it. -/
def State.unacked (s : State) (p : PStore) (die : Nat) : Bool :=
  p.t.homed && decide (die < s.dies) && die != dieOfCore p.who.core && (tget p.isolating die).isNone &&
  (if p.granted then p.stale.contains die else asGa p.md p.rel)

/-- INVALIDATION_RESEND (R450): ten ticks have passed; after the eighth resend the home asks for the die's isolation. -/
def evInvalidationResend (id die : Nat) (s : State) : Option State :=
  match tget s.stores id with
  | some p =>
    let n := (tget p.resent die).getD 0
    if s.unacked p die && decide (p.sentTick + 10 * (n + 1) ≤ s.tick) then
      let p := if n < 8 then { p with resent := tset p.resent die (n + 1) } else { p with isolating := tset p.isolating die s.tick }
      some { s with stores := tset s.stores id p }
    else none
  | none => none

/-- The partition that owns a store's line (R376). -/
def State.lineOwner (s : State) (p : PStore) : Nat :=
  let ch := (s.lineMpa p.who.ctx p.t.place).1
  match (s.ctxs.map Prod.fst).find? fun n => s.isLive n && (s.ctx n).part && (channelSet (s.ctx n)).contains ch with
  | some n => n
  | none => s.partitionOf p.who.ctx

/-- R450: the refusals of a home's die, with those of a silent die added: they last until each partition with a core there and
a channel on the home's die has been reset. -/
def State.isolate (s : State) (home die : Nat) : List (Nat × Nat × List Nat) :=
  let ps := (s.ctxs.map Prod.fst).filter fun n => s.isLive n && (s.ctx n).part &&
    (nodeClusters (s.ctx n)).any (fun cl => cl / 64 == die) && (channelSet (s.ctx n)).any fun ch => ch / 64 == home
  let rest := s.isolated.filter fun x => !(x.1 == home && x.2.1 == die)
  if ps.isEmpty then rest else rest ++ [(home, die, ps.map fun n => (s.ctx n).pno.toNat)]

/-- ISOLATION_REPORT (R450): the silent die holds no copy of lines of the home's die any more. -/
def evIsolationReport (id die : Nat) (s : State) : Option State :=
  match tget s.stores id with
  | some p =>
    match tget p.isolating die with
    | some t =>
      if t + 1000 < s.tick then none
      else
        let home := s.homeOf p.who.ctx p.t.place
        let drop (q : PStore) : PStore :=
          if q.granted && q.t.homed && s.homeOf q.who.ctx q.t.place == home then
            { q with stale := q.stale.filter (· != die), isolating := tdel q.isolating die }
          else q
        let s1 := { s with stores := s.stores.map fun (q : Nat × PStore) => (q.1, drop q.2), isolated := s.isolate home die }
        let p1 := { drop p with isolating := tdel p.isolating die }
        let s2 := { s1 with stores := tset s1.stores id p1 }
        let (ch, mpa) := s.lineMpa p.who.ctx p.t.place
        some (s2.logRec 2 0x0C ch 0 (dw mpa) 0 (dw die))
    | none => none
  | none => none

/-- ISOLATION_TIMEOUT (R450): no report within 1000 ticks: the partition that owns the line is reset. -/
def evIsolationTimeout (id die : Nat) (s : State) : Option State :=
  match tget s.stores id with
  | some p =>
    match tget p.isolating die with
    | some t =>
      if t + 1000 < s.tick then
        let (ch, mpa) := s.lineMpa p.who.ctx p.t.place
        let own := s.lineOwner p
        let s := { s with stores := tset s.stores id { p with isolating := tdel p.isolating die } }
        some (s.machineCheck own 3 0x0C ch (dw mpa) (dw die))
      else none
    | none => none
  | none => none

/-! ### Answers (R63, R64, R223) -/

/-- An x register of a fibre is filled. -/
def State.fillX (s : State) (w : Who) (r : Reg) (v : DWord) : State :=
  if r = 0#5 then s
  else if w.entry = 0 then
    let i := s.img w.core w.ctx
    s.setImg w.core w.ctx { i with x := i.x.setIfInBounds r.toNat v, xfull := i.xfull ||| BitVec.ofNat 32 (2 ^ r.toNat) }
  else s.updWho w fun f => { f with x := f.x.setIfInBounds (r.toNat - 1) v, fe := f.fe ||| BitVec.ofNat 8 (2 ^ (r.toNat - 1)) }

/-- One of p0 to p7 of a fibre. -/
def State.fillP (s : State) (w : Who) (p : BitVec 3) (b : Bool) : State :=
  s.updWho w fun f =>
    let m := BitVec.ofNat 8 (2 ^ p.toNat)
    { f with pred := if b then f.pred ||| m else f.pred &&& ~~~m }

/-- A v register is filled in some of its bytes, or an element that awaits its value takes it (R274). -/
def State.fillV (s : State) (w : Who) (r : Reg) (lanes : Word) (push : Option (Nat × Nat)) (v : VWord) : State :=
  let i := s.img w.core w.ctx
  match push with
  | some (u, tag) =>
    let t := i.streams.toArray.getD u {}
    let t := { t with push := t.push.map fun e => if e.tag = tag then { e with val := some v } else e }
    s.setImg w.core w.ctx { i with streams := i.streams.setIfInBounds u t }
  | none =>
    let old := i.v.toArray.getD r.toNat 0
    s.setImg w.core w.ctx ({ i with v := i.v.setIfInBounds r.toNat (mergeLanes 8 lanes.toNat v old) }.setVfull r.toNat true)

/-- R409: the contexts' handle check at the arrival of an `hld`. -/
def handleFault (s : State) (f : Flight) (r : BitVec 3) (v : HWord) : Option DWord :=
  if boundHere s f.who.ctx v then none else some (hctxExtra r v)

/-- R63: the answer has landed: its fibre is ready again. -/
def State.landWake (s : State) (w : Who) : State :=
  s.updWho w fun f => if f.st == .waiting && f.cond == .none && !s.flights.any (fun p => p.2.who.same w && !p.2.isPop) then f.woken else f

/-! ### What a late fault takes back (R161, R403; DEDUCED, log 52) -/

/-- A vector of bits with one bit set or cleared. -/
def setBit {w : Nat} (m : BitVec w) (k : Nat) (b : Bool) : BitVec w := if b then m ||| BitVec.ofNat w (2 ^ k) else m &&& ~~~(BitVec.ofNat w (2 ^ k))

/-- A value as it stood before, unless it has changed since. -/
def keep3 {α : Type} [DecidableEq α] (before after now : α) : α := if now = after then before else now

/-- The same of each bit. -/
def bits3 {w : Nat} (before after now : BitVec w) : BitVec w := (before &&& ~~~(now ^^^ after)) ||| (now &&& (now ^^^ after))

/-- The same of a queue: what was taken comes back to its head. -/
def back3 {α : Type} [DecidableEq α] (before after now : List α) : List α :=
  let n := before.length - after.length
  if now = after then before else if before.drop n = after then before.take n ++ now else now

/-- The same of each entry. -/
def vec3 {α : Type} [DecidableEq α] {n : Nat} (before after now : Vector α n) : Vector α n :=
  Vector.ofFn fun i => keep3 before[i] after[i] now[i]

def tab3 {α : Type} [DecidableEq α] (before after now : Tab α) : Tab α :=
  before.foldl (fun t p => if (tget now p.1).isNone && (tget after p.1).isNone then tset t p.1 p.2 else t)
    (now.filterMap fun p => (keep3 (tget before p.1) (tget after p.1) (some p.2)).map fun v => (p.1, v))

/-- A stream as it stood before, with the values that its earlier elements have since taken. -/
def Stream.takenBack (before now : Stream) : Stream :=
  { before with push := before.push.map fun e => (now.push.find? fun d => d.tag == e.tag).getD e }

/-- A register that an answer was to fill, as it stood before. -/
def Img.restoreDst (before i : Img) : Dst → Img
  | .x r => { i with x := i.x.setIfInBounds r.toNat (before.x.toArray.getD r.toNat 0), xfull := setBit i.xfull r.toNat (before.xfull.getLsbD r.toNat) }
  | .xp r _ => { i with x := i.x.setIfInBounds r.toNat (before.x.toArray.getD r.toNat 0), xfull := setBit i.xfull r.toNat (before.xfull.getLsbD r.toNat) }
  | .v r _ none => { i with v := i.v.setIfInBounds r.toNat (before.v.toArray.getD r.toNat 0) }.setVfull r.toNat (before.vfull.getLsbD r.toNat)
  | .h r => { i with h := i.h.setIfInBounds r.toNat (before.h.toArray.getD r.toNat 0) }
  | _ => i

/-- A core's registers with what a pair did to them taken back. -/
def Undo.takeBack (u : Undo) (entry : Nat) (now : Img) : Img :=
  let b := u.before
  let a := u.after
  let i : Img :=
    { now with
      x := vec3 b.x a.x now.x, xfull := bits3 b.xfull a.xfull now.xfull, v := vec3 b.v a.v now.v, vfull := bits3 b.vfull a.vfull now.vfull,
      k := vec3 b.k a.k now.k, h := vec3 b.h a.h now.h, fmt := keep3 b.fmt a.fmt now.fmt, fctl := keep3 b.fctl a.fctl now.fctl,
      fstatus := bits3 b.fstatus a.fstatus now.fstatus, lb := vec3 b.lb a.lb now.lb, le := vec3 b.le a.le now.le,
      streams := Vector.ofFn fun k => b.streams[k].takenBack now.streams[k], rep := b.rep, q0 := back3 b.q0 a.q0 now.q0,
      qreg := vec3 b.qreg a.qreg now.qreg, fifoL := back3 b.fifoL a.fifoL now.fifoL, fifoR := back3 b.fifoR a.fifoR now.fifoR,
      handlers := tab3 b.handlers a.handlers now.handlers, inbox := tab3 b.inbox a.inbox now.inbox, ires := bits3 b.ires a.ires now.ires }
  let f := now.fibre entry
  (u.dsts.foldl (fun i d => b.restoreDst i d) i).setFibre entry
    { f with pred := bits3 (b.fibre entry).pred (a.fibre entry).pred f.pred, tok := bits3 (b.fibre entry).tok (a.fibre entry).tok f.tok }

/-- What a fibre has begun from a number on and no agent has performed is withdrawn. -/
def State.withdraw (s : State) (w : Who) (first : Nat) : State :=
  let mine (n : Nat) (v : Who) : Bool := v.same w && decide (first ≤ n)
  let cl := clOf w.core
  let c := s.cluster cl
  let gone := (s.msgs.filter fun p => mine p.1 p.2.who).filterMap fun p => p.2.reserve.map Prod.snd
  { s with
    flights := s.flights.filter fun p => !mine p.1 p.2.who
    stores := s.stores.filter fun p => p.2.granted || !mine p.1 p.2.who
    copies := s.copies.filter fun p => p.2.started || !mine p.1 p.2.who
    msgs := s.msgs.filter fun p => !mine p.1 p.2.who
    links := s.links.filter fun p => !gone.contains p.1
    wbars := s.wbars.filter fun b => !mine b.id b.who }.setCluster cl
      { c with mreqs := c.mreqs.filter fun r => r.running || !mine r.id r.who }

/-- What a packet says of a unit whose answer is a fault (R404). -/
def State.flightFault (s : State) (f : Flight) : FaultAt :=
  let (word, other) := if f.wh = 2#2 then (f.other, f.word) else (f.word, f.other)
  { s.faultAt f.who.core f.who.ctx f.who.entry with
    wh := f.wh.toNat, pc := if f.wh = 2#2 then f.pc + 4 else f.pc, word := word, other := other }

/-- The destination of a unit that stands alone, as it stood; for an element of a stream, the position before it. -/
def Img.dstStood (i : Img) (entry : Nat) : Dst → Img
  | .x r => if entry = 0 then { i with xfull := setBit i.xfull r.toNat true } else i
  | .xp r _ => if entry = 0 then { i with xfull := setBit i.xfull r.toNat true } else i
  | .v r _ none => i.setVfull r.toNat true
  | .v _ _ (some (u, tag)) =>
    let t := i.streams.toArray.getD u {}
    let back := (t.pos.toNat - 1) / t.lanes * t.lanes
    { i with streams := i.streams.setIfInBounds u { t with push := t.push.filter (fun e => e.tag != tag), pos := BitVec.ofNat 48 back } }
  | _ => i

/-- R403, R409, R452, R469: a fault that comes with the answer: the unit's fibre freezes at the unit, its destination as it stood, and
neither word of a pair takes effect (R161), but for what other agents have performed of it already (DEDUCED, log 52). -/
def State.lateFault (s : State) (f : Flight) (cls : Cls) (addr extra : DWord) : State :=
  let w := f.who
  match s.who? w with
  | none => s
  | some fb =>
    let i := s.img w.core w.ctx
    match f.undo with
    | some u =>
      let j := u.takeBack w.entry i
      let s := (s.withdraw w u.first).setImg w.core w.ctx ({ j with lc := f.lc }.setFibre w.entry { j.fibre w.entry with pc := f.pc })
      s.freeze (s.flightFault f) cls addr extra
    | none =>
      let i := i.dstStood w.entry f.dst
      let i := if w.entry = 0 then { i with lc := f.lc } else i
      let fe := match f.dst with
        | .x r => if w.entry = 0 then fb.fe else setBit fb.fe (r.toNat - 1) true
        | _ => fb.fe
      let s := s.setImg w.core w.ctx (i.setFibre w.entry { fb with pc := f.pc, fe := fe })
      s.freeze (s.flightFault f) cls addr extra

/-- The value of an answer reaches the destination of its flight. -/
def State.deliver (s : State) (f : Flight) (v : Nat) (p : Bool := true) : State :=
  match f.dst with
  | .none => s
  | .x r => s.fillX f.who r (dw v)
  | .xp r n => (s.fillX f.who r (dw v)).fillP f.who n p
  | .v r l push => s.fillV f.who r l push (BitVec.ofNat 256 v)
  | .h r => let i := s.img f.who.core f.who.ctx
    s.setImg f.who.core f.who.ctx { i with h := i.h.setIfInBounds r.toNat (BitVec.ofNat 512 v) }

/-- A flight ends with a value. -/
def State.land (s : State) (id : Nat) (f : Flight) (v : Nat) (p : Bool := true) : State :=
  ({ s with flights := tdel s.flights id }.deliver f v p).landWake f.who

/-- A flight ends with a fault. -/
def State.landFault (s : State) (id : Nat) (f : Flight) (cls : Cls) (addr extra : DWord) : State :=
  { s with flights := tdel s.flights id }.lateFault f cls addr extra

/-- R448, R469: the extra field of HOSTPG. -/
def hostpgExtra (reason page : Nat) : DWord := dw (reason + page % 2 ^ 38 * 2 ^ 12)

/-- The host page that a target lies in. -/
def Target.hostPage : Target → Option Nat
  | .host _ a => some (a / 4096)
  | _ => none

/-- The value of a load's bytes, for its destination. -/
def loadValue (d : Dst) (size : Nat) (signed : Bool) (v : Nat) : Nat :=
  match d with
  | .x _ => (extend size signed v).toNat
  | _ => v

/-- A load lands (R63), from memory or with a host's answer (R134, R469). -/
def State.landLoad (s : State) (id : Nat) (f : Flight) (t : Target) (size : Nat) (signed : Bool) (ans : Answer) : Option State :=
  let s1 := s.hasRead f.who id t size f.acq
  let fin (v : Nat) : State :=
    match f.dst with
    | .h r => match handleFault s f r (BitVec.ofNat 512 v) with
      | some x => s1.landFault id f .hctx 0 x
      | none => s1.land id f v
    | d => s1.land id f (loadValue d size signed v)
  if s.readHeld f.who id t size then none
  else match ans with
    | .here => some (fin (s.readNum f.who t size))
    | .val v => if t.hostPage.isSome then some (fin v.toNat) else none
    | .hostErr => t.hostPage.map fun p => s.landFault id f .hostpg f.dva (hostpgExtra 5 p)
    | .refused _ => none

/-- A gather lands (R298). -/
def State.landGather (s : State) (id : Nat) (f : Flight) (ts : List (Nat × Target)) (size : Nat) (ans : Answer) : Option State :=
  if ts.any fun t => s.readHeld f.who id t.2 size then none
  else
    let val (i : Nat) : Nat := match ts.find? fun t => t.1 == i with
      | some t => s.readNum f.who t.2 size
      | none => 0
    match ans with
    | .here => some ((ts.foldl (fun s t => s.noteRead f.who id t.2 size) s).land id f (ofLanes (8 * size) ((List.range (32 / size)).map val)))
    | .hostErr => (ts.findSome? fun t => t.2.hostPage).map fun p => s.landFault id f .hostpg f.dva (hostpgExtra 5 p)
    | _ => none

/-- The target of an atomic is in a peer package. -/
def Target.isPeer : Target → Bool
  | .peer _ _ => true
  | _ => false

/-- An atomic, which is performed as `.ga` (R118), must wait. -/
def State.atomicHeld (s : State) (id : Nat) (f : Flight) (t : Target) : Bool :=
  s.readHeld f.who id t 8 || s.matrixHolds f.who id t 8 true || !s.orderKept f.who id true f.rel

/-- A round trip must wait. -/
def State.flightHeld (s : State) (id : Nat) (f : Flight) : Bool :=
  match f.job with
  | .load t n _ => s.readHeld f.who id t n
  | .gather ts n => ts.any fun t => s.readHeld f.who id t.2 n
  | .amo t _ _ => s.atomicHeld id f t
  | .cas t _ _ => s.atomicHeld id f t
  | _ => false

/-- The accesses that an access holds back until it is complete are taken as complete with it: round trips, stores and copies that are held
as things stand, and are not without the ones taken so far; as often as there is fuel. -/
def State.without (s : State) (self : Nat) : Nat → State
  | 0 => { s with flights := tdel s.flights self, stores := tdel s.stores self, copies := tdel s.copies self }
  | n + 1 =>
    let t := s.without self n
    { t with flights := t.flights.filter fun f => !s.flightHeld f.1 f.2 || t.flightHeld f.1 f.2
             stores := t.stores.filter fun q => q.2.granted || !s.storeHeld q.1 q.2 || t.storeHeld q.1 q.2
             copies := t.copies.filter fun c => s.barsKept c.2.who c.1 || !t.barsKept c.2.who c.1 }

/-- R90, R453: an access that the table entries among n bytes have admitted is not yet performed. `self`: the access that changes them; what
waits for it in its turn does not count (DEDUCED, log 102). -/
def State.admittedBy (s : State) (self a n : Nat) : Bool :=
  let hit (l : Lookups) : Bool := l.ptes.any fun e => overlap e 8 a n
  let asks (t : State) : Bool :=
    t.flights.any (fun f => f.1 != self && hit f.2.adm) ||
    t.stores.any (fun q => q.1 != self && !q.2.granted && hit q.2.adm) ||
    t.copies.any (fun c => c.1 != self && hit c.2.adm && !c.2.lines.all (·.done)) ||
    t.imgs.any fun i => i.2.streams.toArray.any fun u => u.push.any fun e =>
      hit e.adm && (e.val.isSome || t.flights.any fun f => match f.2.dst with
        | .v _ _ (some (_, tag)) => tag == e.tag
        | _ => false)
  asks s && asks (s.without self 4)

/-- An atomic is performed and its old value lands (R227, R228), at its home or at a peer (R133, R452, R465). -/
def State.landAtomic (s : State) (id : Nat) (f : Flight) (t : Target) (ans : Answer) : Option State :=
  if s.atomicHeld id f t || (match t with | .mem a => s.admittedBy id a 8 | _ => false) then none
  else match ans with
    | .here =>
      if t.isPeer then (if f.port.isNone then some (s.landFault id f .peer t.peerDva 1) else none)
      else
        let (old, t') := atomicAt s f.who t f.job
        some (((t'.hasRead f.who id t 8 f.acq).hasReleased f.who id t 8 f.rel s.fresh).land id f old.toNat)
    | .val v => if t.isPeer || t.hostPage.isSome then some (s.land id f v.toNat) else none
    | .refused c => if t.isPeer then some (s.landFault id f .peer t.peerDva (c.setWidth 64)) else none
    | .hostErr => t.hostPage.map fun p => s.landFault id f .hostpg f.dva (hostpgExtra 5 p)

/-- R124: a copy owns the line of the element that a queue operation writes, or takes. -/
def State.tailOwned (s : State) (qid : Nat) : Bool := (tget s.queues qid).any fun q => s.ringOwned qid q.t 1
def State.headOwned (s : State) (qid : Nat) (steal : Bool) : Bool :=
  (tget s.queues qid).any fun q => q.count != 0 && s.ringOwned qid (if steal then q.t - 1 else q.h) 1

/-- R117: where an acquire meets the enqueue of the element that an operation takes. -/
def State.headKey (s : State) (qid : Nat) (steal : Bool) : Nat :=
  match tget s.queues qid with
  | some q => elemKey qid q (if steal then q.t - 1 else q.h)
  | none => 0

/-- R117, R497: a fibre's enqueue, numbered `id`, which is a release. -/
def State.enqueueBy (s : State) (who : Who) (id : Nat) (sc : Scope) (qid : Nat) (v : DWord) : Option State :=
  match tget s.queues qid with
  | some q => (s.enqueue qid v).map fun t => (t.endRels (elemKey qid q q.t)).publishAt who id (elemKey qid q q.t) 1 sc s.fresh
  | none => none

/-- R248, R497: a queue operation is performed and answered. -/
def State.landQueue (s : State) (id : Nat) (f : Flight) : Option State :=
  if !s.orderKept f.who id false f.rel then none
  else match f.job with
    | .enq q v =>
      if s.tailOwned q then none
      else match s.enqueueBy f.who id (s.capped f.who.ctx .pk) q v with
        | some s => some (s.land id f 0)
        | none => some (s.land id f 0 false)
    | .deq q steal =>
      if s.headOwned q steal then none
      else match (if steal then s.steal q else s.dequeue q) with
        | some (v, t) =>
          let k := s.headKey q steal
          some (((t.acquireAt f.who k 1 (s.capped f.who.ctx .pk) none).endRels k).land id f v.toNat)
        | none => some (s.land id f 0 false)
    | _ => none

/-! ### Completions of stores (R120, R133, R452) -/

/-- R452: a packet for a store that a peer refused; its fibre goes on. -/
def State.peerStoreFault (s : State) (p : PStore) (code : Nat) : State :=
  if (s.ctx p.who.ctx).gen = p.who.gen then
    s.sendPacket { s.faultAt p.who.core p.who.ctx p.who.entry with pc := p.pc, word := p.word } .peer p.dva (dw code) (s.upFrom p.who.ctx)
  else s

/-- R453: a packet for a copy that a peer refused (DEDUCED, log 54). -/
def State.peerCopyFault (s : State) (c : Copy) (code : Nat) : State :=
  s.sendPacket { s.faultAt c.who.core c.who.ctx c.who.entry with source := 2, pc := 0 } .peer c.dva (dw code) (s.upFrom c.who.ctx)

/-- R453: a copy has ended, the answers of peers to its pushes included. -/
def Copy.over (c : Copy) : Bool := c.released && c.visible && c.lines.all fun l => !l.dst.isPeer || l.acked

/-- A copy's new state, none when it is over. -/
def State.setCopy (s : State) (id : Nat) (c : Copy) : State := { s with copies := if c.over then tdel s.copies id else tset s.copies id c }

/-- R125, R453: a peer has performed or refused a line that a copy pushed, which the copy answers for in the order of its lines. -/
def State.copyAcked (s : State) (id : Nat) (c : Copy) (res : PeerRes) : Option State :=
  let waits (l : CLine) : Bool := l.done && l.dst.isPeer && !l.acked
  (c.lines.find? waits).bind fun l =>
    (c.lines.findIdx? waits).map fun k =>
      let c' := { c with lines := c.lines.set k { l with acked := true } }
      match res with
      | .done => s.setCopy id c'
      | .refused code =>
        if c.peerFault.isSome then s.setCopy id c'
        else (s.setCopy id { c' with peerFault := some (code.setWidth 64) }).peerCopyFault { c with dva := l.dst.peerDva } code.toNat

/-- STORE_COMPLETION (R120): every die has taken a store, and the accesses that it admitted under an old translation are done (R90); or a
peer has performed or refused a push. -/
def evStoreCompletion (id : Nat) (res : PeerRes) (s : State) : Option State :=
  match tget s.stores id with
  | some p =>
    match p.t with
    | .peer _ _ =>
      if !s.orderKept p.who p.ord false p.rel || s.storeHeld id p then none
      else
        let s' := { s with stores := tdel s.stores id }.pruneBars
        match p.port, res with
        | none, _ => some (s'.peerStoreFault p 1)
        | some _, .done => some s'
        | some _, .refused c => some (s'.peerStoreFault p c.toNat)
    | _ =>
      if p.granted && p.stale.isEmpty && p.isolating.isEmpty && res = .done && !s.admittedBy id p.t.flat p.op.size then
        some { s with stores := tdel s.stores id }.pruneBars
      else none
  | none => if s.linkPassed id then (tget s.copies id).bind fun c => s.copyAcked id c res else none

/-! ### Queue registers (R249, R427) -/

/-- Replace q2 or q3 of a context's core. -/
def State.setQReg (s : State) (core ctx k : Nat) (b : QReg) : State :=
  let i := s.img core ctx
  s.setImg core ctx { i with qreg := i.qreg.setIfInBounds k b }

/-- QREG_ENQUEUE_DRAIN (R249): the head of an enqueue buffer enters its queue, as a release of the primary at `.pk` (R117, R457). -/
def evQregEnqueueDrain (core : Nat) (q : BitVec 1) (s : State) : Option State :=
  match (s.core core).res with
  | none => none
  | some ctx =>
    let b := (s.img core ctx).qreg.toArray.getD q.toNat {}
    match b.dir, b.buf with
    | 1#2, v :: rest =>
      if !s.undoing core ctx && !s.tailOwned b.qid && s.orderKept (s.primaryWho core ctx) (b.ords.headD 0) false (some (s.capped ctx .pk)) then
        (s.enqueueBy (s.primaryWho core ctx) (b.ords.headD 0) (s.capped ctx .pk) b.qid v).map fun s => (s.setQReg core ctx q.toNat { b with buf := rest, ords := b.ords.drop 1 }).demote ctx .pk
      else none
    | _, _ => none

/-- QREG_FETCH_AHEAD (R249): an element is taken from a queue into a buffer. -/
def evQregFetchAhead (core : Nat) (q : BitVec 1) (s : State) : Option State :=
  match s.issuing core with
  | none => none
  | some ctx =>
    let b := (s.img core ctx).qreg.toArray.getD q.toNat {}
    if 4 ≤ b.buf.length || s.undoing core ctx || s.headOwned b.qid (b.dir == 3#2) then none
    else
      let r := if b.dir = 2#2 then s.dequeue b.qid else if b.dir = 3#2 then s.steal b.qid else none
      r.map fun x => (x.2.moveRels (s.headKey b.qid (b.dir == 3#2)) (qregKey core ctx (q.toNat + 2)) b.buf.length).setQReg core ctx q.toNat
        { b with buf := b.buf ++ [x.1] }

/-! ### Stream units (R268, R274, R276, R277) -/

/-- R277: the accesses of a primary before a number are performed: stores, pushes, matrix requests, round trips, the reads of copies. -/
def State.allBefore (s : State) (who : Who) (id : Nat) : Bool :=
  s.storesDone who id .sy && s.matrixDone who id &&
  !s.flights.any (fun p => decide (p.1 < id) && p.2.who.same who && !p.2.isPop) &&
  !s.copies.any fun p => decide (p.1 < id) && p.2.who.same who && !p.2.released

/-- R403: after a fault of the primary its streams fetch nothing ahead until it issues again, but what the unit that it comes to issue waits
for. -/
def Img.fetches (i : Img) (u : Nat) : Bool :=
  let f := i.fibre 0
  f.st != .parked && f.st != .frozen && (!i.hush || f.st == .waiting && match f.cond with
    | .vreg r _ => r.toNat == u
    | .replay => true
    | _ => false)

/-- STREAM_FETCH_AHEAD (R268, R277): the next element of a pop-bound unit is read, after every access before the `sbind`; a fault raises
nothing (R414). -/
def evStreamFetchAhead (core : Nat) (u : BitVec 2) (s : State) : Option State :=
  match s.issuing core with
  | none => none
  | some ctx =>
    let i := s.img core ctx
    let t := i.streams[u.toNat]
    let pos := t.pos.toNat + t.held.length * t.lanes
    let who := s.primaryWho core ctx
    if t.bind != 1#2 || decide (8 ≤ t.held.length) || !i.fetches u.toNat || decide (t.items ≤ pos) || s.undoing core ctx ||
        !s.allBefore who t.bindAt then none
    else
      let js := t.elemItems pos
      match s.itemTargets core ctx t .pop js with
      | .error _ => none
      | .ok (s', ts) =>
        if ts.any (fun x => s'.readHeld who t.bindAt x t.isize || s.lineOwned s.fresh x t.isize) || js.any (s.indexHeld core ctx t t.bindAt) then none
        else
          let v : VWord := BitVec.ofNat 256 (ofLanes t.fmt.width (ts.map fun x => s'.readNum who x t.isize))
          let s' := ts.foldl (fun (s' : State) x => s'.noteRead who t.bindAt x t.isize) s'
          let i := s'.img core ctx
          some { s'.setImg core ctx { i with streams := i.streams.set u.toNat { t with held := t.held ++ [v] } } with lookups := s.lookups }

/-- STREAM_PUSH_STORE (R274): the oldest pushed element leaves as stores of its items. -/
def evStreamPushStore (core : Nat) (u : BitVec 2) (s : State) : Option State :=
  match (s.core core).res with
  | none => none
  | some ctx =>
    let i := s.img core ctx
    let t := i.streams[u.toNat]
    match t.push with
    | e :: rest =>
      if e.val.isSome && !s.undoing core ctx then
        some ((s.setImg core ctx { i with streams := i.streams.set u.toNat { t with push := rest } }).storeElem (s.primaryWho core ctx) e)
      else none
    | [] => none

end Sys2Proof.Machine
end

