-- ==== Sys2Proof/Machine/EvCopy.lean ====
section
/-! DEFINITION. The steps of the matrix unit (R285, R286, R292, R303, R306) and of the copy engines (R123 to R125, R312, R313, R453). -/
namespace Sys2Proof.Machine

/-! ### The matrix unit -/

/-- R108, R124, R126: places that a request touches are held by an earlier store of its fibre, by a copy, or by a fill word. -/
def State.rangesHeld (s : State) (r : MReq) (rs : List (Nat × Nat)) : Bool :=
  rs.any fun x => s.lineOwned r.id (.mem x.1) (x.2 - x.1) || s.ownStoreBefore r.who r.id r.id (.mem x.1) (x.2 - x.1) ||
    s.fillPending (.mem x.1) (x.2 - x.1)

/-- R292: a request may start as to the format change. -/
def Cluster.fmtReady (c : Cluster) (r : MReq) : Bool :=
  !r.op.usesFmt || !c.bubble || match c.lastFmt with
  | some f => f == r.fmt
  | none => true

/-- R126: `accdc`, which writes a scratchpad. -/
def MOp.isDown : MOp → Bool
  | .down _ _ _ => true
  | _ => false

/-- MATRIX_REQUEST_START (R303): the oldest accepted request begins. -/
def evMatrixRequestStart (cl : Nat) (s : State) : Option State :=
  let c := s.cluster cl
  match c.mreqs with
  | [] => none
  | r :: rs =>
    if r.running || !c.fmtReady r || (r.op.isDown && !s.barsKept r.who r.id) || s.rangesHeld r (r.reads cl ++ r.writes cl) || !(s.img r.who.core r.who.ctx).cuts.isEmpty then none
    else some (s.setCluster cl { c with mreqs := { r with running := true } :: rs })

/-- R306: rows that an `accrd` has yet to deliver. -/
def MOp.leftover : MOp → Nat
  | .read _ _ _ n => n
  | _ => 0

/-- MATRIX_REQUEST_END (R303): the request has had its effect, and its flags are merged (R143). -/
def evMatrixRequestEnd (cl : Nat) (s : State) : Option State :=
  let c := s.cluster cl
  match c.mreqs with
  | [] => none
  | r :: rs =>
    if r.running && r.op.leftover == 0 then
      let s := s.runRequest cl r
      let c := s.cluster cl
      some (s.setCluster cl { c with mreqs := rs, lastFmt := if r.op.usesFmt then some r.fmt else c.lastFmt,
                                     bubble := c.bubble || r.op.usesFmt })
    else none

/-- FORMAT_BUBBLE_END (R292): the unit has executed nothing for 24 cycles. -/
def evFormatBubbleEnd (cl : Nat) (s : State) : Option State :=
  let c := s.cluster cl
  if c.bubble && !c.mreqs.any (·.running) then some (s.setCluster cl { c with bubble := false }) else none

/-- A dword enters q0. -/
def State.pushQ0 (s : State) (core ctx : Nat) (v : DWord) : State :=
  let i := s.img core ctx
  s.setImg core ctx { i with q0 := i.q0 ++ [v] }

/-- ACCRD_DELIVER (R306, R286): one dword of an `accrd`, first of one that a stop cut short. -/
def evAccrdDeliver (cl : Nat) (s : State) : Option State :=
  let cut := ((List.range 8).map (coreAt cl)).findSome? fun core => match s.issuing core with
    | some ctx => match (s.img core ctx).cuts with
      | c :: cs => some (core, ctx, c, cs)
      | [] => none
    | none => none
  match cut with
  | some (core, ctx, c, cs) =>
    let i := s.img core ctx
    match c.dws with
    | some (v :: vs) =>
      if 16 ≤ i.q0.length then none
      else
        let row := vs.length % 32 == 0
        let c' : CutRead := { c with dws := some vs, row := if row then c.row + 1 else c.row, left := if row then c.left - 1 else c.left }
        some ((s.setImg core ctx { i with cuts := if vs.isEmpty then cs else c' :: cs }).pushQ0 core ctx v)
    | _ => some (s.setImg core ctx { i with cuts := cs })
  | none =>
    let c := s.cluster cl
    match c.mreqs with
    | r :: rs =>
      match r.op with
      | .read t row col n =>
        if !r.running || n = 0 || decide (16 ≤ (s.img r.who.core r.who.ctx).q0.length) then none
        else
          let e := s.tileRow cl t row
          let v := dw (e.getD (2 * col) 0 + 2 ^ 32 * e.getD (2 * col + 1) 0)
          let op := if col = 31 then MOp.read t (row + 1) 0 (n - 1) else MOp.read t row (col + 1) n
          some ((s.setCluster cl { c with mreqs := { r with op := op } :: rs }).pushQ0 r.who.core r.who.ctx v)
      | _ => none
    | [] => none

/-! ### Copies -/

/-- COPY_ENGINE_START (R312): an engine starts its copies in acceptance order. -/
def evCopyEngineStart (id : Nat) (s : State) : Option State :=
  match tget s.copies id with
  | some c =>
    if c.started || s.copies.any (fun p => decide (p.1 < id) && p.2.cl == c.cl && !p.2.started) then none
    else some { s with copies := tset s.copies id { c with started := true } }
  | none => none

/-- The bytes of a source, as the engine's die reads them; a package engine reads at the trust die (R92, R309). -/
def State.sourceBytes (s : State) (c : Copy) (src : List (Target × Nat)) : Bytes :=
  src.flatMap fun x => match c.cl, x.1 with
    | none, .mem a => s.clear c.who.ctx a (s.readBytes none a x.2)
    | _, t => s.readTarget c.who t x.2

/-- R313, R127: the bytes of a line written into a scratchpad are counted. -/
def State.countLine (s : State) (c : Copy) (l : CLine) : State :=
  match c.fill, l.dst with
  | some off, .mem a => match spadOf a with
    | some (cl, _) => s.countFill c.who.ctx cl off l.len 0
    | none => s
  | _, _ => s

/-- R123: a line is written, multi-copy atomic, to a part that it has woken (R40). -/
def State.writeLine (s : State) (c : Copy) (l : CLine) (bs : Bytes) : State :=
  let s := if l.dst.homed then { s.seenBy true none l.dst.flat with fresh := s.fresh + 1 } else s
  ((s.wakeFor l.dst).writeTarget c.who.ctx l.dst bs).countLine c l

/-- R349: a line of a copy waits for a host page that it reads or writes (DEDUCED, log 77). -/
def Copy.holds (c : Copy) (l : CLine) : Bool :=
  let on (t : Target) : Bool := match t with
    | .host p a => c.held.any fun h => h.1 == p && h.2.1 == a / 4096
    | _ => false
  on l.dst || l.src.any fun x => on x.1

/-- R314: lines of a copy with one source share one reading of it. -/
def shareRead (lines : List CLine) (src : List (Target × Nat)) (bs : Bytes) : List CLine :=
  lines.map fun l => if l.src = src then { l with buf := some bs } else l

/-- COPY_LINE_WRITE (R124): a destination line is written and the accesses that wait for it go on (DEDUCED, log 56). -/
def evCopyLineWrite (id line : Nat) (s : State) : Option State :=
  match tget s.copies id with
  | none => none
  | some c =>
    match c.lines[line]? with
    | none => none
    | some l =>
      if !c.started || l.done || c.holds l || !s.barsKept c.who id || s.lineOwned id l.dst l.len || s.matrixHolds c.who id l.dst l.len true ||
          (l.buf.isNone && l.src.any fun x => s.lineOwned id x.1 x.2 || s.fillPending x.1 x.2) then none
      else
        match (l.dst :: l.src.map Prod.fst).find? fun t => s.refusedAt c.who.ctx (c.cl.map fun cl => cl / 64) t with
        | some t => some ({ s with copies := tdel s.copies id }.refuseAccess c.who.ctx t)
        | none =>
        let bs := l.buf.getD (s.sourceBytes c l.src)
        let lines := (shareRead c.lines l.src bs).set line { l with buf := none, done := true }
        let seen := l.src.foldl (fun (s : State) x => s.noteRead c.who id x.1 x.2) s
        let s' := { seen with copies := tset s.copies id { c with lines := lines } }
        match l.dst with
        | .peer pkg off =>
          match s.peerPort pkg (off / 4096) with
          | some p =>
            let sent := { c with lines := lines.set line { l with buf := none, done := true, port := some p } }
            some ({ s' with copies := tset s'.copies id sent }.sendFlit (some (.port p)) id)
          | none =>
            let c' := { c with lines := lines.set line { l with buf := none, done := true, acked := true } }
            if c.peerFault.isSome then some { s with copies := tset s.copies id c' }
            else some ({ s with copies := tset s.copies id { c' with peerFault := some 1 } }.peerCopyFault { c with dva := l.dst.peerDva } 1)
        | _ => some (s'.writeLine c l bs)

/-- The tokens of a copy, which was `old`, after its events: a token that both use completes at the later (R313). -/
def State.copyEvent (s : State) (id : Nat) (old c : Copy) : State :=
  let both := c.rtok.isSome && c.rtok == c.vtok
  let fin (s : State) (t : Option (BitVec 3)) (ok : Bool) : State := match t with
    | some k => if ok then s.updWho c.who fun f => f.completeToken k.toNat else s
    | none => s
  let s := s.setCopy id c
  if both then fin s c.rtok (c.released && c.visible)
  else fin (fin s c.rtok (c.released && !old.released)) c.vtok (c.visible && !old.visible)

/-- COPY_RELEASED (R313): every source byte has been read. -/
def evCopyReleased (id : Nat) (s : State) : Option State :=
  match tget s.copies id with
  | some c =>
    if c.started && !c.released && c.lines.all (fun l => l.done || l.buf.isSome) then some (s.copyEvent id c { c with released := true }) else none
  | none => none

/-- R90, R125: a line of a copy is performed at the copy's scope: in `.sy` are the peers, and a line of table entries waits for the accesses
that they have admitted. -/
def State.lineVisible (s : State) (id : Nat) (c : Copy) (l : CLine) : Bool :=
  l.done && match l.dst with
  | .peer _ _ => c.scope != .sy || l.acked
  | .mem a => !isHomed a || !s.admittedBy id a l.len
  | _ => true

/-- COPY_VISIBLE (R313): every destination byte is performed at the copy's scope. -/
def evCopyVisible (id : Nat) (s : State) : Option State :=
  match tget s.copies id with
  | some c => if c.started && !c.visible && c.lines.all (s.lineVisible id c) then some (s.copyEvent id c { c with visible := true }) else none
  | none => none

/-- R453: a copy that stops at a failed page: lines not written are released, and both tokens complete. -/
def State.stopCopy (s : State) (id : Nat) (cls : Cls) (addr extra : DWord) : State :=
  match tget s.copies id with
  | some c =>
    let s := s.copyEvent id c { c with released := true, visible := true, lines := [] }
    s.sendPacket { s.faultAt c.who.core c.who.ctx c.who.entry with source := 2, pc := 0 } cls addr extra (s.upFrom c.who.ctx)
  | none => s

end Sys2Proof.Machine
end

