-- ==== Sys2Proof/Machine/EvMsg.lean ====
section
/-! DEFINITION. The steps of messages: arrival, refusal and resending (R242 to R245, R352), the start of handler and upcall fibres
(R66, R67, R332, R422, R423), and parked messages (R77). -/
namespace Sys2Proof.Machine

/-! ### Outcomes (R242) -/

/-- R242: fifths of a core-clock period before the resend that follows the k-th refusal. -/
def backOff (k : Nat) : Nat := 5 * 64 * 2 ^ min (k - 1) 8

/-- A refused message frees its reply reservation. -/
def State.freeReserve (s : State) (m : MFlight) : State :=
  match m.reserve with
  | some (k, lid) =>
    let i := s.img m.who.core m.who.ctx
    { s.setImg m.who.core m.who.ctx (i.unreserve k) with links := tdel s.links lid }
  | none => s

/-- R242: the outcome of a message reaches its sender: reported, or the message waits to be sent again. -/
def State.msgOutcome (s : State) (id : Nat) (m : MFlight) (code : Nat) : State :=
  if 1 ≤ code ∧ code ≤ 3 ∧ dstRetry m.dst ∧ m.resends < 15 then
    { s with msgs := tset s.msgs id { m with waitTill := some ((s.dieOf (dieOfCore m.who.core)).cyc + backOff (m.resends + 1)) } }
  else
    let s := { s with msgs := tdel s.msgs id }
    let s := if code = 0 then s else s.freeReserve m
    match m.flight with
    | some fid => match tget s.flights fid with
      | some f => { s with flights := tset s.flights fid { f with job := .outcome (dw (code + m.resends * 2 ^ 8)) } }
      | none => s
    | none => s

/-- MESSAGE_RESEND (R242): the back-off has passed; the message goes out again, marked so, on a port that is up now (R465). -/
def evMessageResend (id : Nat) (s : State) : Option State :=
  match tget s.msgs id with
  | some m =>
    match m.waitTill with
    | some t =>
      if t ≤ (s.dieOf (dieOfCore m.who.core)).cyc then
        let m' : MFlight := { m with waitTill := none, resends := m.resends + 1, msg := { m.msg with hdr := setFld m.msg.hdr 27 27 1 },
                                     port := if m.peer then s.peerPort (fld m.dst 45 36) (dstLid m.dst) else none }
        some (s.putMsg id m')
      else none
    | none => none
  | none => none

/-! ### Arrival (R243, R244) -/

/-- R117: the release that sending a message is; no link keeps it back (R462). -/
def State.msgReleased (s : State) (id : Nat) (m : MFlight) : Bool :=
  s.linkPassed id && s.orderKept m.who id false (some (s.capped m.who.ctx (sendScope m.peer m.who.core m.toCore)))

/-- R117: an accepted message, by its order of acceptance, carries the release that sending it was. -/
def State.sentBy (s : State) (order id : Nat) (m : MFlight) : State :=
  s.publishAt m.who id (msgKey order) 1 (s.capped m.who.ctx (sendScope false m.who.core m.toCore)) s.fresh

/-- Two messages go to one core: of this package, or of one peer. -/
def MFlight.sameTarget (m n : MFlight) : Bool :=
  m.peer == n.peer && if m.peer then fld m.dst 45 36 == fld n.dst 45 36 && dstLid m.dst == dstLid n.dst else m.toCore == n.toCore

/-- R243, R336: an earlier message or reply of one priority between the same two cores, not yet accepted or refused; one of another fibre
has left once what its release waits for is done (DEDUCED, log 55). -/
def State.msgBefore (s : State) (id : Nat) (m : MFlight) : Bool :=
  m.resends == 0 && s.msgs.any fun p => decide (p.1 < id) && p.2.resends == 0 && p.2.waitTill.isNone && p.2.who.core == m.who.core &&
    p.2.sameTarget m && fld p.2.msg.hdr 25 24 == fld m.msg.hdr 25 24 && (p.2.who.same m.who || s.msgReleased p.1 p.2)

/-- R67: a message that comes from another die. -/
def MFlight.fromOtherDie (m : MFlight) : Bool := dieOfCore m.who.core != dieOfCore m.toCore

/-- R396: a message from outside a restart subtree is kept for delivery after a restore. -/
def State.logInbound (s : State) (ctx : Nat) (m : MFlight) : State :=
  match (s.upFrom ctx).find? fun n => s.rpoints.any fun r => r.ctx == n with
  | some n =>
    { s with rpoints := s.rpoints.map fun (r : RPoint) => if r.ctx = n then { r with inbound := r.inbound ++ [m] } else r }
  | none => s

/-- R396: the inbound log of a context's restart subtree is full: what comes from outside waits for the restart point that this forces. -/
def State.inboundFull (s : State) (ctx : Nat) : Bool := s.rpoints.any fun r => (s.upFrom ctx).contains r.ctx && decide (4096 ≤ r.inbound.length)

/-- A message of the package's own fibres comes from another partition. -/
def State.foreign (s : State) (m : MFlight) : Bool := s.partitionOf m.who.ctx != s.partitionOf m.toCtx

/-- R396: a message that the package's own fibres sent from another partition. -/
def State.logForeign (s : State) (m : MFlight) : State := if s.foreign m then s.logInbound m.toCtx m else s

/-- R396: what is delivered again to a core comes before what arrives anew from outside. -/
def State.redelivering (s : State) (core : Nat) : Bool := s.msgs.any fun p => p.2.again && p.2.toCore == core

/-- R396: a message or reply of the inbound log is delivered again, in the order of the log, once its core takes it. -/
def State.againArrival (s : State) (id : Nat) (m : MFlight) : Option State :=
  if s.msgs.any fun p => p.2.again && decide (p.1 < id) then none
  else
    let s := { s.wakeCore m.toCore with msgs := tdel s.msgs id }
    match m.isReply, m.slot with
    | true, some k => some (s.acceptReply m.toCore m.toCtx k m.msg m.fromOtherDie)
    | true, none => some s
    | false, _ => match s.acceptMsg m.toCore m.toCtx m.msg (m.peer || m.fromOtherDie) m.linkId with
      | (0, s) => some s
      | _ => none

/-- A message of the package's own arrives, and wakes its core (R40). -/
def State.ownArrival (s : State) (id : Nat) (m : MFlight) : Option State :=
  if m.again then s.againArrival id m
  else if m.waitTill.isSome || s.msgBefore id m || !s.msgReleased id m ||
      (!m.peer && s.foreign m && (s.inboundFull m.toCtx || s.redelivering m.toCore)) then none
  else if m.peer then
    if m.isReply then some { s with msgs := tdel s.msgs id } else if m.port.isNone then some (s.msgOutcome id m 5) else none
  else
    match m.isReply, m.slot with
    | true, some k =>
      some ((({ s.wakeCore m.toCore with msgs := tdel s.msgs id }.acceptReply m.toCore m.toCtx k m.msg m.fromOtherDie).sentBy s.fresh id m).logForeign m)
    | true, none => some { s with msgs := tdel s.msgs id }
    | false, _ =>
      if (s.ctx m.toCtx).st = .created then some (s.msgOutcome id m 3)
      else
        let order := s.fresh
        let (code, s) := (s.wakeCore m.toCore).acceptMsg m.toCore m.toCtx m.msg m.fromOtherDie m.linkId
        some ((if code = 0 then (s.sentBy order id m).logForeign m else s).msgOutcome id m code)

/-- R352: the context that an export admits a message for, and the core its LID names there: the lowest entry for the tag decides, though
its context be gone. -/
def State.exportFor (s : State) (tag lid : Nat) : Option (Nat × Nat) :=
  (s.exports.find? fun e => e.2.d0.getLsbD 63 && e.2.d0.getLsbD 61 && decide (fld e.2.d0 47 40 ≤ tag ∧ tag ≤ fld e.2.d0 39 32)).bind fun e =>
    (s.named (e.2.d0 &&& 0xFFFF0FFF#64)).bind fun ctx => (s.coreInNode ctx lid).map fun core => (ctx, core)

/-- R242, R352: the answer to a peer package. -/
def State.answerPeer (s : State) (code : Nat) : State := { s with peerOut := some code }

/-- R352: a message from a peer package reaches the core for which an export admits it, or is refused. -/
def State.peerArrival (s : State) (pkg : BitVec 10) (sender : BitVec 16) (tag : Byte) (prio : BitVec 2) (resent : Bool)
    (lid : BitVec 16) (link : DWord) (args : List DWord) : Option State :=
  match s.exportFor tag.toNat lid.toNat with
  | none => some (s.answerPeer 5)
  | some (ctx, core) =>
    if (s.ctx ctx).st = .created then some (s.answerPeer 3)
    else if s.inboundFull ctx || s.redelivering core then none
    else
      let hdr := dw (pkg.toNat * 2 ^ 32 + b2n resent * 2 ^ 27 + 2 ^ 26 + prio.toNat * 2 ^ 24 + tag.toNat * 2 ^ 16 + sender.toNat)
      let (id, v, s1) := if link = 0 then (0, 0, s)
        else s.newLink { kind := .remote pkg.toNat sender.toNat link prio.toNat, answerer := ctx, answererGen := (s.ctx ctx).gen }
      let m : Msg := { hdr := hdr, link := v, args := vec6 args }
      let l := if link = 0 then none else some id
      match (s1.wakeCore core).acceptMsg core ctx m true l with
      | (0, s2) =>
        some ((s2.logInbound ctx { who := s.primaryWho core ctx, dst := 0, msg := m, toCtx := ctx, toCore := core, peer := true, isReply := false,
                                   slot := none, reserve := none, linkId := l }).answerPeer 0)
      | (code, _) => some (s.answerPeer code)

/-- R247, R465: the reply of a peer package reaches the slot that its message reserved, with its sender's package ID and LID (R239). -/
def State.peerReplyArrival (s : State) (id : Nat) (pkg : BitVec 10) (sender : BitVec 16) (status : DWord) (args : List DWord) : Option State :=
  match tget s.links id with
  | some l =>
    match l.kind with
    | .message core ctx slot gen rtag prio true =>
      if l.replied || (s.ctx ctx).gen != gen || s.inboundFull ctx || s.redelivering core then none
      else
        let hdr := dw (pkg.toNat * 2 ^ 32 + 2 ^ 26 + prio * 2 ^ 24 + rtag * 2 ^ 16 + sender.toNat)
        let m : Msg := { hdr := hdr, link := 0, args := vec6 (args ++ [status]) }
        some ((((s.markReplied id).wakeCore core).acceptReply core ctx slot m true).logInbound ctx
          { who := s.primaryWho core ctx, dst := 0, msg := m, toCtx := ctx, toCore := core, peer := true, isReply := true,
            slot := some slot, reserve := none, linkId := some id })
    | _ => none
  | none => none

/-- MESSAGE_ARRIVAL (R244). -/
def evMessageArrival (m : MsgIn) (s : State) : Option State :=
  match m with
  | .flight id => (tget s.msgs id).bind fun m => s.ownArrival id m
  | .peer pkg sender tag prio resent lid link a1 a2 a3 a4 a5 a6 => s.peerArrival pkg sender tag prio resent lid link [a1, a2, a3, a4, a5, a6]
  | .peerReply id pkg sender status a1 a2 a3 a4 a5 => s.peerReplyArrival id pkg sender status [a1, a2, a3, a4, a5]

/-- R242: the outcome that a peer package returns for a message that was sent to it. -/
def State.peerOutcome (s : State) (fid code : Nat) : Option State :=
  match tget s.flights fid with
  | some f =>
    match f.job with
    | .send id => match tget s.msgs id with
      | some m => if m.peer && m.port.isSome && m.waitTill.isNone && s.msgReleased id m then some (s.msgOutcome id m code) else none
      | none => none
    | _ => none
  | none => none

/-! ### Answers (R223) -/

/-- An arrival at a fill word is performed (R117, R233). -/
def State.landArrive (s : State) (id : Nat) (f : Flight) (a : Nat) : Option State :=
  if s.orderKept f.who id false f.rel then
    let (cl, off) := fillOf a
    some (((s.countFill f.who.ctx cl off 0 1 [f.who.core]).publish f.who id a).land id f (s.fillGen a))
  else none

/-- ANSWER_ARRIVAL (R223); an access that its home refuses gets none, and its partition an uncorrectable error (R450). -/
def evAnswerArrival (id : Nat) (ans : Answer) (s : State) : Option State :=
  match tget s.flights id with
  | none => none
  | some f =>
    if !s.linkPassed id then none
    else match f.targets.find? fun t => s.refusedAt f.who.ctx (some (dieOfCore f.who.core)) t with
    | some t => if ans = .here then some ({ s with flights := tdel s.flights id }.refuseAccess f.who.ctx t) else none
    | none =>
    match f.job with
    | .load t size signed => s.landLoad id f t size signed ans
    | .gather ts size => s.landGather id f ts size ans
    | .value v => if ans = .here then some (s.land id f v.toNat) else none
    | .amo t _ _ => s.landAtomic id f t ans
    | .cas t _ _ => s.landAtomic id f t ans
    | .arrive a => if ans = .here then s.landArrive id f a else none
    | .enq _ _ => if ans = .here then s.landQueue id f else none
    | .deq _ _ => if ans = .here then s.landQueue id f else none
    | .send _ => match ans with
      | .val v => s.peerOutcome id (fld v 7 0)
      | .refused c => s.peerOutcome id c.toNat
      | _ => none
    | .outcome v => if ans = .here then some (s.land id f v.toNat) else none

/-! ### Handlers and upcalls (R66, R67, R332, R422) -/

/-- A handler fibre (R66). -/
def handlerFibre (e : DWord) (x : List DWord) (uid : Nat) (owes : Option Nat) : Fibre :=
  { pc := hPc e, st := .ready, level := hLevel e, kind := 2, fe := 0xFF, x := Vector.ofFn fun (k : Fin 8) => x.getD k.val 0, uid := uid, owes := owes }

/-- HANDLER_START (R67): by the entry that the message took (R246); an acquire at the scope of its sending (R117, R457). -/
def evHandlerStart (core : Nat) (s : State) : Option State :=
  match s.issuing core with
  | none => none
  | some ctx =>
    let i := s.img core ctx
    match i.nextWaiter with
    | some (w, e) =>
      if w.upcall then none
      else match tget i.inbox w.slot with
        | some m =>
          let x := m.msg.args.toList ++ [m.msg.hdr, m.msg.link]
          let f := handlerFibre m.entry x s.fresh m.link
          let sc := hdrScope m.msg.hdr core
          let who : Who := { core := core, ctx := ctx, gen := (s.ctx ctx).gen, entry := e, uid := s.fresh }
          let t := ((s.demote ctx sc).acquireAt who (msgKey m.order) 1 (s.capped ctx sc) none).endRels (msgKey m.order)
          some { t.setImg core ctx ({ i with inbox := tdel i.inbox w.slot }.setFibre e f) with fresh := s.fresh + 1 }
        | none => none
    | none => none

/-- R423: x2 and x4 of an upcall. -/
def upcallX2 (p : Parking) (kind : Nat) : DWord := dw (p.entry + kind * 2 ^ 8 + p.access.toNat * 2 ^ 12 + p.level.toNat * 2 ^ 16)
def upcallX4 (p : Parking) : DWord := dw (p.word.toNat + p.other.toNat * 2 ^ 32)

/-- UPCALL_START (R422, R423). -/
def evUpcallStart (core : Nat) (s : State) : Option State :=
  match s.issuing core with
  | none => none
  | some ctx =>
    let i := s.img core ctx
    match i.nextWaiter with
    | some (w, e) =>
      if !w.upcall then none
      else match i.parkings.find? fun p => p.entry == w.slot && !p.started with
        | some p =>
          let (id, v, s1) := s.newLink { kind := .upcall core ctx p.entry p.uid, answerer := ctx, answererGen := (s.ctx ctx).gen }
          let fb := i.fibre p.entry
          let x := [p.dva, upcallX2 p fb.kind.toNat, p.pc, upcallX4 p, 0, 0, dw (2 ^ 63 + lidOf core), v]
          let f := handlerFibre (i.handler 0xFF) x s1.fresh (some id)
          let ps := i.parkings.map fun q => if q.entry == p.entry && q.seq == p.seq then { q with started := true, link := some id } else q
          some { s1.setImg core ctx (({ i with parkings := ps }.setFibre p.entry { fb with wop := 1 }).setFibre e f) with fresh := s1.fresh + 1 }
        | none => none
    | none => none

/-- PARKED_MESSAGE_MOVE_IN (R77). -/
def evParkedMessageMoveIn (core : Nat) (s : State) : Option State :=
  match (s.core core).res with
  | some ctx =>
    (s.img core ctx).moveOne.map fun i => s.setImg core ctx i
  | none => none

/-- AGE_BOOST (R69): a ready fibre whose age has reached 4095 counts one level higher until it issues. -/
def evAgeBoost (core entry : Nat) (s : State) : Option State :=
  match s.issuing core with
  | some ctx =>
    let i := s.img core ctx
    let f := i.fibre entry
    if f.st == .ready && f.age == 4095 && !f.boost then some (s.setImg core ctx (i.setFibre entry { f with boost := true })) else none
  | none => none

end Sys2Proof.Machine
end

