-- ==== Sys2Proof/Machine/LongOp.lean ====
section
/-! DEFINITION. The blocks of long operations (R429, R437, R438): `ctxstop`, `ctxsave`, `ctxload` and `ctxrevoke` go on block by
block; a revocation completes others. -/
namespace Sys2Proof.Machine

/-! ### The blocks of long operations (R437, R438) -/

/-- The token of a long operation completes, on a core that may be a cage image (R432). -/
def State.completeOp (s : State) (core ctx : Nat) (o : LongOp) : State :=
  let i := s.img core ctx
  let f := i.fibre 0
  let i := { i with ops := i.ops.filter (· != o) }
  s.setImg core ctx (if f.st != .free ∧ f.uid = o.uid then i.setFibre 0 (f.completeToken (fld o.word 59 57)) else i)

/-- R220, R438: long operations on contexts that a revocation ended complete with it. -/
def State.completeRevoked (s : State) (ns : List Nat) : State :=
  s.imgs.foldl (fun s p => p.2.ops.foldl (fun s o =>
    let t := fld o.word 56 45
    if ns.contains t && (s.ctx t).gen.toNat == fld o.word 44 29 then s.completeOp (p.1 / 4096) (p.1 % 4096) o else s) s) s

/-- The linear number of a worker core (R47). -/
def linOf (core : Nat) : Nat := clOf core * 8 + slotOf core

/-- R437, R71: a `ctxstop` comes to a core: it asks for the pre-emption of the contexts that it stops on the core's cluster. -/
def State.stopOn (s : State) (ns : List Nat) (k : Nat) : State :=
  ns.foldl (fun (s : State) n =>
    let s := s.setCtx n { s.ctx n with stopUpTo := max (s.ctx n).stopUpTo (linOf k / 8 * 8 + 8) }
    if (s.cluster (clOf k)).preq.any fun p => p.ctx == n && p.byStop then s else s.requestPre (clOf k) n true) s

/-- What becomes of a block of a long operation: it is not yet complete, it is complete, or it was the last. -/
inductive Block | more | done | last
  deriving DecidableEq, Repr

/-- What a long operation's block finds at its part of the image. -/
inductive BlockPlace
  /-- It may go on, at a place. -/
  | at (s : State) (t : Target)
  /-- It waits. -/
  | waits
  /-- It asks for a host page, or its access is refused; it is not yet complete. -/
  | asks (s : State)
  /-- A check fails, and the block is passed over (DEDUCED, log 36). -/
  | fails

/-- R349: who asks for a host page that a block of a core's long operation reaches: no fibre is parked, and the block waits, asking again
after an answer that is none (DESIGN CHOICE, log 112). -/
def State.blockWho (s : State) (core ctx : Nat) : Who := { core := core, ctx := ctx, gen := (s.ctx ctx).gen, entry := 0, uid := 0 }

/-- The place of a block under the issuing context: it waits for copies that own its lines (R124), a write of table entries for the accesses
that they have admitted (R90). -/
def State.blockPlace (s : State) (core ctx : Nat) (a : DWord) (load : Bool) : BlockPlace :=
  match s.imagePlace core ctx a load with
  | .ok (s, t) =>
    if s.lineOwned s.fresh t 4096 || (!load && t.homed && s.admittedBy s.fresh t.flat 4096) then .waits else .at s t
  | .error (.hostMiss port page _ _) =>
    let h := s.host port
    let w := s.blockWho core ctx
    if (h.asking.any fun x => x.who == w && x.page == page) || h.recs.any fun r => r.page == page && r.joined.contains w then .waits
    else .asks (s.setHost port { h with asking := h.asking ++ [{ who := w, page := page }] })
  | .error (.isolated ch mpa) => .asks (s.machineCheck (s.partitionOf ctx) 2 0x0C ch (dw mpa) 0)
  | .error (.trap .hostpg _ _) => .waits
  | .error _ => .fails

/-- R437, R438: one block of a `ctxstop` on a target: a core of its node at a time. -/
def State.stopBlock (s : State) (t blk : Nat) : Option (State × Block) :=
  let c := s.ctx t
  let ns := (s.subtree t).filter fun n => (s.ctx n).stopping
  let cores := nodeCores c.order.toNat c.base.toNat
  match cores[blk]? with
  | some k =>
    if ((s.core k).res.map ns.contains).getD false then
      if (s.cluster (clOf k)).preq.any fun p => p.byStop && (s.core k).res == some p.ctx then none else some (s.stopOn ns k, .more)
    else if blk + 1 < cores.length then some (s.stopOn ns k, .done)
    else
      let s := ns.foldl (fun (s : State) n =>
        s.setCtx n { s.ctx n with st := .stopped, stopping := false, stoppedBy := some t }) s
      let s := (s.subtree t).foldl (fun (s : State) n =>
        if ((s.ctx n).stoppedBy.map fun u => s.isBelow t u).getD false then s.setCtx n { s.ctx n with stoppedBy := some t } else s) s
      some (s.setCtx t { s.ctx t with busy := false, stoppedBy := none }, .last)
  | none => some (s, .last)

/-- R219: one block of a `ctxsave` (`load` false) or `ctxload` is moved; none while it waits, with false while it is not complete. -/
def State.moveBlock (s : State) (core ctx : Nat) (o : LongOp) (load : Bool) : Option (State × Bool) :=
  let t := fld o.word 56 45
  let blk := fld o.word 28 0
  match s.blockPlace core ctx (o.image + dw (4096 * blk)) load with
  | .waits => none
  | .asks s => some (s, false)
  | .fails => some (s, true)
  | .at s tg =>
    if load then
      some ((s.blockParts t blk).foldl (fun s p =>
        s.loadSeg p.1 p.2.1 (s.readTarget (s.primaryWho core ctx) (.mem (tg.place + p.2.2.1)) p.2.2.2)) s, true)
    else
      some ((s.blockParts t blk).foldl (fun s p => s.writeTarget ctx (.mem (tg.place + p.2.2.1)) (s.segBytes t p.1 p.2.1 p.2.2.2))
        (if tg.homed then (List.range 32).foldl (fun s k => { s.seenBy true none (tg.flat + 128 * k) with fresh := s.fresh + 1 }) s else s), true)

/-- R69: what came for contexts while they were Saved follows their parked buffers. -/
def State.unkeep (s : State) : State :=
  { s with imgs := s.imgs.map fun p => (p.1, if p.2.kept.isEmpty || (s.ctx (p.1 % 4096)).st == .saved then p.2
                                             else { p.2 with parked := p.2.parked ++ p.2.kept, kept := [] }) }

/-- R219: a `ctxsave` or `ctxload` ends: its target is Saved, or Stopped, with its subtree. -/
def State.endImage (s : State) (t : Nat) (load : Bool) : State :=
  let by' := (s.ctx t).savedBy
  ((s.subtree t).foldl (fun (s : State) n =>
    let k := s.ctx n
    if load then (if k.st = .saved ∧ k.savedBy = by' then s.setCtx n { k with st := .stopped, savedBy := none } else s)
    else if k.st = .stopped then s.setCtx n { k with st := .saved, savedBy := some t } else s) s).unkeep.setBusy t false

/-- One block of a long operation of a core's issuing context: the state and what became of it; none while the block must wait. -/
def State.opBlock (s : State) (core ctx : Nat) (o : LongOp) : Option (State × Block) :=
  let t := fld o.word 56 45
  let blk := fld o.word 28 0
  let image (load : Bool) : Option (State × Block) :=
    match s.moveBlock core ctx o load with
    | none => none
    | some (s, false) => some (s, .more)
    | some (s, true) => if blk + 1 < s.imageBlocks t then some (s, .done) else some (s.endImage t load, .last)
  match fld o.word 62 60 with
  | 1 => s.stopBlock t blk
  | 2 => image false
  | 3 => image true
  | 4 =>
    let ns := s.revokedBelow t
    let s1 := match ns[blk]? with
      | some n => s.returnOne ctx n
      | none => s
    if blk + 1 < ns.length then some (s1, .done) else some ((s1.completeRevoked ns).freeNumbers ns, .last)
  | _ => some (s, .last)

/-- R473: an access that the tables of revoked contexts have admitted is not yet performed: a store that its home has granted (R470). -/
def State.purging (s : State) (ns : List Nat) : Bool := s.stores.any fun p => ns.contains p.2.who.ctx && !p.2.stale.isEmpty

/-- R437: one block of one long operation of a core's issuing context; one whose target a revocation has ended waits for it
(R220), and one whose target is gone ends. -/
def State.longStepOf (s : State) (core ctx : Nat) (o : LongOp) : Option State :=
  let t := fld o.word 56 45
  if !((s.ctx t).gen.toNat == fld o.word 44 29 && s.isBelow t ctx) then some (s.completeOp core ctx o)
  else if fld o.word 62 60 ≠ 4 ∧ !s.isLive t then none
  else if fld o.word 62 60 = 4 ∧ s.purging (s.revokedBelow t) then none
  else match s.opBlock core ctx o with
    | none => none
    | some (s, .more) => some s
    | some (s, .last) => some (s.completeOp core ctx o)
    | some (s, .done) =>
      let i := s.img core ctx
      some (s.setImg core ctx { i with ops := i.ops.map fun x => if x = o then { x with word := x.word + 1 } else x })

/-- R437: one block of the first long operation of a core that can go on. -/
def State.longStep (s : State) (core : Nat) : Option State :=
  match s.issuing core with
  | none => none
  | some ctx => (s.img core ctx).ops.findSome? fun o => s.longStepOf core ctx o

end Sys2Proof.Machine
end

