-- ==== Sys2Proof/Machine/EvSched.lean ====
section
/-! DEFINITION. The steps of dispatchers (R316 to R329, R392), residency (R71, R72, R77, R329), the time base (R10, R330, R344),
power states and throttling (R38 to R41, R481). -/
namespace Sys2Proof.Machine

/-! ### Launch records at the head of their queues (R392) -/

/-- The address at the head of a context's launch queue. -/
def State.headAddr (s : State) (ctx : Nat) : Option DWord :=
  match tget s.queues (s.ctx ctx).lq with
  | some q => if q.count = 0 then none else some (dw (ofBytes (s.getBytes (q.slot q.h) 8)))
  | none => none

/-- The head record of a context, once it has been read. -/
def State.headLaunch (s : State) (ctx : Nat) : Option (Nat × Launch) := s.launches.find? fun l => l.2.ctx == ctx && !l.2.started

/-- R320: a record leaves the head of its queue; a context whose queue is empty leaves its FIFO. `tail`: a record has
started, and the context goes to the tail (R321). -/
def State.popLaunch (s : State) (ctx : Nat) (tail : Bool) : State :=
  let s := match s.dequeue (s.ctx ctx).lq with
    | some (_, s) => s
    | none => s
  let out := s.launchFifo.filter (· != ctx)
  { s with launchFifo := if (s.headAddr ctx).isNone then out else if tail then out ++ [ctx] else s.launchFifo }

/-- R392: the place of a record that its owner may read and write, none when a check fails; the state after its translations, which mark the
entries that they use (R82). -/
def State.recordPlace (s : State) (ctx : Nat) (a : DWord) : State × Option Nat :=
  if classify a != .paged || a.toNat % 64 != 0 then (s, none)
  else match s.translated ctx none a AccKind.load.right false with
    | .error _ => (s.markAccessed ctx none a, none)
    | .ok (s, t, _) => match s.translated ctx none (a + 56) AccKind.store.right true with
      | .ok _ => (s, some t.place)
      | .error _ => (s.markAccessed ctx none (a + 56), none)

/-- R318, R496: a completion address that a record may name. -/
def State.doneUsable (s : State) (ctx : Nat) (done : DWord) : Bool :=
  done == 0 || match classify done with
    | .onchip _ _ => match s.fillWord 0 ctx done 1 with
      | .ok _ => true
      | .error _ => false
    | _ => false

/-- A dword of a record (R317). -/
def recordDword (s : State) (ctx a i : Nat) : DWord := dw (s.readAs ctx none (a + 8 * i) 8)

/-- R392: the record breaks no rule of R317 and R318. -/
def State.recordOk (s : State) (ctx a : Nat) : Bool :=
  let d3 := recordDword s ctx a 3
  fld d3 35 8 == 0 && fld d3 6 6 == 0 && recordDword s ctx a 5 == 0 && recordDword s ctx a 6 == 0 && fld d3 63 52 == ctx &&
  fld d3 51 36 == (s.ctx ctx).gen.toNat && decide (fld d3 3 0 ≤ (s.ctx ctx).order.toNat) && s.doneUsable ctx (recordDword s ctx a 4)

/-- The record at a place, as the dispatcher holds it. -/
def State.recordOf (s : State) (ctx a : Nat) (addr : DWord) : Launch :=
  let d3 := recordDword s ctx a 3
  let place := recordDword s ctx a 2
  { ctx := ctx, gen := (s.ctx ctx).gen, addr := addr, entry := recordDword s ctx a 0, arg := recordDword s ctx a 1, place := place,
    wide := d3.getLsbD 7, level := BitVec.ofNat 2 (fld d3 5 4), order := fld d3 3 0, done := recordDword s ctx a 4,
    quad := s.targetCluster ctx place / 16, seq := s.fresh }

/-- R82: the translation of a placement address has used its entry. -/
def State.placeUsed (s : State) (ctx : Nat) (place : DWord) : State :=
  if place = 0 ∨ classify place ≠ .paged then s
  else match s.translated ctx (s.placeDie ctx) place AccKind.load.right false with
    | .ok r => r.1
    | .error _ => s.markAccessed ctx (s.placeDie ctx) place

/-- R392: the record at the head of a context's queue is read; a bad address is dropped, a bad record refused. -/
def State.readHead (s : State) (ctx : Nat) (addr : DWord) : State :=
  match s.recordPlace ctx addr with
  | (s, none) => (s.launchPacket ((s.ctx ctx).base.toNat / 128) ctx addr addr).popLaunch ctx false
  | (s, some a) =>
    let l := s.recordOf ctx a addr
    if s.recordOk ctx a then { (s.placeUsed ctx l.place) with launches := tset s.launches s.fresh l, fresh := s.fresh + 1 }
    else
      let s := s.writeStatus l 4 (s.doneUsable ctx l.done)
      (s.launchPacket l.quad ctx 0 addr).popLaunch ctx false

/-- R392: a context whose records the dispatchers read, whether or not they place them (R318): any that is not revoked. -/
def State.launchable (s : State) (ctx : Nat) : Bool := s.isLive ctx

/-- R124: a copy owns the line of the element at the head of a launch queue, or the line of the record that it names. -/
def State.headWaits (s : State) (ctx : Nat) : Bool :=
  s.headOwned (s.ctx ctx).lq false || match (s.headAddr ctx).map (s.recordPlace ctx) with
    | some (s, some a) => s.lineOwned s.fresh (.mem a) 64
    | _ => false

/-- Read the heads of a context's queue until one waits to be placed. -/
def State.readHeads (s : State) (ctx : Nat) : Nat → State
  | 0 => s
  | n + 1 =>
    if (s.headLaunch ctx).isSome || !s.launchable ctx || s.headWaits ctx then s
    else match s.headAddr ctx with
      | some a => (s.readHead ctx a).readHeads ctx n
      | none => s

/-- A context with a head record that no dispatcher has read. -/
def State.unread (s : State) (ctx : Nat) : Bool :=
  (s.headLaunch ctx).isNone && s.launchable ctx && (s.headAddr ctx).isSome && !s.headWaits ctx

/-- The head records of all contexts in the FIFOs are read (DEDUCED, log 20). -/
def State.readAll (s : State) : State :=
  s.launchFifo.foldl (fun s ctx =>
    match tget s.queues (s.ctx ctx).lq with
    | some q => s.readHeads ctx q.count
    | none => s) s

/-! ### Placement (R322 to R326) -/

/-- R324. -/
inductive CoreFor | free | preemptible | busy
  deriving DecidableEq, Repr

/-- R322: a hold of another record keeps a core from records of its priority or a lower one. -/
def State.heldFrom (s : State) (id prio core : Nat) : Bool :=
  s.quads.any fun q => match q.2.hold with
    | some h => h != id && match tget s.launches h with
      | some l => decide (prio ≤ (s.ctx l.ctx).prio.toNat) && (s.firstCandidate l l.order).contains core
      | none => false
    | none => false

/-- R324: a core for a record (DEDUCED, log 81). -/
def State.coreFor (s : State) (id : Nat) (l : Launch) (core : Nat) : CoreFor :=
  let c := s.core core
  let k := s.cluster (clOf core)
  let prio := (s.ctx l.ctx).prio.toNat
  let taken := match c.reserved with
    | some r => r != id
    | none => false
  if k.offline || s.dieFailed (dieOfCore core) || taken || s.heldFrom id prio core || ((s.img core l.ctx).fibre 0).st != .free then .busy
  else match c.res with
    | none => .free
    | some d =>
      if d = l.ctx then .free
      else if (s.ctx d).prio.toNat < prio ∨ s.contends d core = false then .preemptible
      else .busy

/-- Reserve cores for a record (R324). -/
def State.reserve (s : State) (id : Nat) (cores : List Nat) : State :=
  cores.foldl (fun s k => s.setCore k { s.core k with reserved := some id }) s

/-- R324, R71: pre-emption is requested on the clusters where cores that a record needs belong to other contexts. -/
def State.makeRoom (s : State) (l : Launch) (cores : List Nat) : State :=
  cores.foldl (fun s k =>
    match (s.core k).res with
    | some d => if d = l.ctx ∨ s.preempting (clOf k) d then s else s.requestPre (clOf k) d false
    | none => s) s

/-- R324: a record is placed on a node; cores that it holds outside it are released (R326). -/
def State.placeOn (s : State) (id : Nat) (l : Launch) (base : Nat) : State :=
  let cores := nodeCores l.order base
  let s := { s with cores := s.cores.map fun (c : Nat × Core) => (c.1, if c.2.reserved = some id then { c.2 with reserved := none } else c.2),
                    launches := tset s.launches id { l with placed := some base } }
  (s.reserve id cores).makeRoom l cores

/-- R326: the quadrants of a spanning node reserve its cores in ascending order; false when one refuses (DEDUCED, log 19). -/
def State.reserveSpan (s : State) (id : Nat) (l : Launch) : List Nat → State × Bool
  | [] => (s, true)
  | q :: qs =>
    let cores := (nodeCores 7 (q * 128))
    if cores.any fun k => s.coreFor id l k == .busy then (s, false) else (s.reserve id cores).reserveSpan id l qs

/-- R326: the first candidate of a spanning record whose quadrants all accept; what others reserved stays. -/
def State.trySpan (s : State) (id : Nat) (l : Launch) : List Nat → State × Bool
  | [] => (s, false)
  | b :: bs =>
    let qs := (List.range (2 ^ (l.order - 7))).map fun i => b / 128 + i
    match s.reserveSpan id l qs with
    | (s, true) => (s.placeOn id l b, true)
    | (s, false) => s.trySpan id l bs

/-- R324, R326: place a record if one of its candidates can be placed. -/
def State.tryPlace (s : State) (id : Nat) (l : Launch) : State × Bool :=
  let cs := candidates (s.ctx l.ctx) l.order (s.targetCluster l.ctx l.place * 8) l.wide
  if 8 ≤ l.order then s.trySpan id l cs
  else match cs.find? fun b => (nodeCores l.order b).all fun k => s.coreFor id l k != .busy with
    | some b => (s.placeOn id l b, true)
    | none => (s, false)

/-- R321: the waiting head records of a quadrant's dispatcher, priority 7 down, in the order of their FIFOs. -/
def State.waitingHeads (s : State) (quad : Nat) : List (Nat × Launch) :=
  let hs := s.launchFifo.filterMap fun ctx =>
    match s.headLaunch ctx with
    | some (id, l) => if l.quad = quad ∧ l.placed = none ∧ (s.ctx ctx).st = .running ∧ !(s.ctx ctx).stopping ∧ !(s.ctx ctx).pausing then some (id, l) else none
    | none => none
  sortBy (fun p => 7 - (s.ctx p.2.ctx).prio.toNat) hs

/-- R321: the first record that can be placed is placed. -/
def State.placeFirst (s : State) : List (Nat × Launch) → State × Bool
  | [] => (s, false)
  | p :: ps => match s.tryPlace p.1 p.2 with
    | (s, true) => (s, true)
    | (s, false) => s.placeFirst ps

/-- R322: the hold of a quadrant's dispatcher, given when there is none, or when its record has started or been dropped, to the oldest waiting
record of the highest priority (DEDUCED, log 57). -/
def State.giveHold (s : State) (quad : Nat) (ws : List (Nat × Launch)) : State :=
  let q := s.quad quad
  let live := match q.hold with
    | some h => match tget s.launches h with
      | some l => !l.started
      | none => false
    | none => false
  if live then s
  else
    let key (p : Nat × Launch) : Nat := (7 - (s.ctx p.2.ctx).prio.toNat) * 2 ^ 64 + p.2.seq
    let new := ((sortBy key ws).head?).map Prod.fst
    if q.hold = none ∧ new = none then s else s.setQuad quad { q with hold := new }

/-- R328: pre-emption is requested wherever a context of a quadrant must give way. -/
def State.yieldAll (s : State) (quad : Nat) : State :=
  (s.cores.map Prod.fst).foldl (fun s k =>
    match (s.core k).res with
    | some n => if quadOf k = quad ∧ s.mustYield k ∧ !s.preempting (clOf k) n then s.requestPre (clOf k) n false else s
    | none => s) s

/-- The dispatcher of a quadrant has something to do: a head to read, a context that must give way, a record to place or to
hold for. -/
def State.dispatches (s : State) (quad : Nat) : Bool :=
  s.launchFifo.any s.unread ||
  s.cores.any (fun c => quadOf c.1 == quad && s.mustYield c.1 && (c.2.res.map fun n => !s.preempting (clOf c.1) n).getD false) ||
  !(s.waitingHeads quad).isEmpty || !(s.lateReady quad).isEmpty

/-- DISPATCHER_STEP (R321). A hold passes on before a record is placed, and is given after to a record that was not (R322). -/
def evDispatcherStep (quad : Nat) (s : State) : Option State :=
  if !s.dispatches quad then none
  else
    let s := (s.putLate quad).readAll
    let ws := s.waitingHeads quad
    let s := if (s.quad quad).hold.isSome then s.giveHold quad ws else s
    let s := (s.placeFirst ws).1
    some ((s.giveHold quad (s.waitingHeads quad)).yieldAll quad)

/-! ### The start of a crew (R54, R55, R325) -/

/-- R55: the state of a member on its core. -/
def Img.member (i : Img) (l : Launch) (id index uid : Nat) : Img :=
  let x : Vector DWord 32 := Vector.ofFn fun (k : Fin 32) =>
    if k.val = 1 then dw index else if k.val = 2 then dw (2 ^ l.order) else if k.val = 3 ∨ k.val = 28 then l.arg else 0
  { i with x := x, xfull := 0xFFFFFFFF, v := Vector.replicate 32 0, vfull := 0xFFFFFFFF, k := Vector.replicate 8 0,
           h := Vector.replicate 8 0, fmt := 0x7F3330, fctl := 0, fstatus := 0, lb := Vector.replicate 2 0,
           le := Vector.replicate 2 0, lc := Vector.replicate 2 0, streams := Vector.replicate 4 {}, rep := {}, atCkpt := none,
           rq := tset i.rq 0 { pc := l.entry, st := .ready, level := l.level, uid := uid, crew := some id } }

/-- R325: a placed crew may start: its context is resident on every core of its node, entry 0 free on all. -/
def State.crewReady (s : State) (l : Launch) (base : Nat) : Bool :=
  (s.ctx l.ctx).st == .running && !(s.ctx l.ctx).stopping && !(s.ctx l.ctx).pausing &&
  (nodeCores l.order base).all fun k =>
    (s.core k).res == some l.ctx && !s.closingOn (clOf k) l.ctx && ((s.img k l.ctx).fibre 0).st == .free

/-- R329: the slice of a context that the last tick made resident on a cluster where it has no fibre begins with its crew (DEDUCED, log 114). -/
def State.beginSlices (s : State) (ctx : Nat) (cores : List Nat) : State :=
  ((cores.map clOf).eraseDups.filter fun cl => (tget (s.cluster cl).slices ctx).any (fun t => t + 1 == s.tick) &&
      (s.residentOn cl ctx).all fun k => (s.img k ctx).rq.all fun f => f.2.st == .free).foldl
    (fun s cl => s.setCluster cl { s.cluster cl with slices := tset (s.cluster cl).slices ctx s.tick }) s

/-- R322: the hold of a record that starts passes on. -/
def State.passHold (s : State) (id : Nat) : State :=
  (s.quads.map Prod.fst).foldl (fun s q => if (s.quad q).hold = some id then s.giveHold q (s.waitingHeads q) else s) s

/-- CREW_START (R325): at a tick boundary every member starts in the same step, and the record's status is written (R319). -/
def evCrewStart (id : Nat) (s : State) : Option State :=
  match tget s.launches id with
  | some l =>
    match l.placed with
    | some base =>
      if !s.edge || l.started || !s.crewReady l base then none
      else
        let n := 2 ^ l.order
        let uid := s.fresh
        let s := s.beginSlices l.ctx (nodeCores l.order base)
        let s := { s with fresh := s.fresh + n, launches := tset s.launches id { l with started := true, live := n } }
        let s := (List.range n).foldl (fun s j =>
          let k := coreAt ((base + j) / 8) ((base + j) % 8)
          (s.setImg k l.ctx ((s.img k l.ctx).member l id j (uid + j))).setCore k { s.core k with reserved := none }) s
        some (((s.writeStatus l 1).popLaunch l.ctx true).passHold id)
    | none => none
  | none => none

/-! ### Slices, deadlines, resumption (R72, R77, R329) -/

/-- R329: a slice that has run its length. -/
def State.sliceOver (s : State) (cl ctx : Nat) : Bool :=
  (tget (s.cluster cl).slices ctx).any fun t =>
    (s.ctx ctx).slice != 0 && decide (t + (s.ctx ctx).slice.toNat ≤ s.tick) && !(s.residentOn cl ctx).isEmpty && !s.preempting cl ctx

/-- TIME_SLICE_EXPIRY (R329). -/
def evTimeSliceExpiry (cl ctx : Nat) (s : State) : Option State :=
  if !s.sliceOver cl ctx then none
  else
    let k := s.cluster cl
    let c := s.ctx ctx
    let rival := (s.cageCores c cl).any fun core => (s.contenders core).any fun m => m != ctx && (s.ctx m).prio == c.prio
    if rival then some ((s.setCluster cl { k with slices := tdel k.slices ctx }).requestPre cl ctx false)
    else some (s.setCluster cl { k with slices := tset k.slices ctx s.tick })

/-- CHECKPOINT_DEADLINE_EXPIRY (R72). -/
def evCheckpointDeadlineExpiry (cl ctx : Nat) (s : State) : Option State :=
  if s.deadlineMet cl ctx then some (s.startClose cl { ctx := ctx, cause := 2, table := 0 }) else none

/-- CONTEXT_RESUME (R77). -/
def evContextResume (cl ctx : Nat) (s : State) : Option State :=
  if (s.takeable cl ctx).isEmpty || s.closingOn cl ctx then none else some (s.resume cl ctx)

/-- LONG_OP_BLOCK (R437). -/
def evLongOpBlock (core : Nat) (s : State) : Option State := s.longStep core

/-! ### The time base (R10, R175, R330, R344, R481) -/

/-- R175: how far CYCLE goes in a tick, in fifths of a period: at least as far as it was seen to. -/
def Die.advance (d : Die) : Nat := max d.rate d.phase

/-- The core-clock periods of a die in the tick that ends (R330). -/
def Die.cyclesIn (d : Die) : Nat := (d.cyc + d.advance) / 5 - d.cyc / 5

/-- R330, R344: a context resident on a worker core in a tick (DEDUCED, log 21). -/
def State.chargeTick (s : State) (core ctx : Nat) : State :=
  let lost := 12 - (s.dieOf (dieOfCore core)).cyclesIn
  let s := if lost = 0 then s else s.setCtx ctx { s.ctx ctx with thr := (s.ctx ctx).thr + BitVec.ofNat 63 lost }
  match s.charged ctx with
  | some m => if (s.ctx m).budget = 0 then s else s.setCtx m { s.ctx m with budget := (s.ctx m).budget - 1 }
  | none => s

/-- A die's clock and throttle block at the end of a tick. -/
def Die.ticked (d : Die) : Die :=
  { d with cyc := d.cyc + d.advance, phase := 0, thtick := if d.level = 0 then d.thtick else d.thtick + 1 }

/-! ### Power states (R39 to R41) -/

/-- A core has a ready fibre, or a stop to finish. -/
def State.coreBusy (s : State) (core : Nat) : Bool :=
  match (s.core core).res with
  | some ctx => (s.img core ctx).rq.any (fun p => p.2.st == .ready) || s.closingOn (clOf core) ctx || (s.img core ctx).rep.running
  | none => false

/-- R41: a raw-frame ingress port delivers to a cluster. -/
def State.ingressTo (s : State) (cl : Nat) : Bool := s.ports.any fun p => p.2.ing[0].getLsbD 63 && fld p.2.ing[0] 47 32 / 128 == cl

/-- R39, R41, R325: a cluster that may go to retention. -/
def State.clusterIdle (s : State) (cl : Nat) : Bool :=
  (s.cluster cl).mreqs.isEmpty && !s.copies.any (fun p => p.2.cl == some cl) &&
  (coresIn cl).all (fun k => (s.core k).power == .gated && (s.core k).reserved.isNone) &&
  !s.ingressTo cl

/-- The clusters of a partition on a die. -/
def State.partQuads (s : State) (n d : Nat) : List Nat :=
  ((nodeClusters (s.ctx n)).filter fun cl => cl / 64 == d).map (· / 16) |>.eraseDups

/-- R39: a die may be parked. -/
def State.dieIdle (s : State) (d : Nat) : Bool :=
  (s.ctxs.map Prod.fst).any fun n =>
    s.isLive n && (s.ctx n).part && decide (200000 ≤ (s.ctx n).ltol.toNat) &&
    !(s.partQuads n d).isEmpty && (s.partQuads n d).all (fun q => (s.quad q).power == .deep) &&
    (List.range 64).all fun i => (s.ctx n).chmap.getLsbD (64 * d + i) && (s.ctx n).dmask.getLsbD d

/-- POWER_STATE_ENTRY (R39). -/
def evPowerStateEntry (part : Part) (s : State) : Option State :=
  match part with
  | .core n =>
    let c := s.core n
    if c.power == .active && !s.coreBusy n && decide (2 ≤ s.tolerance (clOf n)) then some (s.setCore n { c with power := .gated }) else none
  | .cluster n =>
    let c := s.cluster n
    if c.power == .active && s.clusterIdle n && decide (200 ≤ s.tolerance n) then some (s.setCluster n { c with power := .retention }) else none
  | .quad n =>
    let q := s.quad n
    if q.power == .active && (clustersIn n).all (fun cl => (s.cluster cl).power == .retention && decide (5000 ≤ s.tolerance cl) && !s.ingressTo cl) then
      some { s.setQuad n { q with power := .deep } with
        clusters := s.clusters.map fun c => (c.1, if c.1 / 16 = n then { c.2 with icache := [] } else c.2) }
    else none
  | .die n =>
    let d := s.dieOf n
    if d.power == .active && s.dieIdle n then some (s.setDie n { d with power := .parked }) else none

/-- R39: the wake time of a core, in ticks, from the deepest state of the parts that hold it. -/
def State.wakeTicks (s : State) (core : Nat) : Nat :=
  if (s.dieOf (dieOfCore core)).power = .parked then 200000
  else if (s.quad (quadOf core)).power = .deep then 5000
  else if (s.cluster (clOf core)).power = .retention then 200 else 2

/-- R40: a core that is not Active and that something calls. -/
def State.called (s : State) (core : Nat) : Bool := (s.core core).power != .active && s.coreBusy core

/-- R40: the time by which a called core is Active is set when it is first called. -/
def State.callCores (s : State) : State :=
  { s with cores := s.cores.map fun c =>
      if s.called c.1 && c.2.wakeBy.isNone then (c.1, { c.2 with wakeBy := some (s.tick + s.wakeTicks c.1) }) else c }

/-- A called core must be Active before the tick ends. -/
def State.wakeDue (s : State) : Bool := s.cores.any fun c => s.called c.1 && (match c.2.wakeBy with
  | some t => decide (t ≤ s.tick)
  | none => false)

/-- The parts whose power states change of themselves: the cores, clusters, quadrants and dies of partitions with a tolerance. -/
def State.powerParts (s : State) : List Part :=
  let cls := ((s.ctxs.filter fun c => s.isLive c.1 && c.2.part && decide (2 ≤ c.2.ltol.toNat)).flatMap fun c => nodeClusters c.2).eraseDups
  (cls.flatMap fun cl => (coresIn cl).map Part.core) ++ cls.map Part.cluster ++ (cls.map (· / 16)).eraseDups.map Part.quad ++
    (cls.map (· / 64)).eraseDups.map Part.die

/-- WAKE_EVENT (R40): a part, and every part that holds it, is Active. -/
def evWakeEvent (part : Part) (s : State) : Option State :=
  match part with
  | .core n => if (s.core n).power == .active then none else some (s.wakeCore n)
  | .cluster n => if (s.cluster n).power == .active then none else some (s.wakeCluster n)
  | .quad n =>
    if (s.quad n).power == .active then none
    else some ((s.setQuad n { s.quad n with power := .active }).setDie (n / 4) { s.dieOf (n / 4) with power := .active })
  | .die n => if (s.dieOf n).power == .active then none else some (s.setDie n { s.dieOf n with power := .active })

/-! ### The slots of an ingress port (R353, R354) -/

/-- The parts of an ingest block. -/
def ingLid (v : Vector DWord 4) : Nat := fld v[0] 47 32
def ingSlot (v : Vector DWord 4) : Nat := 2 ^ fld v[0] 51 48
def ingRing (v : Vector DWord 4) : Nat := fld v[1] 51 32
def ingSlots (v : Vector DWord 4) : Nat := fld v[1] 15 0
def ingFill (v : Vector DWord 4) : Nat := fld v[2] 15 0 * 16
def ingOwner (v : Vector DWord 4) : DWord := dw (fld v[3] 31 0)

/-- R354: the number of the next frame, and the count of frames delivered or discarded. -/
def Port.seq (p : Port) : Nat := fld p.ing[3] 63 32
def Port.bump (p : Port) : Port := { p with ing := p.ing.set 3 (setFld p.ing[3] 63 32 (p.seq + 1)) }

/-- R472: the owner of a port runs. -/
def State.ingestRuns (s : State) (p : Port) : Bool :=
  match s.named (ingOwner p.ing) with
  | some c => (s.ctx c).st == .running
  | none => false

/-- R354: the place of the slot of a frame; its number wraps at 2^32 before it is taken mod nslots (DESIGN CHOICE, log 111). -/
def frameSlot (v : Vector DWord 4) (f : Frame) : Nat := spadPlace (ingLid v / 128) (ingRing v + f.seq.toNat % ingSlots v * ingSlot v)

/-- R354, R467: the bytes of a frame that its slot takes. -/
def frameBytes (v : Vector DWord 4) (f : Frame) : Bytes := f.data.take (ingSlot v - 16)

/-- R355: a frame is written in this tick, and not later, though a copy owns a line of its slot (DEDUCED, log 115). -/
def State.frameDue (s : State) (p : Port) : Bool := p.frames.head?.any fun f => decide (f.tick + 38 ≤ s.tick)

/-! ### The end of a tick (R10) -/

/-- R233, R355, R40, R329: what must come about within the tick that ends: updates of fill words, deliveries of frames, cores that wake,
slices that end. -/
def State.tickHeld (s : State) : Bool :=
  s.wakeDue || s.clusters.any (fun c => c.2.slices.any fun x => s.sliceOver c.1 x.1) || s.clusters.any (fun c => !(c.2.fills.isEmpty && c.2.advanced.isEmpty)) || s.ports.any fun p => s.frameDue p.2

/-- TIME_BASE_TICK (R10) (DESIGN CHOICE, log 84). -/
def evTimeBaseTick (s : State) : Option State :=
  if s.tickHeld then none else
  let s := s.callCores
  let s := s.cores.foldl (fun s c =>
    match c.2.res with
    | some ctx => if slotOf c.1 = 8 then s else s.chargeTick c.1 ctx
    | none => s) s
  let s := (List.range s.dies).foldl (fun s d => s.setDie d (s.dieOf d).ticked) s
  some { s with tick := s.tick + 1, edge := true }

/-! ### Throttling (R38, R481) -/

/-- THROTTLE_SIGNAL (R38). -/
def evThrottleSignal (die : Nat) (cause : BitVec 8) (target : BitVec 4) (s : State) : Option State :=
  if die < s.dies ∧ cause.toNat ≤ 3 then some (s.setDie die { s.dieOf die with cause := cause, target := target }) else none

/-- R481: a rise from step 0 writes a record, at most one for each die in 1 000 000 ticks. -/
def State.throttleRec (s : State) (die : Nat) : State :=
  let d := s.dieOf die
  let due := match d.lastRec with
    | some t => decide (t + 1000000 ≤ s.tick)
    | none => true
  if d.level == 0 && due then (s.setDie die { d with lastRec := some s.tick }).logRec 0 0x13 die 0 0 0 0 else s

/-- THROTTLE_STEP (R481): a die's clock moves one step towards what the module's controller asks. -/
def evThrottleStep (die : Nat) (s : State) : Option State :=
  let d := s.dieOf die
  if s.dies ≤ die ∨ d.level = d.target then none
  else if d.level.toNat < d.target.toNat then
    let s := s.throttleRec die
    some (s.setDie die { s.dieOf die with level := d.level + 1 })
  else some (s.setDie die { d with level := d.level - 1 })

end Sys2Proof.Machine
end

