-- ==== Sys2Proof/Machine/EvFault.lean ====
section
/-! DEFINITION. The steps of overmen and of the error log: fault packets (R385), the accept table (R388), debug areas (R389,
R390), and the log (R397). -/
namespace Sys2Proof.Machine

/-! ### Fault packets (R385) -/

/-- R382: the dwords of a packet, with the context whose queue takes it. -/
def State.packetDwords (s : State) (p : Packet) (ctx : Nat) : List DWord :=
  [p.ctx, p.d1, p.pc, p.d3, p.addr, p.extra, p.d6,
   dw (ctx * 2 ^ 52 + (s.ctx ctx).gen.toNat * 2 ^ 36 + p.refl.toNat * 2 ^ 32 + p.d7.toNat)]

/-- A queue has 8 free elements, in lines that no copy owns (R124). -/
def State.roomFor8 (s : State) (qid : Nat) : Bool :=
  match tget s.queues qid with
  | some q => decide (q.count + 8 ≤ 2 ^ q.cap) && !s.ringOwned qid q.t 8
  | none => false

/-- The first packet whose queue has room, and the others (DEDUCED, log 80). -/
def takePacket (s : State) : List (Nat × Nat × Packet) → Option ((Nat × Nat × Packet) × List (Nat × Nat × Packet))
  | [] => none
  | w :: ws => if s.roomFor8 w.1 then some (w, ws) else (takePacket s ws).map fun r => (r.1, w :: r.2)

/-- FAULT_PACKET_ENQUEUE (R385): the oldest packet that waits for a queue with room enters it whole, and the overman takes what cores have
kept for want of its space. -/
def evFaultPacketEnqueue (quad : Nat) (s : State) : Option State :=
  let q := s.quad quad
  (takePacket s q.waiting).map fun r =>
    ((s.packetDwords r.1.2.2 r.1.2.1).foldl (fun s d => (s.enqueue r.1.1 d).getD s) (s.setQuad quad { q with waiting := r.2 })).takeKept quad

/-! ### Stores to an overman's window (R388, R389) -/

/-- A store to an overman's window that may be performed: its quadrant, offset and dword. -/
def State.overmanStore (s : State) (id : Nat) : Option (PStore × Nat × Nat × DWord) :=
  match tget s.stores id with
  | some p =>
    match p.t, p.op with
    | .overman quad off, .bytes bs => if p.granted || s.storeHeld id p then none else some (p, quad, off, dw (ofBytes bs))
    | _, _ => none
  | none => none

/-- The store is performed. -/
def State.performed (s : State) (id : Nat) (p : PStore) : State :=
  { s with stores := tset s.stores id { p with granted := true, gord := s.fresh }, fresh := s.fresh + 1 }

/-- ACCEPT_TABLE_WRITE (R384, R388): one table, seen through every window. -/
def evAcceptTableWrite (id : Nat) (s : State) : Option State :=
  match s.overmanStore id with
  | some (p, _, off, v) =>
    if off < 0x8000 then
      let s := s.performed id p
      let n := off / 8
      some (if s.isLive n then s.setCtx n { s.ctx n with accept := v } else s)
    else none
  | none => none

/-- R389: a command's core, operation and entry. -/
def State.debugCommand (s : State) (id op : Nat) : Option (PStore × Nat × Nat) :=
  match s.overmanStore id with
  | some (p, quad, off, v) =>
    if off < 0x8000 then none
    else
      let (core, o) := debugCore quad off
      if o = 0x8808 ∧ fld v 9 8 = op then some (p, core, fld v 7 0) else none
  | none => none

/-- R389, R390: the command's context, when it acts: the entry is frozen and not already being retired. -/
def State.commandOn (s : State) (issuer core entry : Nat) : Option Nat :=
  match s.debugView core issuer with
  | some n =>
    let f := (s.img core n).fibre entry
    if f.st == .frozen && !f.retiring then some n else none
  | none => none

/-- R389: whether the last command or mirror write had an effect. -/
def State.setRefused (s : State) (core : Nat) (b : Bool) : State := s.setCore core { s.core core with refused := b }

/-- DEBUG_RELEASE (R389): a frozen entry becomes ready. -/
def evDebugRelease (id : Nat) (s : State) : Option State :=
  match s.debugCommand id 1 with
  | some (p, core, e) =>
    let s := s.performed id p
    some (match s.commandOn p.who.ctx core e with
      | some n => (s.setRefused core false).release core n e
      | none => s.setRefused core true)
  | none => none

/-- R206, R389: a retired entry frees, with the effects of `exit`. -/
def State.retireEntry (s : State) (core ctx e : Nat) : State :=
  let i := s.img core ctx
  let s := if e = 0 then s.setImg core ctx { i with rep := { i.rep with act := false, next := 0, left := 0, alone := false } } else s
  let s := s.retire core ctx e
  if e = 0 then s.checkStop (clOf core) ctx else s

/-- R389: while loads, pops or copies target its registers, a retired entry shows frozen, with wait 1. -/
def State.awaitRetire (s : State) (core ctx e r : Nat) : State :=
  let i := s.img core ctx
  s.setImg core ctx (i.setFibre e { i.fibre e with retiring := true, wait := 1, wop := BitVec.ofNat 8 r })

/-- DEBUG_RETIRE (R389). -/
def evDebugRetire (id : Nat) (s : State) : Option State :=
  match s.debugCommand id 2 with
  | some (p, core, e) =>
    let s := s.performed id p
    some (match s.commandOn p.who.ctx core e with
      | some n =>
        let s := s.setRefused core false
        match s.producer core n e with
        | some r => s.awaitRetire core n e r
        | none => s.retireEntry core n e
      | none => s.setRefused core true)
  | none => none

/-- RETIRED_ENTRY_FREE (R389): the last producer has landed. -/
def evRetiredEntryFree (core entry : Nat) (s : State) : Option State :=
  match s.imgs.find? fun p => p.1 / 4096 == core && (p.2.fibre entry).st == .frozen && (p.2.fibre entry).retiring &&
      (s.producer core (p.1 % 4096) entry).isNone with
  | some p => some (s.retireEntry core (p.1 % 4096) entry)
  | none => none

/-- DEBUG_MIRROR_WRITE (R389): a write of the mirror, of SEL, or of a command word that commands nothing (DEDUCED, log 75). -/
def evDebugMirrorWrite (id : Nat) (s : State) : Option State :=
  match s.overmanStore id with
  | some (p, quad, off, v) =>
    if off < 0x8000 then none
    else
      let (core, o) := debugCore quad off
      let op := fld v 9 8
      if o = 0x8808 ∧ (op = 1 ∨ op = 2) then none
      else
        let s := s.performed id p
        if o < 0x8800 then some (s.mirrorWrite p.who.ctx core o v)
        else if o = 0x8800 then some (s.setCore core { s.core core with sel := v.setWidth 32 &&& 0xFFFF0FFF })
        else some s
  | none => none

/-! ### The error log (R397) -/

/-- HELD_RECORD_FLUSH (R397): the oldest held record is written as space frees. -/
def evHeldRecordFlush (s : State) : Option State :=
  match s.log.held with
  | r :: rs => if s.log.unread < 1023 then some { s with log := { s.log with held := rs }.put r } else none
  | [] => none

/-- ELLOST_READ (R397): both counts are read and cleared. -/
def evEllostRead (s : State) : Option State :=
  if s.boot.mode ≠ 0 then none
  else
    let v := dw (s.log.lostOther.toNat * 2 ^ 32 + s.log.lostCorrected.toNat)
    some { s with log := { s.log with lostCorrected := 0, lostOther := 0 }, hostOut := [v] }

/-! ### Registers of the edges (R13) -/

/-- R347: the live context that a virtual function is bound to. -/
def State.bound (s : State) (vf : Nat) : Option Nat :=
  let b := (s.vf vf).bind
  if b.getLsbD 63 then s.named (b &&& 0xFFFFFFFF#64) else none

end Sys2Proof.Machine
end

