-- ==== Sys2Proof/Machine/EvReset.lean ====
section
/-! DEFINITION. Errors and resets: soft errors (R376 to R379), partition reset (R393, R394, R455), restart points (R395, R396,
R460), function-level reset (R471), start-up and recovery (R357, R475 to R482). -/
namespace Sys2Proof.Machine

/-! ### Sites of errors (R376, R377, R398) -/

/-- R377: the unit code of a site. -/
def siteUnit : Site → Nat
  | .core _ u _ => u.toNat
  | .spad _ _ => 0x08
  | .acc _ _ => 0x09
  | .cache _ _ _ => 0x06
  | .hbm _ _ u => u.toNat
  | .l2tags _ _ _ => 0x0C
  | .tier1 _ => 0x0F
  | .control _ _ => 0x0F
  | .shared _ u _ _ => u.toNat
  | .plb _ _ => 0x07
  | .flight _ u _ _ => u.toNat
  | .queue _ _ => 0x0D

/-- R398: loc. -/
def siteLoc : Site → Nat
  | .core n _ _ => lidOf n
  | .spad cl _ => cl * 128 + 80
  | .acc cl _ => cl * 128 + 72
  | .cache cl _ _ => cl * 128 + 80
  | .hbm ch _ _ => ch
  | .l2tags ch _ _ => ch
  | .shared d _ _ _ => overmanLid (4 * d)
  | .plb n _ => lidOf n
  | .flight loc _ _ _ => loc.toNat
  | _ => 0

/-- The partitions that have a core or a channel on a die (R376, R466). -/
def State.onDie (s : State) (d : Nat) : List Nat :=
  s.partitions.filter fun n => (nodeClusters (s.ctx n)).any (fun cl => cl / 64 == d) || (channelSet (s.ctx n)).any fun ch => ch / 64 == d

/-- The live contexts that hold a queue. -/
def State.queueOwners (s : State) (qid : Nat) : List Nat :=
  (s.ctxs.filter fun c => c.2.st != .revoked && (c.2.queues.contains qid || c.2.lq == qid || c.2.fq == some qid || c.2.dq == qid)).map Prod.fst

/-- R376: the context whose share holds a byte of a scratchpad: of those that it lies in, the one deepest in its tree. -/
def State.shareHolder (s : State) (cl off : Nat) : Option Nat :=
  let ns := (s.ctxs.map Prod.fst).filter fun n => s.isLive n && inShare (s.ctx n) cl off 1
  let top := ns.foldl (fun m n => max m (s.ctx n).depth) 0
  ns.find? fun n => (s.ctx n).depth == top

/-- R376: the partitions that own the state at a site. -/
def State.owners (s : State) (e : Site) : List Nat :=
  let parts (ns : List Nat) : List Nat := (ns.map s.partitionOf).eraseDups
  match e with
  | .core n _ _ => match (s.core n).res with
    | some c => parts [c]
    | none => []
  | .spad cl off => match s.cageAt cl off with
    | some (_, c, _) => parts [c]
    | none => parts (s.shareHolder cl off).toList
  | .acc cl _ => match s.holder cl with
    | some c => parts [c]
    | none => []
  | .cache _ ch _ => s.partitions.filter fun n => (channelSet (s.ctx n)).contains ch
  | .hbm ch _ _ => s.partitions.filter fun n => (channelSet (s.ctx n)).contains ch
  | .l2tags _ set _ => s.partitions.filter fun n => set.any fun ch => (channelSet (s.ctx n)).contains ch
  | .tier1 a => parts ((s.ctxs.map Prod.fst).filter fun n => s.isLive n && (s.ctx n).ranges.any fun r =>
      decide (r.target.toNat ≤ 2 ^ 52 + a ∧ 2 ^ 52 + a < r.target.toNat + (r.limit.toNat - r.base.toNat)))
  | .control c _ => if s.isLive c then parts [c] else []
  | .shared d _ _ none => s.onDie d
  | .shared _ _ _ (some c) => if s.isLive c then parts [c] else []
  | .plb n _ => match (s.core n).res with
    | some c => parts [c]
    | none => []
  | .flight _ _ _ c => if s.isLive c then parts [c] else []
  | .queue q _ => parts (s.queueOwners q)

/-- R398: where. -/
def State.siteMpa (s : State) (e : Site) : Nat :=
  match e with
  | .spad _ off => off
  | .acc _ off => off
  | .cache _ ch off => match (s.owners e).head? with
    | some p => (mpaAt (s.ctx p) (hbmPlace ch off)).getD 0
    | none => 0
  | .hbm ch off _ => match (s.owners e).head? with
    | some p => (mpaAt (s.ctx p) (hbmPlace ch off)).getD 0
    | none => 0
  | .core _ _ w => w
  | .l2tags _ _ w => w
  | .control _ w => w
  | .shared _ _ w _ => w
  | .plb _ w => w
  | .flight _ _ w _ => w
  | .queue _ w => w
  | .tier1 a => 2 ^ 52 + a

/-- The word of memory at a site, with its length: of a data cache or an L2 the line, whose copy there is the only one that the error touches
(R393 step 3). -/
def sitePlace : Site → Option (Nat × Nat)
  | .spad cl off => some (spadPlace cl (off / 8 * 8), 8)
  | .acc cl off => some (accPlace cl (off / 8 * 8), 8)
  | .cache _ ch off => some (hbmPlace ch (off / 128 * 128), 128)
  | .hbm ch off u => some (if u = 0x0B then (hbmPlace ch (off / 128 * 128), 128) else (hbmPlace ch (off / 8 * 8), 8))
  | .tier1 a => some (a / 8 * 8, 8)
  | _ => none

/-- R379: the location that errors are counted at: a word, or any words of one core's units 0x01 to 0x04 (DEDUCED, log 65). -/
def siteKey : Site → Site
  | .core n u w => if u.toNat ≤ 4 then .core n 0 0 else .core n u w
  | .spad cl off => .spad cl (off / 8 * 8)
  | .acc cl off => .acc cl (off / 8 * 8)
  | .cache cl ch off => .cache cl ch (off / 8 * 8)
  | .hbm ch off u => .hbm ch (if u = 0x0E then off / 1024 * 1024 else off / 8 * 8) u
  | .tier1 a => .tier1 (a / 8 * 8)
  | e => e

/-- R379: the cluster that a hard location at a site fails: its cores, its matrix unit and its shared structures are in it. -/
def siteCluster : Site → Option Nat
  | .core n _ _ => some (clOf n)
  | .spad cl _ => some cl
  | .acc cl _ => some cl
  | .cache cl _ _ => some cl
  | .plb n _ => some (clOf n)
  | .flight loc _ _ _ => if bits loc.toNat 6 3 ≤ 10 then some (loc.toNat / 128) else none
  | _ => none

/-- R379: a location in SRAM. -/
def siteSram (e : Site) : Bool := (siteUnit e) != 0x0E && (siteUnit e) != 0x0F

/-- What is known of a site's location. -/
def State.hardLoc (s : State) (e : Site) : HardLoc := (s.hard.find? fun h => h.site == (siteKey e)).getD { site := (siteKey e), ticks := [] }

def State.setHardLoc (s : State) (h : HardLoc) : State := { s with hard := s.hard.filter (fun x => x.site != h.site) ++ [h] }

/-- R379: a hard location fails its cluster. -/
def State.markFailed (s : State) (e : Site) : State :=
  match (siteCluster e) with
  | some cl => s.setCluster cl { s.cluster cl with failed := true }
  | none => s

/-- R377: arrays whose good copy is fetched again. -/
def refetched (unit : Nat) : Bool := unit == 0x05 || unit == 0x07

/-- R377, R379: an error that its code corrects. A line of the instruction cache, which its number names, is fetched again. -/
def State.corrected (s : State) (e : Site) (syn : DWord := 0) : State :=
  let h := s.hardLoc e
  let ticks := (h.ticks.filter fun t => decide (s.tick < t + 2 ^ 30)) ++ [s.tick]
  let hard := h.hard || ((siteSram e) && decide (16 ≤ ticks.length))
  let new := hard && !h.hard
  let s := s.setHardLoc { h with ticks := ticks, count := h.count + 1, hard := hard }
  let s := if new then s.markFailed e else s
  let s := match e with
    | .core n u line => if u = 0x05 then s.setCluster (clOf n) { s.cluster (clOf n) with icache := tdel (s.cluster (clOf n)).icache line } else s
    | _ => s
  let ctx := match (s.owners e).head? with
    | some p => s.ctxid p
    | none => 0
  s.logRec (b2n new) (siteUnit e) (siteLoc e) (if refetched (siteUnit e) then 2 else 1) (dw (s.siteMpa e)) ctx syn 0 (h.count.toNat + 1)

/-- R379: a word at a location that has failed has been rewritten since. -/
def State.rewrittenAt (s : State) (h : HardLoc) : Bool := h.rewritten || h.places.any fun a => (lostAt s a.1).isNone

/-- R376, R379: an error that cannot be corrected: each owner is reset; state of no owner is rewritten with zero and logged. What no good copy
is held of is open until it is written (DEDUCED, log 64). -/
def State.uncorrectable (s : State) (e : Site) (syn : DWord := 0) : State :=
  let h := s.hardLoc e
  let again := h.failed && s.rewrittenAt h
  let new := again && !h.hard
  let s := s.setHardLoc { h with hard := h.hard || again, failed := true, rewritten := (s.owners e).isEmpty,
                                 places := (h.places.filter fun a => (lostAt s a.1).isSome) ++ (sitePlace e).toList }
  let s := if new then s.markFailed e else s
  match s.owners e with
  | [] =>
    let s := match (sitePlace e) with
      | some a => s.putBytes a.1 (List.replicate a.2 0)
      | none => s
    s.logRec 2 (siteUnit e) (siteLoc e) 0 (dw (s.siteMpa e)) 0 syn 0 h.count.toNat
  | ps =>
    let s := match (sitePlace e) with
      | some a => s.lose a.1 a.2
      | none => s
    ps.foldl (fun s p => s.machineCheck p 2 (siteUnit e) (siteLoc e) (dw (s.siteMpa e)) syn h.count.toNat) s

/-- R377: the arrays that a site may name. -/
def siteOk : Site → Bool
  | .core _ u _ => decide (1 ≤ u.toNat ∧ u.toNat ≤ 5) || u.toNat == 0x0A
  | .hbm _ _ u => u.toNat == 0x0B || u.toNat == 0x0E
  | .shared _ u _ _ => u.toNat == 0x07 || u.toNat == 0x0D || u.toNat == 0x10
  | .flight _ u _ _ => u.toNat == 0x0A || u.toNat == 0x0D || u.toNat == 0x10
  | _ => true

/-- SOFT_ERROR_DETECT (R377). -/
def evSoftErrorDetect (e : SoftError) (s : State) : Option State :=
  if e.good || !(siteOk e.site) then none
  else if e.corrected then some (s.corrected e.site e.syn)
  else if refetched (siteUnit e.site) then none
  else some (s.uncorrectable e.site e.syn)

/-- SCRUB_READ (R378): the scrubber reads a word; it corrects what it finds as an access would. -/
def evScrubRead (e : SoftError) (s : State) : Option State :=
  if !([0x08, 0x09, 0x0B, 0x0E, 0x0F] : List Nat).contains (siteUnit e.site) then none
  else if e.good then some s
  else evSoftErrorDetect e s

/-! ### Long operations whose issuer is reset (R474) -/

/-- R474: a revocation that its issuer no longer carries is carried to completion. -/
def State.finishRevoke (s : State) (core ctx : Nat) (o : LongOp) : Nat → State
  | 0 => s
  | n + 1 => match s.opBlock core ctx o with
    | some (s, .more) => s.finishRevoke core ctx o n
    | some (s, .done) => s.finishRevoke core ctx { o with word := o.word + 1 } n
    | some (s, .last) => s
    | none => s

/-- A context is one that another operation is stopping (R438). -/
def State.stoppedByOther (s : State) (o : LongOp) (n : Nat) : Bool :=
  s.imgs.any fun p => p.2.ops.any fun x => x != o && fld x.word 62 60 == 1 && (s.upFrom n).contains (fld x.word 56 45)

/-- R474: a `ctxstop`, `ctxsave` or `ctxload` is dropped; its target stays as it is, no longer busy. -/
def State.dropOp (s : State) (ns : List Nat) (o : LongOp) : State :=
  let t := fld o.word 56 45
  if ns.contains t || (s.ctx t).gen.toNat != fld o.word 44 29 || !s.isLive t then s
  else
    let s := s.setBusy t false
    if fld o.word 62 60 ≠ 1 then s
    else (s.subtree t).foldl (fun s n => if ns.contains n || s.stoppedByOther o n then s else s.setCtx n { s.ctx n with stopping := false }) s

/-- R474: the long operations of contexts that are reset; `drop`: those whose other operations are dropped. -/
def State.endOps (s : State) (ns drop : List Nat) : State :=
  s.imgs.foldl (fun s p =>
    let ctx := p.1 % 4096
    if !ns.contains ctx then s
    else p.2.ops.foldl (fun s o =>
      if fld o.word 62 60 = 4 then s.finishRevoke (p.1 / 4096) ctx o (s.ctxs.length + 1)
      else if drop.contains ctx then s.dropOp ns o else s) s) s

/-! ### Restart points (R395, R396, R460) -/

/-- R395: the root of a restart subtree. -/
def State.restartRoot (s : State) (n : Nat) : Bool :=
  s.isLive n && (s.ctx n).trest && (s.upFrom n).tail.all fun m => s.partitionOf m != s.partitionOf n || !(s.ctx m).trest

/-- The contexts of a restart subtree. -/
def State.restartSet (s : State) (n : Nat) : List Nat := (s.subtree n).filter fun m => s.partitionOf m == s.partitionOf n

/-- R460: nothing that owes a token event or a register value to some contexts is outstanding. -/
def State.settled (s : State) (ns : List Nat) : Bool :=
  !s.flights.any (fun p => ns.contains p.2.who.ctx) && !s.copies.any (fun p => ns.contains p.2.who.ctx) &&
  !s.msgs.any (fun p => ns.contains p.2.who.ctx) && !s.stores.any (fun p => ns.contains p.2.who.ctx && !p.2.granted) &&
  !s.hosts.any (fun h => h.2.asking.any (fun a => ns.contains a.who.ctx) || h.2.recs.any fun r => r.joined.any fun w => ns.contains w.ctx) &&
  s.clusters.all fun c => c.2.fills.isEmpty && !c.2.closing.any (fun x => ns.contains x.ctx) && ns.all fun n => s.quiet c.1 n

/-- R395 step 1: the running contexts of a subtree stop as a `ctxstop` would stop them: at their checkpoints, or at the deadline. -/
def State.pauseAll (s : State) (ns : List Nat) : State :=
  (ns.filter fun n => (s.ctx n).st == .running && !(s.ctx n).pausing).foldl (fun s n =>
    let s := s.releaseClaims n
    let s := s.setCtx n { s.ctx n with pausing := true }
    (nodeClusters (s.ctx n)).foldl (fun s cl => s.requestPre cl n true) s) s

/-- R395 step 4: they start again. -/
def State.unpause (s : State) (ns : List Nat) : State := ns.foldl (fun s n => s.setCtx n { s.ctx n with pausing := false }) s

/-- Some contexts are resident on no core. -/
def State.offCores (s : State) (ns : List Nat) : Bool := !s.cores.any fun c => (c.2.res.map ns.contains).getD false

/-- The MPA ranges of a context that a restart point keeps: its dirty-track ranges and its save area. -/
def restartMpas (c : Ctx) : List (Nat × Nat) :=
  let area := ((c.shlen.toNat * 4096 + 292 * 1024) * (nodeClusters c).length)
  (c.svarea.toNat, c.svarea.toNat + area) ::
    (c.ranges.filter Range.dt).map fun r => (r.target.toNat, r.target.toNat + (r.limit.toNat - r.base.toNat))

/-- The places of a context's share. -/
def sharePlaces (c : Ctx) : List (Nat × Nat) := (nodeClusters c).map fun cl => (spadPlace cl (shareOf c).1, spadPlace cl (shareOf c).2)

/-- A place lies in some ranges of places, or its MPA in some of MPAs. -/
def inRegion (c : Ctx) (places mpas : List (Nat × Nat)) (a : Nat) : Bool :=
  places.any (fun r => decide (r.1 ≤ a ∧ a < r.2)) ||
  (decide (a < 2 ^ 52) && (mpaAt c a).any fun m => mpas.any fun r => decide (r.1 ≤ m ∧ m < r.2))

/-- The restart point of a subtree whose contexts have stopped. -/
def State.pointOf (s : State) (n : Nat) (ns : List Nat) : RPoint :=
  let c := s.ctx n
  let places := ns.flatMap fun m => sharePlaces (s.ctx m)
  let mpas := ns.flatMap fun m => restartMpas (s.ctx m)
  { ctx := n, gen := c.gen, tick := s.tick, states := ns.map fun m => (m, (s.ctx m).st),
    imgs := s.imgs.filter fun p => ns.contains (p.1 % 4096), saves := s.saves.filter fun p => ns.contains (p.1 / 512),
    sems := s.sems.filter fun p => ns.contains (p.1 / 512), launches := s.launches.filter fun l => ns.contains l.2.ctx && l.2.started,
    places := places, mpas := mpas, bytes := s.mem.filter fun x => inRegion c places mpas x.1, lost := s.lost }

/-- R395: the restart interval of a partition, in ticks. -/
def State.interval (s : State) (part : Nat) : Nat := (tget s.rintervals part).getD 10000000

/-- R395: the area that the host has reserved holds the image of a subtree (DEDUCED, log 62). -/
def State.areaOf (s : State) (ctx : Nat) : Option (Nat × Nat) :=
  (tget s.rareas (s.partitionOf ctx)).filter fun a => decide (4096 * s.imageBlocks ctx ≤ a.2)

/-- R395, R396: a restart point of a subtree is due: the interval has passed, or the inbound log is full. -/
def State.pointDue (s : State) (ctx : Nat) : Bool :=
  match s.rpoints.find? fun (r : RPoint) => r.ctx == ctx && r.gen == (s.ctx ctx).gen with
  | some r => decide (r.tick + s.interval (s.partitionOf ctx) ≤ s.tick) || decide (4096 ≤ r.inbound.length)
  | none => decide (s.interval (s.partitionOf ctx) ≤ s.tick)

/-- RESTART_POINT (R395): a point that is due begins with the stop of its subtree, and is written when that has stopped and nothing is
owed to it (R460); services must run (R479). The image goes to the reserved area, whose bytes are open; what a point holds, with the
dirty-track ranges whole, is kept beside it (DEDUCED, log 62). -/
def evRestartPoint (ctx : Nat) (s : State) : Option State :=
  let ns := s.restartSet ctx
  match s.areaOf ctx with
  | none => none
  | some a =>
    if !s.restartRoot ctx || !s.pointDue ctx || (s.ctx 0).st != .running || ns.any (fun n => (s.ctx n).busy || (s.ctx n).stopping) then none
    else if ns.any fun n => (s.ctx n).st == .running && !(s.ctx n).pausing then some (s.pauseAll ns)
    else if s.offCores ns && s.settled ns then
      let t := s.lose (a.1 % 2 ^ 52) a.2
      some ({ t with rpoints := s.rpoints.filter (fun (r : RPoint) => r.ctx != ctx) ++ [s.pointOf ctx ns] }.unpause ns)
    else none

/-- The point that a restart subtree returns to: none when there is none yet, when its node holds an offline cluster (R394), or when the link
of a die of its partition is down (R466) (DEDUCED, log 63). -/
def State.restartOf (s : State) (n : Nat) : Option RPoint :=
  if s.restartRoot n && !(s.partDies n).any s.dieFailed && !(nodeClusters (s.ctx n)).any fun cl => (s.cluster cl).offline then
    s.rpoints.find? fun r => r.ctx == n && r.gen == (s.ctx n).gen
  else none

/-- The open ranges of a point, in its places and second-tier ranges. -/
def RPoint.lostIn (r : RPoint) : List LostRange :=
  let rs := r.places ++ (r.mpas.filter fun m => m.1.testBit 52).map fun m => (m.1 % 2 ^ 52, m.2 % 2 ^ 52)
  rs.flatMap fun x => r.lost.filterMap fun l =>
    if max l.lo x.1 < min l.hi x.2 then some { l with lo := max l.lo x.1, hi := min l.hi x.2 } else none

/-- R396: a message of the inbound log goes out again. -/
def State.redeliver (s : State) (m : MFlight) : State :=
  { s with fresh := s.fresh + 1
           msgs := tset s.msgs s.fresh { m with again := true, waitTill := none, resends := 0, flight := none, reserve := none, port := none } }

/-- R395: a restart subtree returns to its point; what was to reach its fill words is dropped (R459) (DEDUCED, log 46). -/
def State.restore (s : State) (r : RPoint) : State :=
  let c := s.ctx r.ctx
  let mine (n : Nat) : Bool := r.states.any fun x => x.1 == n
  let s := r.states.foldl (fun (s : State) x =>
    if s.isLive x.1 then s.setCtx x.1 { s.ctx x.1 with st := x.2, stopping := false, pausing := false, busy := false } else s) s
  let s := { s with
    imgs := r.imgs.foldl (fun t p => tset t p.1 p.2) (s.imgs.filter fun p => !mine (p.1 % 4096))
    saves := r.saves.foldl (fun t p => tset t p.1 p.2) (s.saves.filter fun p => !mine (p.1 / 512))
    sems := r.sems.foldl (fun t p => tset t p.1 p.2) (s.sems.filter fun p => !mine (p.1 / 512))
    launches := r.launches.foldl (fun t p => tset t p.1 p.2) (s.launches.filter fun l => !(mine l.2.ctx && l.2.started))
    mem := r.bytes.foldl (fun m x => cellSet m x.1 x.2) (s.mem.filter fun x => !inRegion c r.places r.mpas x.1)
    lost := (s.lost.filter fun l => !inRegion c r.places r.mpas l.lo) ++ r.lostIn }
  let s := r.states.foldl (fun (s : State) x => (nodeClusters (s.ctx x.1)).foldl (fun s cl => s.dropFills cl [shareOf (s.ctx x.1)]) s) s
  r.inbound.foldl State.redeliver s

/-! ### Partition reset (R393, R394) -/

/-- R27: the clusters of a partition that fail their self-test. -/
def State.selfTest (s : State) (p : Nat) (failed : List Nat) : State :=
  ((nodeClusters (s.ctx p)).filter failed.contains).foldl (fun s cl => s.setCluster cl { s.cluster cl with failed := true }) s

/-- R394: a failed cluster is replaced by its quadrant's spare, or stays offline. -/
def State.remap (s : State) (cl : Nat) : State :=
  let k := s.cluster cl
  let q := s.quad (cl / 16)
  if !k.failed || k.offline then s
  else if q.spareUsed then (s.setCluster cl { k with offline := true }).logRec 0 0 (cl * 128) 7 0 0 0
  else
    let s := { s with hard := s.hard.filter fun h => siteCluster h.site != some cl }
    ((s.setCluster cl { k with failed := false, icache := [] }).setQuad (cl / 16) { q with spareUsed := true }).logRec 0 0 (cl * 128) 6 0 0 0

/-- R379: hard HBM rows of a partition's channels are repaired, where their stacks have spare rows. -/
def State.repairRows (s : State) (p : Nat) : State :=
  let set := channelSet (s.ctx p)
  s.hard.foldl (fun s h =>
    match h.site with
    | .hbm ch off u =>
      if h.hard && u == 0x0E && set.contains ch then
        if Config.spareRow ch off then { s with hard := s.hard.filter fun x => x.site != h.site }
        else s.logRec 1 0x0E ch 0 (dw (s.siteMpa h.site)) (s.ctxid p) 0 0 h.count.toNat
      else s
    | _ => s) s

/-- Zero an MPA range of a partition (R393 step 5). -/
def State.zeroMpa (s : State) (c : Ctx) (lo hi : Nat) : State :=
  if lo.testBit 52 then (if lo.testBit 51 then s else s.zeroRange (lo % 2 ^ 52) (lo % 2 ^ 52 + (hi - lo)))
  else { s with mem := s.mem.filter (fun x => !inRegion c [] [(lo, hi)] x.1), lost := s.lost.filter fun l => !inRegion c [] [(lo, hi)] l.lo }

/-- R393 step 5: ranges with scrub are zeroed. -/
def State.scrubRanges (s : State) (ns : List Nat) : State :=
  ns.foldl (fun s n => ((s.ctx n).ranges.filter Range.scrub).foldl (fun s r =>
    s.zeroMpa (s.ctx n) r.target.toNat (r.target.toNat + (r.limit.toNat - r.base.toNat))) s) s

/-- R14: the registers of a partition's own clusters take their reset values: MXISSUER (R175), and those of R389. -/
def State.resetRegs (s : State) (p : Nat) : State :=
  ((nodeClusters (s.ctx p)).filter fun cl => s.partsOf cl == [p]).foldl (fun s cl =>
    let s := s.setCluster cl { s.cluster cl with mxissuer := 7 }
    (coresIn cl).foldl (fun s k => s.setCore k { s.core k with sel := 0, refused := false }) s) s

/-- R14, R379: the words at sites that a partition owns, and that have failed, are rewritten by its reset, but for those of memory. -/
def State.rewriteSites (s : State) (p : Nat) : State :=
  { s with hard := s.hard.map fun h => if h.failed && (sitePlace h.site).isNone && (s.owners h.site).contains p then { h with rewritten := true } else h }

/-- R459, R472: the frames that have not been written, of the ingest ports whose target cluster belongs to a partition or whose owner is one
of some contexts, are discarded and counted. -/
def State.dropFrames (s : State) (p : Nat) (ns : List Nat) : State :=
  { s with ports := s.ports.map fun x => (x.1,
      if x.2.ing[0].getLsbD 63 && ((s.partsOf (ingLid x.2.ing / 128)).contains p || ns.any fun n => s.namesCtx (fld x.2.ing[3] 31 0) n) then
        { x.2 with ing := x.2.ing.set 3 (setFld x.2.ing[3] 63 32 (fld x.2.ing[3] 63 32 + x.2.frames.length)), frames := [] }
      else x.2) }

/-- R450: a reset partition no longer keeps a die isolated. -/
def State.unisolate (s : State) (pno : Nat) : State :=
  { s with isolated := (s.isolated.map fun x => (x.1, x.2.1, x.2.2.filter (· != pno))).filter fun x => !x.2.2.isEmpty }

/-- R393 step 8, R471 step 7: the notice to the creator's fault queue, whatever its accept mask. -/
def State.presetNotice (s : State) (ctx : Nat) (extra : DWord) : State :=
  match (s.ctx ctx).parent with
  | none => s
  | some (p, _) =>
    let quad := (s.ctx ctx).base.toNat / 128
    let f : FaultAt := { core := quad * 144, ctx := ctx, entry := 0, lid := overmanLid quad, source := 3 }
    let k := mkPacket s f .preset 0 extra
    let q := s.quad quad
    let s := s.setQuad quad { q with seq := q.seq + 1 }
    match (s.ctx p).fq with
    | some fq => s.setQuad quad { s.quad quad with waiting := (s.quad quad).waiting ++ [(fq, p, k)] }
    | none => s.logRec 0 0 (overmanLid quad) 8 0 k.ctx k.d1 Cls.preset.code

/-- The records of a reset's contexts (R393, R471) (DEDUCED, log 61). -/
def State.resetRecords (s : State) (ns restarted : List Nat) : State :=
  ns.foldl (fun s n => s.logRec 0 0 0 (if restarted.contains n then 4 else 5) 0 (s.ctxid n) 0) s

/-- R338, R39: a partition's tolerance, and the copies that its contexts hold; its parts leave the states that it no longer allows. -/
def State.setLtol (s : State) (p : Nat) (t : Word) : State :=
  ({ s with ctxs := s.ctxs.map fun c => (c.1, if s.partitionOf c.1 = p then { c.2 with ltol := t } else c.2) } : State).fitNode (s.ctx p)

/-- R14, R348, R39, R395: the registers of the virtual functions that a partition's contexts are bound to, its tolerance, and its restart
interval. -/
def State.resetVfs (s : State) (p : Nat) (ns : List Nat) : State :=
  let s := { s with rintervals := tdel s.rintervals p }
  let s := { s with vfs := s.vfs.map fun (v : Nat × VF) =>
                     if ((s.bound v.1).map ns.contains).getD false then (v.1, { v.2 with lstat := false, winbase := 0 }) else v }
  s.setLtol p 0

/-- R479: the root creates the services context again, unless the link of a die that it is on is down (R466) (DEDUCED, log 58). -/
def State.recreate (s : State) (p : Nat) : State :=
  if p = 0 ∧ !(s.partDies 0).any s.dieFailed then s.setCtx 0 { s.ctx 0 with st := .running } else s

/-- R393: the eight steps on a partition, by its context's number; registers of no partition, such as those of the host ports, stay as they
are (R14) (DESIGN CHOICE, log 106); `failed`: the clusters that fail the self-test of step 4 (DEDUCED, log 58). -/
def State.resetPartition (s : State) (p : Nat) (failed : List Nat) : State :=
  let ns := (s.ctxs.map Prod.fst).filter fun n => s.isLive n && s.partitionOf n == p
  let ts := s.torn ns
  let held := s.heldBy ns
  let s := { s with flrs := s.flrs.filter fun f => !ns.contains f.ctx }
  let s := ns.foldl (fun s n => s.releaseClaims n) (s.rewriteSites p)
  let s := ((s.haltCores ns).purge ns).dropFrames p ns
  let s := (nodeClusters (s.ctx p)).foldl State.remap (s.selfTest p failed)
  let s := ((s.repairRows p).scrubRanges ns).resetRegs p
  let points := ns.filterMap s.restartOf
  let again := ns.filter fun n => points.any fun r => r.states.any fun x => x.1 == n
  let out := ns.filter fun n => !again.contains n
  let keep := (s.subtree p).filter fun n => !ns.contains n
  let s := s.endOps ns out
  let s := (out.foldl (fun s n => s.toCreated n held keep) s).endRecords out
  let s := ((points.foldl State.restore s).recreate p).resetVfs p ns
  let s := (s.resetRecords ns again).presetNotice p 0
  (s.unisolate (s.ctx p).pno.toNat).recordTorn ts

/-- PARTITION_RESET (R393): of the partition of a number, after an uncorrectable error. -/
def evPartitionReset (r : ResetInput) (s : State) : Option State :=
  if s.resetting.contains r.part then
    let s := { s with resetting := s.resetting.filter (· != r.part) }
    match s.partitions.find? fun n => (s.ctx n).pno.toNat == r.part with
    | some n => some (s.resetPartition n r.failed)
    | none => some s
  else none

/-! ### Function-level reset (R471) -/

/-- R471 step 6: BAR0 of a virtual function takes its reset values, but for BIND. -/
def State.resetBar0 (s : State) (v : Nat) : State :=
  let s := s.setVf v { s.vf v with lstat := false, winbase := 0 }
  match s.bound v with
  | some c => if (s.ctx c).part then s.setLtol c 0 else s
  | none => s

/-- R471 steps 1 to 4 and 6: one virtual function; a partition reset that is due does the rest (R474) (DEDUCED, log 60), and a later step in
the same tick may be a `ctxrevoke`, which then does. -/
def State.flr (s : State) (v : Nat) : State :=
  match s.bound v with
  | none => s.resetBar0 v
  | some c =>
    if s.resetting.contains (s.ctx (s.partitionOf c)).pno.toNat then s.resetBar0 v
    else
      let ns := s.subtree c
      let f : Flr := { vf := v, ctx := c, gen := (s.ctx c).gen, tick := s.tick, held := s.heldBy ns, torn := s.torn ns }
      let s := ((s.haltSet ns).endOps ns ns).resetBar0 v
      let s := ns.foldl (fun s n => s.setCtx n { s.ctx n with pausing := true }) s
      { s with flrs := s.flrs ++ [f] }

/-- R471 steps 5 and 7: the contexts return to Created, and the creator hears of it. -/
def State.endFlr (s : State) (f : Flr) : State :=
  let s := { s with flrs := s.flrs.filter (· != f) }
  if !(s.isLive f.ctx && (s.ctx f.ctx).gen == f.gen) then s
  else
    let ns := s.subtree f.ctx
    let s := (ns.foldl (fun s n => s.toCreated n f.held []) s).endRecords ns
    ((s.resetRecords ns []).presetNotice f.ctx 1).recordTorn f.torn

/-- A function-level reset whose tick has ended. -/
def State.flrDue (s : State) (v : Nat) : Option Flr := s.flrs.find? fun f => f.vf == v && decide (f.tick < s.tick)

/-- FUNCTION_LEVEL_RESET (R471): its steps up to the stop, and when its tick has ended the others (R474). -/
def evFunctionLevelReset (fn : PcieFn) (s : State) : Option State :=
  match fn with
  | .vf v =>
    if 1024 ≤ v then none
    else match s.flrDue v with
      | some f => some (s.endFlr f)
      | none => if s.flrs.any fun f => f.vf == v then none else some (s.flr v)
  | .pf port => if port < 2 then some ((s.vfs.map Prod.fst).foldl (fun s v => if v / 512 = port ∧ (s.bound v).isSome then s.flr v else s) s) else none

/-! ### Start-up and recovery (R357, R475 to R478, R480, R482) -/

/-- R482: the log of a boot, whose records follow those saved in flash. -/
def State.freshLog (s : State) : ErrLog := { seq := match s.saved.getLast? with
  | some r => r.seq + 1
  | none => 0 }

/-- A part that has lost its state, with what flash and fuses keep. -/
def State.cold (s : State) (b : Boot) : State :=
  { State.reset with
    ctxs := [], queues := [], qgens := [], saved := s.saved, log := s.freshLog, fresh := s.fresh, agenda := s.agenda
    boot := { b with minSvn := s.boot.minSvn, flash := s.boot.flash } }

/-- R476: how many dies of those that passed run. -/
def liveDies (passed : Nat) : Nat := if 8 ≤ passed then 8 else if 4 ≤ passed then 4 else if 2 ≤ passed then 2 else passed

/-- The dies of a mask. -/
def countDies (m : Byte) : Nat := (ones m.toNat 8).length

/-- R498, R338, R342: the granules of a ring that a request names as an MPA range. -/
def mgmtRing (c : Ctx) (a cap : Nat) : Option (List Nat) :=
  let size := 8 * 2 ^ cap
  if 3 ≤ cap ∧ cap ≤ 13 ∧ a % size = 0 ∧ offControl a size then some ((List.range (max 1 (size / 4096))).map fun k => mpaPlace c (a + 4096 * k)) else none

/-- R357 step 6, R498: the services context, with the fault queue that the image names, if it names one. -/
def State.bootServices (s : State) (fq : Option (BitVec 53 × BitVec 4)) : State :=
  match fq.bind fun x => (mgmtRing servicesCtx x.1.toNat x.2.toNat).map fun r => (r, x.2.toNat) with
  | some (r, cap) =>
    { s with ctxs := [(0, { servicesCtx with fq := some 2, accept := 0xFFFFFFFFFFFFFFFF, queues := [0, 1, 2] })],
             queues := servicesQueues ++ [(2, { ring := r, cap := cap })], qgens := [(0, 0), (1, 0), (2, 0)] }
  | none => { s with ctxs := [(0, servicesCtx)], queues := servicesQueues, qgens := [(0, 0), (1, 0)] }

/-- R27, R357 step 4: the quadrants whose spares stand in for a cluster. -/
def State.bootSpares (s : State) (n : Nat) (spares : List Nat) : State :=
  (spares.filter fun q => decide (q < 4 * n)).foldl (fun s q => s.setQuad q { s.quad q with spareUsed := true }) s

/-- R357, R476: steps 4 to 7, of an image of a version. -/
def State.boot4 (s : State) (b : BootInput) (svn : Word) (version : DWord) : State :=
  let ok := b.selfOk &&& b.hbmOk
  let dead := ~~~ok
  let n := liveDies (countDies ok)
  let id : Boot := { svn := svn, version := version, dead := dead }
  if n = 0 then s.cold { id with step := 3, mode := 2, cause := if b.selfOk = 0 then 5 else 6 }
  else if !b.timeOk then s.cold { id with step := 4, mode := 2, cause := 8 }
  else if !b.zeroOk then s.cold { id with step := 5, mode := 2, cause := 4 }
  else ({ s.cold id with dies := n }.bootSpares n b.spares).bootServices b.fq

/-- R476, R478: the checks of steps 2 and 3 on an image: the cause when one fails. -/
def State.imageCause (s : State) (b : BootInput) (svn : Word) : Option (Nat × Nat) :=
  if !b.sigOk then some (1, 1)
  else if svn.toNat < s.boot.minSvn.toNat then some (1, 2)
  else if !b.measureOk then some (2, 3)
  else none

/-- MODULE_RESET (R357): of the image that the flash holds. -/
def evModuleReset (b : BootInput) (s : State) : Option State :=
  some (if !b.rootOk then s.cold { step := 0, mode := 2, cause := 7 }
    else if !b.flashOk || !s.boot.flash.valid then s.cold { step := 1, mode := 1, cause := 4 }
    else match s.imageCause b s.boot.flash.svn with
      | some (step, cause) => s.cold { step := BitVec.ofNat 4 step, mode := 1, cause := BitVec.ofNat 8 cause }
      | none => s.boot4 b s.boot.flash.svn s.boot.flash.version)

/-- R482: the log is saved, with a last record; no other state survives. -/
def State.powerLoss (s : State) : State :=
  let s := s.logRec 3 0x13 0xFFFF 0 0 0 0
  let first := s.log.total - min s.log.total 1024
  let recs := (List.range (s.log.total - first)).filterMap fun i => tget s.log.recs ((first + i) % 1024)
  let s := { s with saved := sortBy (fun r => r.seq.toNat) (recs ++ s.log.held) }
  s.cold { step := 0, mode := 2 }

/-- R477: the recovery loader checks an image and starts it; `prog`: it is written to flash first, and a loss of power meanwhile leaves no
valid image there. -/
def State.recover (s : State) (b : BootInput) (prog : Bool) : Option State :=
  if s.boot.mode ≠ 1 then none
  else match s.imageCause b b.svn with
    | some (_, cause) => some { s with boot := { s.boot with cause := BitVec.ofNat 8 cause } }
    | none =>
      let flash (ok : Bool) : State := { s with boot := { s.boot with flash := { valid := ok, svn := b.svn, version := b.version } } }
      if prog && b.cut then some (flash false).powerLoss
      else some ((if prog then flash true else s).boot4 b b.svn b.version)

/-- RECOVERY_GO and RECOVERY_PROG (R477). -/
def evRecoveryGo (port : Nat) (b : BootInput) (s : State) : Option State := if port < 2 then s.recover b false else none
def evRecoveryProg (port : Nat) (b : BootInput) (s : State) : Option State := if port < 2 then s.recover b true else none

/-- SVN_RAISE (R478). -/
def evSvnRaise (s : State) : Option State :=
  if s.boot.mode = 0 ∧ s.boot.step = 7 then
    some { s with boot := { s.boot with minSvn := if s.boot.minSvn.toNat < s.boot.svn.toNat then s.boot.svn else s.boot.minSvn } }
  else none

/-- TRUST_DIE_ERROR (R480): the part halts, its keys are lost, and both host ports report the error through AER. -/
def evTrustDieError (s : State) : Option State :=
  let s := [0, 1].foldl (fun (s : State) p => s.setHost p { s.host p with aer := true }) s
  some { s with boot := { s.boot with mode := 2, cause := 9 } }

/-- POWER_LOSS (R482). -/
def evPowerLoss (s : State) : Option State := some s.powerLoss

end Sys2Proof.Machine
end

