-- ==== Sys2Proof/Machine/EvLink.lean ====
section
/-! DEFINITION. Links (R461 to R466), raw-frame ingress (R353 to R355, R467, R472, R500), and pushes from peer packages (R352,
R452). -/
namespace Sys2Proof.Machine

/-! ### Links (R462 to R464) -/

/-- The status block of a link. -/
def State.link (s : State) : LinkName → PLink
  | .port p => (s.port p).link
  | .die d => (s.dieOf d).link

def State.setLink (s : State) (n : LinkName) (l : PLink) : State :=
  match n with
  | .port p => s.setPort p { s.port p with link := l }
  | .die d => s.setDie d { s.dieOf d with link := l }

/-- A link that the part has: sixteen ports for each live die (R3). -/
def State.hasLink (s : State) : LinkName → Bool
  | .port p => decide (p < 16 * s.dies)
  | .die d => decide (d < s.dies)

/-- R399, R464: the unit and the loc of a link's records. -/
def linkUnit : LinkName → Nat
  | .port _ => 0x12
  | .die _ => 0x11
def linkLoc : LinkName → Nat
  | .port p => p
  | .die d => d

/-- A saturating count of 32 bits, and one of 16. -/
def sat32 (w : Word) (n : Nat) : Word := BitVec.ofNat 32 (min (w.toNat + n) 0xFFFFFFFF)
def sat16 (w : BitVec 16) (n : Nat) : BitVec 16 := BitVec.ofNat 16 (min (w.toNat + n) 0xFFFF)

/-- R464: a link comes to a state other than training: what its replay buffer holds is sent. A change to 0 or 3 writes a record. -/
def State.linkState (s : State) (n : LinkName) (l : PLink) (st : BitVec 3) : State :=
  let l' : PLink := { l with state := st, failed := st == 0, downtick := if st = 0 ∧ l.state ≠ 0 then BitVec.ofNat 32 s.tick else l.downtick,
                             buffer := l.buffer.map fun f => { f with out := true } }
  let s := s.setLink n l'
  if (st = 0 ∨ st = 3) ∧ l.state ≠ st then s.logRec 1 (linkUnit n) (linkLoc n) 0 0 0 0 else s

/-- R463: a link begins to retrain. -/
def PLink.retrain (l : PLink) : PLink :=
  { l with state := 1, retrains := sat16 l.retrains 1, buffer := l.buffer.map (fun f => { f with replays := [] }), asks := [], wantReplay := false, askReplay := false }

/-- R463: ticks no older than 100 000, with this one. -/
def recentTicks (ts : List Nat) (tick : Nat) : List Nat := (ts.filter fun t => decide (tick < t + 100000)) ++ [tick]

/-- R462, R463: a flit with a bad CRC has come; the sixteenth replay that is asked for of one flit within 100 000 ticks makes the link
retrain. -/
def PLink.badFlit (l : PLink) (tick : Nat) : PLink :=
  let asks := recentTicks l.asks tick
  let l := { l with crcerr := sat32 l.crcerr 1, askReplay := true, asks := asks }
  if 16 ≤ asks.length then l.retrain else l

/-- The flits of a replay buffer after an acknowledged one. -/
def acked (buffer : List HeldFlit) (seq : BitVec 12) : List HeldFlit :=
  if (buffer.take replayRoom).any (fun f => f.seq == seq) then (buffer.dropWhile (·.seq != seq)).drop 1 else buffer

/-- The packets that wait at a link for their acknowledgement. -/
def State.linkBuffer (s : State) (n : LinkName) : List HeldFlit :=
  match n with
  | .port p => (s.port p).link.buffer
  | .die d => s.dieFlits (s.dieOf d).link

/-- FLIT_RECEIVE (R462): flits are passed on in sequence order only; a bad CRC or a gap asks for a replay. -/
def evFlitReceive (n : LinkName) (f : Flit) (s : State) : Option State :=
  let l := s.link n
  if !s.hasLink n || !l.carries then none
  else match f with
    | .data seq ok =>
      if !ok then some (s.setLink n (l.badFlit s.tick))
      else if seq == l.rxSeq then some (s.setLink n { l with rxSeq := l.rxSeq + 1, askReplay := false, asks := [] })
      else some (s.setLink n { l with askReplay := true })
    | .ack seq => some (s.setLink n { l with buffer := acked l.buffer seq })
    | .replay => some (s.setLink n { l with wantReplay := true })

/-- R463: a flit is sent again. -/
def HeldFlit.again (f : HeldFlit) (tick : Nat) : HeldFlit := { f with replays := recentTicks f.replays tick }

/-- FLIT_REPLAY (R462, R463): the sender sends again every flit not acknowledged; the sixteenth replay of one flit within 100 000 ticks makes the
link retrain. -/
def evFlitReplay (n : LinkName) (s : State) : Option State :=
  let l := s.link n
  if !s.hasLink n || !l.carries || !l.wantReplay then none
  else
    let all := s.linkBuffer n
    let sent := (all.take replayRoom).map fun f => f.again s.tick
    let l := { l with wantReplay := false, replays := sat32 l.replays sent.length, buffer := sent ++ all.drop replayRoom }
    some (s.setLink n (if sent.any (fun f : HeldFlit => decide (16 ≤ f.replays.length)) then l.retrain else l))

/-! ### Links that fail (R465, R466) -/

/-- R390: the order in which fibres freeze in one step: of one core, by entry. -/
def Who.rank (w : Who) : Nat := w.core * 256 + w.entry

/-- R465: an `amo` or `cas` sent on a port ends with PEER code 5; one not yet sent leaves by another port. `b`: the state before the port went down. -/
def State.endFlight (b : State) (p : Nat) (s : State) (x : Nat × Flight) : State :=
  let f := x.2
  if f.port ≠ some p then s
  else
    let fate (t : Target) : State :=
      if b.linkPassed x.1 && b.orderKept f.who x.1 true f.rel then s.landFault x.1 f .peer t.peerDva 5
      else
        let g := { f with port := s.targetPort t }
        { s with flights := tset s.flights x.1 g }.sendFlit (s.linkFor g.who g.port t) x.1
    match f.job with
    | .amo t _ _ => fate t
    | .cas t _ _ => fate t
    | _ => s

/-- R465: a push sent on a port is refused with code 5; one not yet sent leaves by another port. -/
def State.endStore (b : State) (p : Nat) (s : State) (x : Nat × PStore) : State :=
  let q := x.2
  if q.port ≠ some p then s
  else if b.orderKept q.who q.ord false q.rel && !b.storeHeld x.1 q then { s with stores := tdel s.stores x.1 }.pruneBars.peerStoreFault q 5
  else
    let q := { q with port := s.targetPort q.t }
    { s with stores := tset s.stores x.1 q }.sendFlit (s.linkFor q.who q.port q.t) x.1

/-- R465: a message sent on a port has outcome 6; one not yet sent leaves by another port. -/
def State.endMsg (b : State) (p : Nat) (s : State) (x : Nat × MFlight) : State :=
  let m := x.2
  if m.port ≠ some p || m.waitTill.isSome then s
  else if b.msgReleased x.1 m then (if m.isReply then { s with msgs := tdel s.msgs x.1 } else s.msgOutcome x.1 m 6)
  else s.putMsg x.1 { m with port := s.peerPort (fld m.dst 45 36) (dstLid m.dst) }

/-- R453, R465: the lines that a copy has pushed on a port, and that no answer has come for, are refused with code 5. -/
def State.endCopy (p : Nat) (s : State) (x : Nat × Copy) : State :=
  let c := x.2
  let sent (l : CLine) : Bool := l.done && !l.acked && l.port == some p
  match c.lines.find? sent with
  | none => s
  | some l =>
    let c' := { c with lines := c.lines.map fun (k : CLine) => if sent k then { k with acked := true } else k }
    if c.peerFault.isSome then s.setCopy x.1 c'
    else (s.setCopy x.1 { c' with peerFault := some 5 }).peerCopyFault { c with dva := l.dst.peerDva } 5

/-- R465: a fabric port goes down: the requests sent on it end, those of fibres in the order of R390; a frame that was coming in is cut (R467). -/
def State.portDown (s : State) (p : Nat) (l : PLink) : State :=
  let b := s
  let s := s.copies.foldl (State.endCopy p) s
  let s := s.linkState (.port p) { l with buffer := [], failures := 0 } 0
  let s := if (s.port p).ing[0].getLsbD 63 then s.setPort p { s.port p with cut := some s.tick } else s
  let s := (sortBy (fun x => x.2.who.rank) s.flights).foldl (State.endFlight b p) s
  let s := s.stores.foldl (State.endStore b p) s
  s.msgs.foldl (State.endMsg b p) s

/-- R466: a die link fails: every partition on the die takes a machine check; one that has failed already stays so. -/
def State.dieLinkFails (s : State) (d : Nat) (l : PLink) : State :=
  let s := s.linkState (.die d) { l with failures := 0, buffer := [] } 0
  if l.failed then s else (s.onDie d).foldl (fun s n => s.machineCheck n 3 0x11 d 0 0) s

/-- A link that can carry no more. -/
def State.linkLost (s : State) (n : LinkName) (l : PLink) : State :=
  match n with
  | .port p => s.portDown p l
  | .die d => s.dieLinkFails d l

/-- R353, R464: the state of a link that a retrain has brought up, on the lanes that it has. -/
def State.upState (s : State) (n : LinkName) (l : PLink) : BitVec 3 :=
  match n with
  | .port p => if (s.port p).ing[0].getLsbD 63 then 4 else if l.lanes < 2 then 3 else 2
  | .die _ => if l.spareUsed then 3 else 2

/-- A retrain of a link succeeds. -/
def State.linkUp (s : State) (n : LinkName) (l : PLink) : State := s.linkState n { l with failures := 0 } (s.upState n l)

/-- R463: a lane fails the retrain. -/
def State.laneLost (s : State) (n : LinkName) (l : PLink) : State :=
  match n with
  | .port p => if 2 ≤ l.lanes then s.linkUp n { l with lanes := 1 } else s.portDown p { l with lanes := 0 }
  | .die d => if l.spareUsed then s.dieLinkFails d l else s.linkUp n { l with spareUsed := true }

/-- RETRAIN_COMPLETE (R463) (DEDUCED, log 66): without a further loss of a lane, with one, or with no success. -/
def evRetrainComplete (n : LinkName) (r : Retrain) (s : State) : Option State :=
  let l := s.link n
  if !s.hasLink n || l.state != 1 then none
  else match r with
    | .full => some (s.linkUp n l)
    | .laneLost => some (s.laneLost n l)
    | .failed => some (if 3 ≤ l.failures then s.linkLost n l else s.setLink n { l.retrain with failures := l.failures + 1 })

/-- R464: the dwords of a link's status block. -/
def PLink.dword (l : PLink) : Nat → DWord
  | 0 => dw (l.state.toNat * 2 ^ 61 + l.downtick.toNat)
  | 1 => dw (l.replays.toNat * 2 ^ 32 + l.crcerr.toNat)
  | 2 => dw (l.retrains.toNat * 2 ^ 48 + l.badframes.toNat * 2 ^ 32)
  | _ => 0

/-- LINK_COUNTER_READ (R464): a dword of the status block; the counters of dwords 1 and 2 clear. -/
def evLinkCounterRead (n : LinkName) (k : Nat) (s : State) : Option State :=
  let l := s.link n
  if !s.hasLink n || s.boot.mode != 0 then none
  else
    let s' := { s with hostOut := [l.dword k] }
    match k with
    | 0 => some s'
    | 1 => some (s'.setLink n { l with replays := 0, crcerr := 0 })
    | 2 => some (s'.setLink n { l with retrains := 0, badframes := 0 })
    | 3 => some s'
    | _ => none

/-- LINK_RETRAIN_COMMAND (R464): ignored but for a link that is down or failed, which tries all its lanes again (DEDUCED, log 66). -/
def evLinkRetrainCommand (n : LinkName) (s : State) : Option State :=
  let l := s.link n
  if !s.hasLink n || s.boot.mode != 0 || l.state != 0 then none else some (s.setLink n { l.retrain with failures := 0, lanes := 2, spareUsed := false })

/-! ### Ingress (R353 to R355, R467) -/

/-- R353: the checks of a write that sets ingress. -/
def State.ingestOk (s : State) (port : Nat) (v : Vector DWord 4) : Bool :=
  let cl := ingLid v / 128
  match s.named (ingOwner v) with
  | none => false
  | some c =>
    let x := s.ctx c
    lidNames s.dies (ingLid v) && ingLid v % 128 == 80 && decide (7 ≤ fld v[0] 51 48 ∧ fld v[0] 51 48 ≤ 13) && decide (1 ≤ ingSlots v) && nodeHolds x cl &&
    ingRing v % ingSlot v == 0 && inShare x cl (ingRing v) (ingSlots v * ingSlot v) && inShare x cl (ingFill v) 16 &&
    !s.routes.any fun r => r.2.getLsbD port

/-- R353: the reserved bits of the four dwords, with those that its table does not list (DESIGN CHOICE, log 111). -/
def ingReserved (k : Nat) (v : DWord) : Bool :=
  match k with
  | 0 => fld v 61 52 != 0 || fld v 31 0 != 0
  | 1 => fld v 63 52 != 0 || fld v 31 16 != 0
  | 2 => fld v 63 16 != 0
  | _ => false

/-- The record of an ingest write that is ignored. -/
def State.ingestRefused (s : State) (port : Nat) : State := s.logRec 0 0x12 port 0 0 0 0

/-- R353: dword 0 of a block is written (DEDUCED, log 76); the target cluster goes no deeper than Clock-gated from then on (R41). -/
def State.writeIngress (s : State) (port : Nat) (v : DWord) : State :=
  let p := s.port port
  let on := p.ing[0].getLsbD 63
  if v.getLsbD 63 then
    let new := p.ing.set 0 v
    if s.ingestOk port new then
      let new := if on then new else new.set 3 (dw (fld new[3] 31 0))
      (s.setPort port { p with ing := new, cut := none, link := { p.link with state := 4, failed := false } }).wakeCluster (ingLid new / 128)
    else s.ingestRefused port
  else
    let s := if on then s.leaveIngress port else s
    let p := s.port port
    s.setPort port { p with ing := p.ing.set 0 v }

/-- INGEST_CONFIG_WRITE (R353, R500); the reserved bits of a context's identity stay zero (R45). -/
def evIngestConfigWrite (port k : Nat) (v : DWord) (s : State) : Option State :=
  if 16 * s.dies ≤ port ∨ 4 ≤ k ∨ s.boot.mode ≠ 0 then none
  else
    let p := s.port port
    if ingReserved k v then some (s.ingestRefused port)
    else match k with
      | 0 => some (s.writeIngress port v)
      | _ =>
        if p.ing[0].getLsbD 63 then some (s.ingestRefused port)
        else
          let v := if k = 3 then dw (fld p.ing[3] 63 32 * 2 ^ 32 + fld v 31 0) &&& 0xFFFFFFFFFFFF0FFF#64 else v
          some (s.setPort port { p with ing := p.ing.setIfInBounds k v })

/-- FRAME_ARRIVAL (R354): the last flit of a frame has come; a port that is not switched takes it for bad flits (R500). In the tick in which the
ingress link of a port goes down, the frame that was coming in ends there, marked bad (R467). -/
def evFrameArrival (port : Nat) (data : Bytes) (bad : Bool) (s : State) : Option State :=
  if 16 * s.dies ≤ port then none
  else
    let p := s.port port
    let lost := p.cut == some s.tick
    if !p.ing[0].getLsbD 63 then
      if p.link.carries then some (s.setPort port { p with link := p.link.badFlit s.tick }) else none
    else if p.link.state != 4 && !lost then none
    else
      let p := { p with cut := none }
      if !s.ingestRuns p then some (s.setPort port p.bump)
      else
        let f : Frame := { seq := BitVec.ofNat 32 (p.seq + p.frames.length), data := data, bad := bad || lost, tick := s.tick }
        some (s.setPort port { p with frames := p.frames ++ [f] })

/-- R354, R467: a frame is written to its slot and counted. -/
def State.writeFrame (s : State) (v : Vector DWord 4) (f : Frame) : State :=
  let cl := ingLid v / 128
  let bytes := frameBytes v f
  let trunc := decide (bytes.length < f.data.length)
  let d0 := dw (f.seq.toNat * 2 ^ 32 + b2n f.bad * 2 ^ 31 + b2n trunc * 2 ^ 30 + f.data.length % 2 ^ 30)
  let s := (s.wakeFor (.mem (frameSlot v f))).writeBytes (frameSlot v f) (toBytes 8 d0.toNat ++ toBytes 8 f.tick ++ bytes)
  s.countFill ((s.named (ingOwner v)).getD 0) cl (ingFill v) (if v[0].getLsbD 62 then 1 else 16 + bytes.length) 0

/-- FRAME_DELIVERY (R355): 38 ticks after its arrival. -/
def evFrameDelivery (port : Nat) (s : State) : Option State :=
  let p := s.port port
  match p.frames with
  | f :: rest =>
    if !s.frameDue p then none
    else
      let q := { p with frames := rest }.bump
      if !s.ingestRuns p then some (s.setPort port q)
      else
        let marked := f.bad || decide ((frameBytes p.ing f).length < f.data.length)
        let q := if marked then { q with link := { q.link with badframes := sat16 q.link.badframes 1 } } else q
        some ((s.setPort port q).writeFrame p.ing f)
  | [] => none

/-- A port is reset (R353, R500): it has gone down (R465), its ingest block has the reset values, and it trains (DESIGN CHOICE, log 103). -/
def evPortReset (port : Nat) (s : State) : Option State :=
  if 16 * s.dies ≤ port ∨ s.boot.mode ≠ 0 then none
  else
    let s := s.leaveIngress port
    let s := s.portDown port (s.port port).link
    let p := s.port port
    some (s.setPort port { p with ing := ({} : Port).ing, link := { p.link with state := 1, lanes := 2, asks := [] } })

/-! ### Pushes from peers (R352, R452) -/

/-- The lowest-numbered export that admits a push, with its context (R352). -/
def State.pushExport (s : State) (off : Nat) : Option (Export × Nat) :=
  s.exports.findSome? fun e =>
    if e.2.d0.getLsbD 63 && e.2.d0.getLsbD 62 && decide (fld e.2.d1 43 0 ≤ off ∧ off < fld e.2.d2 43 0) then
      (s.named (e.2.d0 &&& 0xFFFF0FFF#64)).map fun c => (e.2, c)
    else none

/-- R452: the code of a push that a check under the exporting context stops: 2 for a missing right, 3 for a failed translation. -/
def AFail.pushCode : AFail → Nat
  | .trap .rights _ _ => 2
  | _ => 3

/-- R452: the places of a push's bytes, each checked under the exporting context, in ascending order; or the code of the first that a check
stops. The state after, with the entries marked that the translations have used (R82). -/
def State.pushPlaces (s : State) (ctx : Nat) (a : DWord) : Nat → State × Except Nat (List Target)
  | 0 => (s, .ok [])
  | n + 1 =>
    match classify a with
    | .paged => match s.translated ctx none a AccKind.peerPush.right true with
      | .ok (s, t, _) => let r := s.pushPlaces ctx (a + 1) n; (r.1, r.2.map fun l => t :: l)
      | .error e => (s.markAccessed ctx none a, .error e.pushCode)
    | _ => (s, .error 3)

/-- R124: a copy owns a line of what an agent outside the fibres reads or writes. -/
def State.anyOwned (s : State) (ts : List Target) : Bool := ts.any fun t => s.lineOwned s.fresh t 1

/-- Bytes are stored as `.ga`, each at its place, in parts that they wake (R40). -/
def State.putEach (s : State) (ctx : Nat) : List (Target × Byte) → State
  | [] => s
  | x :: l =>
    let s := s.wakeFor x.1
    let s := if x.1.homed then { s.seenBy true none x.1.flat with fresh := s.fresh + 1 } else s
    (s.writeTarget ctx x.1 [x.2]).putEach ctx l

/-- What an atomic push leaves at its target. -/
def PeerPush.result (p : PeerPush) (t : Target) (old : DWord) : Bytes :=
  match p.amo, p.cas with
  | some (op, v), _ => toBytes 8 (amoAt t op old v).toNat
  | none, some (e, v) => toBytes 8 (if old = e then v else old).toNat
  | none, none => p.body

/-- R90: a push changes table entries that have admitted accesses under their old values. -/
def State.pushAdmits (s : State) (ts : List Target) : Bool := ts.any fun t => match t with
  | .mem a => isHomed a && s.admittedBy s.fresh a 1
  | _ => false

/-- PEER_PUSH_ARRIVAL (R352, R452, R472): performed, or refused with a code; an atomic answers with the old value (R133). A push for a Created
context is refused at once (DESIGN CHOICE, log 72; R472 allows that or to keep it). -/
def evPeerPushArrival (p : PeerPush) (s : State) : Option State :=
  match s.pushExport p.offset.toNat with
  | none => some (s.answerPeer 1)
  | some (e, c) =>
    if (s.ctx c).st = .created ∨ s.resetting.contains (s.ctx (s.partitionOf c)).pno.toNat then some (s.answerPeer 4)
    else
      let a := e.d3 + dw (p.offset.toNat - fld e.d1 43 0)
      let atom := p.amo.isSome || p.cas.isSome
      let n := if atom then 8 else p.body.length
      match s.pushPlaces c a n with
      | (s, .error k) => some ((s.logRec 0 0 0 0 0 (s.ctxid c) 0).answerPeer k)
      | (s, .ok ts) =>
        if s.anyOwned ts || s.pushAdmits ts then none
        else
          let old := dw (s.readAs c none ((ts.headD (.mem 0)).place) 8)
          let s := if atom then { s with hostOut := [old] } else s
          some ((s.putEach c (ts.zip (PeerPush.result p (ts.headD (.mem 0)) old))).answerPeer 0)

end Sys2Proof.Machine
end

