-- ==== Sys2Proof/Machine/EvHost.lean ====
section
/-! DEFINITION. The host ports: virtual functions (R347, R348), host-backed pages (R349, R446 to R449, R469), and the management
interface (R351, R352, R479, R498). -/
namespace Sys2Proof.Machine

/-- R399: the loc of a host port's records. -/
def hostLoc (port : Nat) : Nat := 0x100 + port

/-! ### Virtual functions (R347, R348) -/

/-- The host may reach a register (R476). -/
def State.booted (s : State) : Bool := s.boot.mode == 0

/-- VF_BINDING_WRITE (R347): a write that would bind a context, which [31:16] and [11:0] name, twice is ignored; other bits read 0 (R15). -/
def evVfBindingWrite (vf : Nat) (v : DWord) (s : State) : Option State :=
  let new := v &&& 0x80000000FFFF0FFF
  if 1024 ≤ vf ∨ !s.booted then none
  else if new.getLsbD 63 && s.vfs.any (fun p => p.1 != vf && p.2.bind == new) then none
  else some (s.setVf vf { s.vf vf with bind := new })

/-- HOST_LAUNCH_WRITE (R348): a record address is enqueued for the bound context, once no copy owns its line (R124); a full queue sets
LSTAT. -/
def evHostLaunchWrite (vf : Nat) (v : DWord) (s : State) : Option State :=
  if !s.booted then none
  else match s.bound vf with
    | none => none
    | some c =>
      if s.tailOwned (s.ctx c).lq then none
      else some ((s.enqueue (s.ctx c).lq v).getD (s.setVf vf { s.vf vf with lstat := true }))

/-- LSTAT_READ (R348): read and cleared. -/
def evLstatRead (vf : Nat) (s : State) : Option State :=
  if !s.booted then none
  else match s.bound vf with
    | none => some { s with hostOut := [0] }
    | some _ => some { s.setVf vf { s.vf vf with lstat := false } with hostOut := [dw (b2n (s.vf vf).lstat)] }

/-- LTOL_WRITE (R348): for a context that is a partition. -/
def evLtolWrite (vf : Nat) (v : DWord) (s : State) : Option State :=
  if !s.booted then none
  else match s.bound vf with
    | none => none
    | some c => if (s.ctx c).part then some (s.setLtol c (v.setWidth 32)) else none

/-- R348: the targets of bytes that a host reaches through BAR2, each checked under the bound context, in ascending order from one; none
when a check fails. The state after, with the entries marked that the translations have used (R82). -/
def State.barTargets (s : State) (ctx : Nat) (k : AccKind) (a : DWord) : Nat → State × Option (List Target)
  | 0 => (s, some [])
  | n + 1 =>
    match classify a with
    | .paged => match s.translated ctx none a k.right k.writes with
      | .ok (s, t, _) => let r := s.barTargets ctx k (a + 1) n; (r.1, r.2.map fun l => t :: l)
      | .error _ => (s.markAccessed ctx none a, none)
    | _ => (s, none)

/-- R496: a host's access that a check stops (DEDUCED, log 67). -/
def State.barRefused (s : State) (vf : Nat) : State := s.logRec 0 0x12 (hostLoc (vf / 512)) 0 0 0 0

/-- The DVA of an offset in BAR2. -/
def State.barDva (s : State) (vf off : Nat) : DWord := (s.vf vf).winbase + dw off

/-- HOST_BAR2_READ (R348): a load under the bound context, as the hosts see memory (R132); what it returns is in dwords. It waits for copies
that own its lines (R124). -/
def evHostBar2Read (vf off size : Nat) (s : State) : Option State :=
  if !s.booted then none
  else match s.bound vf with
    | none => none
    | some c =>
      if 2 ^ 36 < off + size then none
      else match s.barTargets c .load (s.barDva vf off) size with
        | (s, none) => some (s.barRefused vf)
        | (s, some ts) =>
          let bs := ts.flatMap fun t => s.clear c t.place [s.byteFor (some hostDie) t.place]
          if s.anyOwned ts then none
          else some { ts.foldl State.wakeFor s with hostOut := (List.range ((size + 7) / 8)).map fun k => dw (ofBytes ((bs.drop (8 * k)).take 8)) }

/-- HOST_BAR2_WRITE (R348, R134, R469): a store under the bound context, as `.ga`; a poisoned one is dropped (DEDUCED, log 68). -/
def evHostBar2Write (vf off : Nat) (data : Bytes) (_relaxed poisoned : Bool) (s : State) : Option State :=
  if !s.booted then none
  else match s.bound vf with
    | none => none
    | some c =>
      if 2 ^ 36 < off + data.length then none
      else if poisoned then some (s.barRefused vf)
      else match s.barTargets c .store (s.barDva vf off) data.length with
        | (s, none) => some (s.barRefused vf)
        | (s, some ts) => if s.anyOwned ts || s.pushAdmits ts then none else some (s.putEach c (ts.zip data))

/-! ### Host pages (R349, R446 to R449) -/

/-- R349: the requester ID of a context's page requests: the virtual function of the nearest context that has one, or the
physical function of the port, numbered from 1024 (DEDUCED, log 70). -/
def State.requester (s : State) (ctx port : Nat) : Nat :=
  ((s.upFrom ctx).findSome? fun n => (s.vfs.find? fun v => v.2.bind.getLsbD 63 && s.namesCtx (fld v.2.bind 31 0) n).map Prod.fst).getD (1024 + port)

/-- R448: a parked fibre freezes with HOSTPG. -/
def State.failFibre (s : State) (w : Who) (reason page : Nat) : State :=
  match s.who? w with
  | none => s
  | some fb =>
    if fb.st != .parked then s
    else
      let i := s.img w.core w.ctx
      match i.parkings.find? fun p => p.entry == w.entry && p.uid == w.uid with
      | none => s
      | some p =>
        let s := s.setImg w.core w.ctx { i with parkings := i.parkings.filter fun q => !(q.entry == w.entry && q.uid == w.uid) }
        s.freeze { s.faultAt w.core w.ctx w.entry with wh := p.wh.toNat, body := p.body.toNat, word := p.word, other := p.other,
                                                       pc := if p.wh = 2#2 then p.pc + 4 else p.pc }
          .hostpg p.dva (hostpgExtra reason page)

/-- R349: a parked fibre issues its unit again. -/
def State.readyFibre (s : State) (w : Who) : State :=
  match s.who? w with
  | none => s
  | some fb =>
    if fb.st != .parked then s
    else
      let i := s.img w.core w.ctx
      s.setImg w.core w.ctx ({ i with parkings := i.parkings.filter fun q => !(q.entry == w.entry && q.uid == w.uid) }.setFibre w.entry fb.readied)

/-- R453: a copy held on a page stops there. -/
def State.failCopy (s : State) (port id reason page : Nat) : State :=
  match tget s.copies id with
  | some c =>
    let a := match c.held.find? fun h => h.1 == port && h.2.1 == page with
      | some h => h.2.2
      | none => c.dva
    s.stopCopy id .hostpg a (hostpgExtra reason page)
  | none => s

/-- A copy is held on a page no longer. -/
def State.freeCopy (s : State) (port id page : Nat) : State :=
  match tget s.copies id with
  | some c => { s with copies := tset s.copies id { c with held := c.held.filter fun h => !(h.1 == port && h.2.1 == page) } }
  | none => s

/-- R448: records end: every fibre and copy that has joined one fails, the fibres in the order of R390. -/
def State.failAll (s : State) (port : Nat) (rs : List PageRec) (reason : Nat) : State :=
  let h := s.host port
  let s := s.setHost port { h with recs := h.recs.filter fun r => !rs.contains r }
  let s := (sortBy (fun x => x.1.rank) (rs.flatMap fun r => r.joined.map fun w => (w, r.page))).foldl (fun s x => s.failFibre x.1 reason x.2) s
  rs.foldl (fun s r => r.copies.foldl (fun s c => s.failCopy port c reason r.page) s) s

/-- R448: a record ends. -/
def State.failRec (s : State) (port : Nat) (r : PageRec) (reason : Nat) : State := s.failAll port [r] reason

/-- A record that some fibre or copy has joined. -/
def PageRec.live (r : PageRec) : Bool := !(r.joined.isEmpty && r.copies.isEmpty)

/-- A fibre or copy that asks for a page fails. -/
def State.failAsk (s : State) (port : Nat) (a : Ask) (reason : Nat) : State :=
  match a.copy with
  | some id => s.failCopy port id reason a.page
  | none => s.failFibre a.who reason a.page

/-- R446: a fibre or copy joins the record of a page, or a new one, which waits to be sent. -/
def HostPort.join (h : HostPort) (rid : Nat) (a : Ask) : HostPort :=
  let add (r : PageRec) : PageRec := match a.copy with
    | some id => { r with copies := r.copies ++ [id] }
    | none => { r with joined := r.joined ++ [a.who] }
  if h.recs.any fun r => r.rid == rid && r.page == a.page then
    { h with recs := h.recs.map fun r => if r.rid = rid ∧ r.page = a.page then add r else r }
  else
    { h with recs := h.recs ++ [add { group := 0, rid := rid, page := a.page, sent := none, joined := [], copies := [] }] }

/-- R349: a fibre whose page is not present parks, if its unit is still the one that asked. -/
def State.parkAsk (s : State) (w : Who) (p : Parking) : Option State :=
  (s.who? w).bind fun fb =>
    let i := s.img w.core w.ctx
    let body := p.wh == 3#2
    if (if body then i.rep.running && i.rep.wordPc == p.pc && (fb.st == .ready || fb.st == .waiting) else fb.st == .ready && fb.pc == p.pc) then
      let i := i.pauseRep w.entry
      some { s.setImg w.core w.ctx { i.setFibre w.entry { fb with st := .parked, wait := 6, wop := 2 } with
               parkings := i.parkings ++ [{ p with seq := s.fresh }] } with fresh := s.fresh + 1 }
    else none

/-- R349, R446, R448: the page of a fibre or copy is not present: it joins a record, or fails where the function's requests are stopped. -/
def State.pageAbsent (s : State) (port : Nat) (a : Ask) : State :=
  let rid := s.requester a.who.ctx port
  let go (s : State) : State :=
    if (s.host port).stopped.contains rid then s.failAsk port a 3 else s.setHost port ((s.host port).join rid a)
  match a.parking with
  | some p => ((s.parkAsk a.who p).map go).getD s
  | none => go s

/-- R448: a record whose page is translated again after a fourth Success in a row. -/
def PageRec.last (r : PageRec) : Bool := decide (4 ≤ r.successes)

/-- R349, R448: the fibres and copies of a record whose page is present go on. -/
def State.goOn (s : State) (port : Nat) (r : PageRec) : State :=
  let s := r.joined.foldl (fun s w => s.readyFibre w) s
  r.copies.foldl (fun s id => s.freeCopy port id r.page) s

/-- A freeze that a step brings about: the fibre, and what freezes it. -/
inductive Ending
  | page (w : Who) (page reason : Nat)
  | ask (a : Ask)
  | flight (id : Nat) (f : Flight)
  deriving DecidableEq, Repr

/-- The fibre that an ending freezes. -/
def Ending.who : Ending → Who
  | .page w _ _ => w
  | .ask a => a.who
  | .flight _ f => f.who

/-- ATS_TRANSLATION_COMPLETION (R349): the page translates, and the units that asked for it issue, or it is not present, which ends the
records of four Successes (R448); the fibres that freeze do so in the order of R390. A port holds 4096 translations of its own (DESIGN
CHOICE, log 100). -/
def evAtsTranslationCompletion (port page : Nat) (present : Bool) (s : State) : Option State :=
  let h := s.host port
  let asks := h.asking.filter fun a => a.page == page
  let ends := h.recs.filter fun r => r.page == page && r.last
  if asks.isEmpty && ends.isEmpty then none
  else
    let rest := h.asking.filter fun a => a.page != page
    if present then
      let s := s.setHost port { h with asking := rest, ats := (page :: h.ats.filter (· != page)).take 4096,
                                       recs := h.recs.filter fun r => !(r.page == page && (r.last || !r.live)) }
      let s := ends.foldl (fun s r => s.goOn port r) s
      some ((asks.filterMap Ask.copy).foldl (fun s id => s.freeCopy port id page) s)
    else
      let s := s.setHost port { h with asking := rest, recs := h.recs.filter fun r => !ends.contains r }
      let all := ends.flatMap (fun r => r.joined.map fun w => Ending.page w r.page 6) ++ asks.map Ending.ask
      let s := (sortBy (fun e => e.who.rank) all).foldl (fun s e => match e with
        | .page w page reason => s.failFibre w reason page
        | .ask a => s.pageAbsent port a
        | .flight _ _ => s) s
      some (ends.foldl (fun s r => r.copies.foldl (fun s c => s.failCopy port c 6 r.page) s) s)

/-- PAGE_REQUEST_SEND (R349, R446): the oldest record that waits takes the lowest free group index, while the host's allocation and the
records allow. -/
def evPageRequestSend (port : Nat) (s : State) : Option State :=
  let h := s.host port
  let out := (h.recs.filter fun r => r.sent.isSome).length
  match h.recs.find? fun r => r.sent.isNone && r.live && !r.last, lowest 512 (fun g => !h.recs.any fun r => r.sent.isSome && r.group == g) with
  | some r, some g =>
    if h.up && decide (out < min h.alloc 512) then
      some (s.setHost port { h with recs := h.recs.map fun x => if x = r then { r with sent := some s.tick, group := g } else x })
    else none
  | _, _ => none

/-- R448: a record's time has run out. -/
def HostPort.late (h : HostPort) (r : PageRec) (now : Nat) : Bool :=
  match r.sent with
  | some t => h.prtime != 0 && decide (t + h.prtime.toNat < now)
  | none => false

/-- PAGE_REQUEST_TIMEOUT (R448). -/
def evPageRequestTimeout (port group : Nat) (s : State) : Option State :=
  let h := s.host port
  match h.recs.find? fun r => r.group == group && h.late r s.tick with
  | some r => some (s.failRec port r 2)
  | none => none

/-- R449: a dropped response. -/
def State.dropResponse (s : State) (port : Nat) : State :=
  let h := s.host port
  s.setHost port { h with prdrop := sat32 h.prdrop 1 }

/-- R449: a fibre or copy of a context that lives has joined the record. -/
def State.recLive (s : State) (r : PageRec) : Bool :=
  r.joined.any (fun w => s.isLive w.ctx && (s.ctx w.ctx).gen == w.gen) || r.copies.any fun c => (tget s.copies c).isSome

/-- R448: Success: the page is asked for again, and each joined fibre or copy with it; the fourth in a row keeps them for the answer. -/
def State.pageSuccess (s : State) (port : Nat) (r : PageRec) : State :=
  let h := s.host port
  let k := r.successes + 1
  let back : PageRec := if 4 ≤ k then { r with sent := none, successes := k } else { r with sent := none, joined := [], copies := [], successes := k }
  let s := s.setHost port { h with recs := h.recs.map fun x => if x = r then back else x }
  if 4 ≤ k then s
  else
    let h := s.host port
    let asks : List Ask := r.copies.filterMap fun id => (tget s.copies id).map fun c => { who := c.who, page := r.page, copy := some id }
    let s := s.setHost port { h with asking := h.asking ++ asks }
    r.joined.foldl (fun s w => s.readyFibre w) s

/-- R448: Failure: the function is stopped, and every record of it fails. -/
def State.pageFailure (s : State) (port rid : Nat) : State :=
  let h := s.host port
  let s := s.setHost port { h with stopped := rid :: h.stopped.filter (· != rid) }
  s.failAll port (h.recs.filter fun x => x.rid == rid) 3

/-- PAGE_RESPONSE (R448, R449). -/
def evPageResponse (port group rid : Nat) (code : PriCode) (s : State) : Option State :=
  let h := s.host port
  match h.recs.find? fun r => r.group == group && r.rid == rid && r.sent.isSome && !h.late r s.tick with
  | none => if port < 2 then some (s.dropResponse port) else none
  | some r =>
    if !s.recLive r then some ((s.setHost port { h with recs := h.recs.filter (· != r) }).dropResponse port)
    else some (match code with
      | .success => s.pageSuccess port r
      | .invalid => s.failRec port r 1
      | .failure => s.pageFailure port rid)

/-- An access under way to a host page (R349). -/
def State.usesPage (s : State) (port page : Nat) : Bool :=
  let hits (t : Target) : Bool := match t with
    | .host p a => p == port && a / 4096 == page
    | _ => false
  s.stores.any (fun p => !p.2.granted && hits p.2.t) ||
  s.imgs.any (fun i => i.2.streams.toArray.any fun u => u.push.any fun e => e.items.any fun x => hits x.2) ||
  s.flights.any (fun p => match p.2.job with
    | .load t _ _ => hits t
    | .gather ts _ => ts.any fun t => hits t.2
    | .amo t _ _ => hits t
    | .cas t _ _ => hits t
    | _ => false) ||
  s.copies.any fun p => p.2.started && p.2.lines.any fun l => !l.done && (hits l.dst || l.src.any fun x => hits x.1)

/-- ATS_INVALIDATE_REQUEST (R349): completes after every access under the old translation. -/
def evAtsInvalidateRequest (port page : Nat) (s : State) : Option State :=
  let h := s.host port
  if 2 ≤ port ∨ s.usesPage port page then none else some (s.setHost port { h with ats := h.ats.filter (· != page) })

/-- PRI_ENABLE_TOGGLE (R448): one function's mark is cleared. -/
def evPriEnableToggle (rid : Nat) (s : State) : Option State :=
  some { s with hosts := s.hosts.map fun h => (h.1, { h.2 with stopped := h.2.stopped.filter (· != rid) }) }

/-- PRDROP_READ (R447). -/
def evPrdropRead (port : Nat) (s : State) : Option State :=
  let h := s.host port
  if 2 ≤ port ∨ !s.booted then none
  else some { s.setHost port { h with prdrop := 0 } with hostOut := [h.prdrop.setWidth 64] }

/-! ### A host port's link (R469) -/

/-- R469: a host-backed store that was not accepted is dropped. -/
def State.dropHostStore (s : State) (port : Nat) (x : Nat × PStore) : State :=
  match x.2.t with
  | .host p _ => if p = port ∧ !x.2.granted then
      ({ s with stores := tdel s.stores x.1, undone := if x.2.laneOf.isSome then s.undone ++ [x.2] else s.undone }.pruneBars).logRec 0 0x12 (hostLoc port) 0 0 0 0
    else s
  | _ => s

/-- A target in the memory of the host at a port. -/
def Target.atPort (t : Target) (port : Nat) : Bool := match t with
  | .host p _ => p == port
  | _ => false

/-- R469: pushed items that are not yet stores are dropped as stores are. -/
def State.dropHostPushes (s : State) (port : Nat) : State :=
  let lost := s.imgs.foldl (fun n i => i.2.streams.toArray.foldl (fun n u => u.push.foldl (fun n e =>
    n + (e.items.filter fun x => x.2.atPort port).length) n) n) 0
  let s := { s with imgs := s.imgs.map fun i => (i.1, { i.2 with streams := i.2.streams.map fun u =>
    { u with push := u.push.map fun e => { e with items := e.items.filter fun x => !x.2.atPort port } } }) }
  (List.range lost).foldl (fun s _ => s.logRec 0 0x12 (hostLoc port) 0 0 0 0) s

/-- The host page of a port that a round trip waits for. -/
def Flight.hostPage (f : Flight) (port : Nat) : Option Nat :=
  let page (t : Target) : Option Nat := match t with
    | .host p a => if p = port then some (a / 4096) else none
    | _ => none
  match f.job with
  | .load t _ _ => page t
  | .gather ts _ => ts.findSome? fun t => page t.2
  | .amo t _ _ => page t
  | .cas t _ _ => page t
  | _ => none

/-- R469: a round trip to a port that is down fails as a later access does. -/
def State.failHostFlight (s : State) (port : Nat) (x : Nat × Flight) : State :=
  match x.2.hostPage port with
  | some page => s.landFault x.1 x.2 .hostpg x.2.dva (hostpgExtra 4 page)
  | none => s

/-- R441: the first page at a port that a line not yet written reads or writes, with the address there of the copy. -/
def Copy.pageAt (c : Copy) (port : Nat) (l : CLine) : Option (Nat × DWord) :=
  let page (t : Target) : Option Nat := match t with
    | .host p a => if p = port then some (a / 4096) else none
    | _ => none
  let src : List (Nat × Nat) := (l.src.foldl (fun x y => (x.1 + y.2, x.2 ++ (page y.1).toList.map fun k => (k, x.1))) (l.off, ([] : List (Nat × Nat)))).2
  if l.done then none
  else ((page l.dst).map fun k => (k, c.dva + dw l.off)).or
    (if l.buf.isSome then none else src.head?.map fun x => (x.1, c.sva + dw x.2))

/-- R453, R469: a copy that has lines left at a port that is down stops. -/
def State.failHostCopy (s : State) (port : Nat) (x : Nat × Copy) : State :=
  match x.2.lines.findSome? (x.2.pageAt port) with
  | some (k, a) => s.stopCopy x.1 .hostpg a (hostpgExtra 4 k)
  | none => s

/-- R469: a fibre ends with the port. -/
def State.endWith (s : State) (port : Nat) : Ending → State
  | .page w page reason => s.failFibre w reason page
  | .ask _ => s
  | .flight id f => s.failHostFlight port (id, f)

/-- HOST_LINK_DOWN (R469) (DEDUCED, log 71): the fibres that it freezes do so in the order of R390. -/
def evHostLinkDown (port : Nat) (s : State) : Option State :=
  let h := s.host port
  if 2 ≤ port ∨ !h.up then none
  else
    let s := s.setHost port { h with up := false, ats := [], asking := [], recs := [] }
    let ends : List Ending := h.recs.flatMap (fun r => r.joined.map fun w => Ending.page w r.page 4) ++ s.flights.map fun x => Ending.flight x.1 x.2
    let s := (sortBy (fun e => e.who.rank) ends).foldl (fun s e => s.endWith port e) s
    let s := h.recs.foldl (fun s r => r.copies.foldl (fun s c => s.failCopy port c 4 r.page) s) s
    let s := h.asking.foldl (fun s a => match a.copy with
      | some id => s.failCopy port id 4 a.page
      | none => s) s
    let s := s.stores.foldl (fun s x => s.dropHostStore port x) (s.dropHostPushes port)
    some (s.copies.foldl (fun s x => s.failHostCopy port x) s)

/-- HOST_LINK_UP (R469). -/
def evHostLinkUp (port : Nat) (s : State) : Option State :=
  let h := s.host port
  if 2 ≤ port ∨ h.up then none else some (s.setHost port { h with up := true })

/-! ### The management interface (R351, R352, R479, R498) -/

/-- A range entry as a request gives it. -/
def grantEntry (r : Sys2Proof.RangeReq) : Range :=
  { base := r.base, limit := r.limit, target := r.target, dt := r.dt, scrub := r.scrub, rights := r.rights }

/-- R93, R96: entries that a table may hold. -/
def tableOk (c : Ctx) (rs : List Range) : Bool :=
  decide (rs.length ≤ 48) && apart rs && rs.all fun r =>
    r.shaped && inPool (channelSet c).length r && r.base.toNat % 2 ^ 16 == 0 && r.limit.toNat % 2 ^ 16 == 0 && r.target.toNat % 2 ^ 16 == 0

/-- R498: the context that a request describes; bits 7 and 6 of a rights byte, which must be zero (R86), are kept and mean nothing (DESIGN CHOICE,
log 73). -/
def mgmtCtx (r : MgmtCreate) : Ctx :=
  { st := if r.running then .running else .created, prio := r.prio, scap := r.scap, order := r.order, base := r.base, trest := r.trest,
    deadline := r.deadline, slice := r.slice, budget := r.budget, shoff := r.shoff, shlen := r.shlen, cageoff := r.cageoff,
    ptroot := r.ptroot, seed := r.seed, dmask := r.dmask, ltol := r.ltol, chmap := r.chmap, svarea := r.svarea,
    ranges := sortBy (fun x => x.base.toNat) (r.ranges.map grantEntry), rights := r.rights.foldl (fun t p => tset t p.1 p.2) [] }

/-- R43, R47, R80, R96, R97, R337: a request that the management interface accepts; a share may be the whole scratchpad (R50), and R51 keeps
the cages out of it. -/
def State.mgmtOk (s : State) (c : Ctx) : Bool :=
  let n := 2 ^ c.order.toNat
  let all := (List.range 512).filter fun ch => c.chmap.getLsbD ch
  decide (6 ≤ c.order.toNat ∧ c.base.toNat % n = 0 ∧ c.base.toNat + n ≤ 512 * s.dies) && decide (1 ≤ c.scap.toNat ∧ c.scap.toNat ≤ 5) &&
  decide (1 ≤ c.shlen.toNat ∧ c.shoff.toNat + c.shlen.toNat ≤ 256 ∧ c.cageoff.toNat * 128 + 8 * 34816 ≤ 0x100000) &&
  c.svarea.toNat % 65536 == 0 && offControl c.svarea.toNat (saveLen c) && c.ptroot.toNat % 8192 == 0 &&
  decide (s.partitions.length < 64) && !(nodeDies c).any s.dieFailed &&
  all.all (fun ch => (nodeClusters c).contains ch && !s.dieFailed (ch / 64)) && tableOk c c.ranges &&
  s.partitions.all fun m =>
    let q := s.ctx m
    c.chmap &&& q.chmap == 0 && (m == 0 || q.depth != 0 || !nodesMeet q c)

/-- The queues of a depth-0 context: launch queue, dirty ring, and the fault queue that its request names. -/
def State.mgmtQueues (s : State) (n : Nat) (c : Ctx) (r : MgmtCreate) : Option (State × Ctx) := do
  let lr ← mgmtRing c r.lqring.toNat r.lqcap.toNat
  let dr ← mgmtRing c r.dqring.toNat r.dqcap.toNat
  let (lq, _, s) ← s.newQueue { ring := lr, cap := r.lqcap.toNat, launchOf := some n }
  let (dq, _, s) ← s.newQueue { ring := dr, cap := r.dqcap.toNat, ringOf := some n }
  let c := { c with lq := lq, dq := dq, queues := [lq, dq] }
  match r.fq with
  | none => some (s, c)
  | some (a, cap) =>
    let fr ← mgmtRing c a.toNat cap.toNat
    let (fq, _, s) ← s.newQueue { ring := fr, cap := cap.toNat }
    some (s, { c with fq := some fq, accept := 0xFFFFFFFFFFFFFFFF, queues := c.queues ++ [fq] })

/-- R346: no live partition's table has an entry whose target meets an entry's (DEDUCED, log 38). -/
def State.unshared (s : State) (r : Range) : Bool :=
  !s.ctxs.any fun x => s.isLive x.1 && x.2.ranges.any fun q =>
    overlap q.target.toNat (q.limit.toNat - q.base.toNat) r.target.toNat (r.limit.toNat - r.base.toNat)

/-- MGMT_CREATE_CONTEXT (R498, R43): a depth-0 context at the lowest free number (DESIGN CHOICE, log 85). -/
def evMgmtCreateContext (r : MgmtCreate) (s : State) : Option State :=
  let c := mgmtCtx r
  if !s.booted || !s.mgmtOk c then none
  else match lowest 4096 fun i => (tget s.ctxs i).isNone with
    | none => none
    | some n =>
      let gen := ((tget s.gens n).map (· + 1)).getD 0
      let pno := (lowest 64 fun k => s.partitions.all fun m => (s.ctx m).pno.toNat != k).getD 0
      let c := { c with gen := gen, pno := BitVec.ofNat 6 pno }
      match s.mgmtQueues n c r with
      | some (s, c) =>
        some ({ (s.newKey (c.ranges.filter s.unshared)).setCtx n c with gens := tset s.gens n gen, rintervals := tdel s.rintervals n, rareas := tdel s.rareas n }.fitNode c)
      | none => none

/-- MGMT_SET_ACCEPT (R498): bits of a depth-0 context's accept dword. -/
def evMgmtSetAccept (ctx : Nat) (mask : DWord) (set : Bool) (s : State) : Option State :=
  let c := s.ctx ctx
  if s.booted && s.isLive ctx && c.depth == 0 then
    some (s.setCtx ctx { c with accept := if set then c.accept ||| mask else c.accept &&& ~~~mask })
  else none

/-- PACKAGE_ID_ASSIGN (R351). -/
def evPackageIdAssign (id : BitVec 10) (s : State) : Option State := if s.booted then some { s with pkg := some id } else none

/-- ROUTE_TABLE_WRITE (R351). -/
def evRouteTableWrite (pkg : Nat) (mask : BitVec 128) (s : State) : Option State :=
  if s.booted && decide (pkg < 1024) then some { s with routes := tset s.routes pkg mask } else none

/-- EXPORT_TABLE_WRITE (R352): every other bit is zero. -/
def evExportTableWrite (idx : Nat) (d0 d1 d2 d3 : DWord) (s : State) : Option State :=
  if s.booted && decide (idx < 256) then
    some { s with exports := tset s.exports idx { d0 := d0 &&& 0xE000FFFFFFFF0FFF#64, d1 := dw (fld d1 43 0), d2 := dw (fld d2 43 0), d3 := d3 } }
  else none

/-- MGMT_RANGE_GRANT (R479): an entry of the services context's table. -/
def evMgmtRangeGrant (base limit target : BitVec 53) (rights : BitVec 6) (dt scrub : Bool) (s : State) : Option State :=
  let c := s.ctx 0
  let rs := sortBy (fun r => r.base.toNat) ({ base := base, limit := limit, target := target, dt := dt, scrub := scrub, rights := rights } :: c.ranges)
  if s.booted && s.isLive 0 && tableOk c rs then some (s.setCtx 0 { c with ranges := rs }) else none

end Sys2Proof.Machine
end

