-- ==== Sys2Proof/Machine/Registers.lean ====
section
/-! DEFINITION. What the registers of a host port's functions and of the management interface read as (R2, R337 to R339, R347, R348, R353,
R356, R397, R398, R447, R464, R475, R477, R481), where a read that clears is a step of its own, and the registers that the host writes (R13). -/
namespace Sys2Proof.Machine

/-- R398: the dwords of an error record. -/
def ErrRec.dword (r : ErrRec) : Nat → DWord
  | 0 => dw (r.sev.toNat * 2 ^ 56 + r.unit.toNat * 2 ^ 48 + r.loc.toNat * 2 ^ 32 + r.seq.toNat)
  | 1 => r.tick
  | 2 => r.wh
  | 3 => r.ctx
  | 4 => r.syn
  | 5 => dw (r.fclass.toNat * 256 + r.action.toNat)
  | 6 => r.count
  | _ => 0

/-- R356: the device information area. -/
def State.info (s : State) : Nat → DWord
  | 0 => 0x5156000800000001
  | 1 => dw ((match s.pkg with | some p => p.toNat | none => 0x3FF) * 2 ^ 32 + s.dies)
  | 2 => s.boot.version
  | 3 => 2096640
  | 4 => dw s.tick
  | _ => 0

/-- R481: a die's throttle block. -/
def Die.throttleDword (d : Die) : Nat → DWord
  | 0 => dw ((1200 - 60 * d.level.toNat) * 2 ^ 48 + d.cause.toNat * 2 ^ 40 + d.level.toNat * 2 ^ 32)
  | _ => d.thtick

/-- R475: BSTAT. -/
def Boot.bstat (b : Boot) : DWord :=
  dw (b.step.toNat * 2 ^ 60 + b.mode.toNat * 2 ^ 56 + b.cause.toNat * 2 ^ 48 + b.dead.toNat * 2 ^ 40 + b.svn.toNat)

/-- The value of a dword of PF BAR0 of a host port; none where the spec names no register, or where R476 refuses the access. -/
def State.pfRead (s : State) (port off : Nat) : Option DWord :=
  if 2 ≤ port ∨ off % 8 ≠ 0 then none
  else if off = 0x40000 then some s.boot.bstat
  else if off = 0x40008 then some s.boot.raddr
  else if off = 0x40010 then some s.boot.rlen
  else if off = 0x40018 then some 0
  else if !s.booted then none
  else if off < 0x1000 then some (s.info (off / 8))
  else if 0x10000 ≤ off ∧ off < 0x12000 then some (s.vf ((off - 0x10000) / 8)).bind
  else if 0x20000 ≤ off ∧ off < 0x30000 then
    some (match tget s.log.recs ((off - 0x20000) / 64) with | some r => r.dword ((off / 8) % 8) | none => 0)
  else if off = 0x30000 then some (dw (s.log.total * 2 ^ 32 + s.log.total % 1024))
  else if off = 0x30008 then some (s.log.tail.setWidth 64)
  else if off = 0x30010 then some (dw (s.log.lostOther.toNat * 2 ^ 32 + s.log.lostCorrected.toNat))
  else if off = 0x30018 then some ((s.host port).prdrop.setWidth 64)
  else if off = 0x30020 then some ((s.host port).prtime.setWidth 64)
  else if 0x50000 ≤ off ∧ off < 0x50000 + 512 * s.dies then some ((s.port ((off - 0x50000) / 32)).link.dword ((off / 8) % 4))
  else if 0x51000 ≤ off ∧ off < 0x51000 + 32 * s.dies then some ((s.dieOf ((off - 0x51000) / 32)).link.dword ((off / 8) % 4))
  else if 0x60000 ≤ off ∧ off < 0x60000 + 16 * s.dies then some ((s.dieOf ((off - 0x60000) / 16)).throttleDword ((off / 8) % 2))
  else none

/-- Half of a route mask. -/
def fld128 (m : BitVec 128) (half : Nat) : Nat := m.toNat / 2 ^ (64 * half) % 2 ^ 64

/-- R348: the value of a dword of BAR0 of a VF; one that is not bound reads 0 but for INFO. -/
def State.vfRead (s : State) (vf off : Nat) : Option DWord :=
  if 1024 ≤ vf ∨ off % 8 ≠ 0 ∨ !s.booted then none
  else if off < 0x1000 then some (s.info (off / 8))
  else match s.bound vf with
    | none => if off < 0x1028 then some 0 else none
    | some c =>
      if off = 0x1000 then some 0
      else if off = 0x1008 then some (dw (b2n (s.vf vf).lstat))
      else if off = 0x1010 then some (s.vf vf).winbase
      else if off = 0x1018 then some ((s.ctx (s.partitionOf c)).ltol.setWidth 64)
      else if off = 0x1020 then some (s.vf vf).bind
      else none

/-- R353: a dword of a port's ingest block, as the management interface reads it. -/
def State.ingestRead (s : State) (port k : Nat) : Option DWord :=
  if 16 * s.dies ≤ port ∨ 4 ≤ k then none else some ((s.port port).ing.toArray.getD k 0)

/-- What the management interface reads: the harvest grade (R2), the package ID and the routes (R351), the export table (R352), the ingest
blocks (R353), the records that a power loss saved (R482), and the structures of a live context (R337 to R339, R86, R93). -/
inductive MgmtItem
  | grade
  | package
  | route (pkg half : Nat)
  | exported (idx k : Nat)
  | saved (idx k : Nat)
  | ingest (port k : Nat)
  | control (ctx off : Nat)
  deriving DecidableEq, Repr

/-- R352: a dword of an export-table entry. -/
def Export.dword (e : Export) : Nat → DWord
  | 0 => e.d0
  | 1 => e.d1
  | 2 => e.d2
  | _ => e.d3

/-- R2, R13, R338, R339, R351 to R353, R482: a dword that the management interface reads; reading changes nothing. -/
def State.mgmtRead (s : State) (x : MgmtItem) : Option DWord :=
  if !s.booted then none
  else match x with
    | .grade => some (dw s.dies)
    | .package => some (dw (match s.pkg with | some p => p.toNat | none => 0x3FF))
    | .route pkg half => if 1024 ≤ pkg then none else some (dw (fld128 ((tget s.routes pkg).getD 0) half))
    | .exported idx k => if 256 ≤ idx ∨ 4 ≤ k then none else some (match tget s.exports idx with | some e => e.dword k | none => 0)
    | .ingest port k => s.ingestRead port k
    | .saved idx k => if 8 ≤ k then none else s.saved[idx]?.map fun r => r.dword k
    | .control ctx off => if s.isLive ctx && decide (off < 0x12000 ∧ off % 8 = 0) then some (s.controlDword ctx off) else none

/-- REGISTER_WRITE (R13, R349, R353, R395): a register that has no row of its own; RO registers ignore it. In recovery and halted modes only the
recovery registers answer (R476) (DEDUCED, log 69). -/
def evRegisterWrite (reg : HostReg) (v : DWord) (s : State) : Option State :=
  match reg with
  | .raddr => some { s with boot := { s.boot with raddr := dw (v.toNat / 4096 * 4096) } }
  | .rlen => some { s with boot := { s.boot with rlen := dw (v.toNat % 2 ^ 26) } }
  | .rctl _ => some s
  | .winbase vf =>
    if s.boot.mode = 0 ∧ (s.bound vf).isSome then some (s.setVf vf { s.vf vf with winbase := dw (fld v 55 36 * 2 ^ 36) }) else none
  | .eltail => if s.boot.mode = 0 then some { s with log := { s.log with tail := v.setWidth 10 } } else none
  | .prtime port => if s.boot.mode = 0 ∧ port < 2 then some (s.setHost port { s.host port with prtime := v.setWidth 32 }) else none
  | .priAlloc port => if s.boot.mode = 0 ∧ port < 2 then some (s.setHost port { s.host port with alloc := v.toNat % 2 ^ 32 }) else none
  | .interval part =>
    if s.boot.mode = 0 ∧ s.isLive part ∧ (s.ctx part).part then some { s with rintervals := tset s.rintervals part v.toNat } else none
  | .areaBase part =>
    if s.boot.mode = 0 ∧ s.isLive part ∧ (s.ctx part).part then
      some { s with rareas := tset s.rareas part (2 ^ 52 + v.toNat % 2 ^ 41 / 65536 * 65536, ((tget s.rareas part).map Prod.snd).getD 0) } else none
  | .areaLen part =>
    if s.boot.mode = 0 ∧ s.isLive part ∧ (s.ctx part).part then
      some { s with rareas := tset s.rareas part (((tget s.rareas part).map Prod.fst).getD (2 ^ 52), v.toNat % 2 ^ 41) } else none
  | .portReset port => evPortReset port s
  | .other _ => some s

end Sys2Proof.Machine
end

