-- ==== Sys2Proof/Machine/Events.lean ====
section
/-! DEFINITION. The meanings of the steps that have no encoding: one that is not enabled changes nothing. -/
namespace Sys2Proof.Machine

/-- A step of the part: what it leaves, or, where it cannot come about, the part as it stands. -/
def stepOrStay (f : State → Option State) (s : State) : Host.Outcome State Fault Refusal := .next ((f s).getD s)

/-- LONG_OP_BLOCK (R437). -/
def execLongOpBlock (core : Nat) (s : State) : Host.Outcome State Fault Refusal := stepOrStay (evLongOpBlock core) s
/-- FILL_WORD_UPDATE (R233). -/
def execFillWordUpdate (cl off : Nat) (s : State) : Host.Outcome State Fault Refusal := stepOrStay (evFillWordUpdate cl off) s
/-- QREG_ENQUEUE_DRAIN (R249). -/
def execQregEnqueueDrain (core : Nat) (q : BitVec 1) (s : State) : Host.Outcome State Fault Refusal :=
  stepOrStay (evQregEnqueueDrain core q) s
/-- QREG_FETCH_AHEAD (R249). -/
def execQregFetchAhead (core : Nat) (q : BitVec 1) (s : State) : Host.Outcome State Fault Refusal :=
  stepOrStay (evQregFetchAhead core q) s
/-- MATRIX_REQUEST_START (R303). -/
def execMatrixRequestStart (cl : Nat) (s : State) : Host.Outcome State Fault Refusal := stepOrStay (evMatrixRequestStart cl) s
/-- MATRIX_REQUEST_END (R303). -/
def execMatrixRequestEnd (cl : Nat) (s : State) : Host.Outcome State Fault Refusal := stepOrStay (evMatrixRequestEnd cl) s
/-- FORMAT_BUBBLE_END (R292). -/
def execFormatBubbleEnd (cl : Nat) (s : State) : Host.Outcome State Fault Refusal := stepOrStay (evFormatBubbleEnd cl) s
/-- ACCRD_DELIVER (R306). -/
def execAccrdDeliver (cl : Nat) (s : State) : Host.Outcome State Fault Refusal := stepOrStay (evAccrdDeliver cl) s
/-- COPY_ENGINE_START (R312). -/
def execCopyEngineStart (id : Nat) (s : State) : Host.Outcome State Fault Refusal := stepOrStay (evCopyEngineStart id) s
/-- COPY_LINE_WRITE (R124). -/
def execCopyLineWrite (id line : Nat) (s : State) : Host.Outcome State Fault Refusal := stepOrStay (evCopyLineWrite id line) s
/-- COPY_RELEASED (R313). -/
def execCopyReleased (id : Nat) (s : State) : Host.Outcome State Fault Refusal := stepOrStay (evCopyReleased id) s
/-- COPY_VISIBLE (R313). -/
def execCopyVisible (id : Nat) (s : State) : Host.Outcome State Fault Refusal := stepOrStay (evCopyVisible id) s
/-- STREAM_FETCH_AHEAD (R268). -/
def execStreamFetchAhead (core : Nat) (u : BitVec 2) (s : State) : Host.Outcome State Fault Refusal :=
  stepOrStay (evStreamFetchAhead core u) s
/-- STREAM_PUSH_STORE (R274). -/
def execStreamPushStore (core : Nat) (u : BitVec 2) (s : State) : Host.Outcome State Fault Refusal :=
  stepOrStay (evStreamPushStore core u) s
/-- REPLAY_WORD (R279). -/
def execReplayWord (core : Nat) (s : State) : Host.Outcome State Fault Refusal := stepOrStay (evReplayWord core) s
/-- ANSWER_ARRIVAL (R223). -/
def execAnswerArrival (id : Nat) (ans : Answer) (s : State) : Host.Outcome State Fault Refusal :=
  stepOrStay (evAnswerArrival id ans) s
/-- AGE_BOOST (R69). -/
def execAgeBoost (core entry : Nat) (s : State) : Host.Outcome State Fault Refusal := stepOrStay (evAgeBoost core entry) s
/-- MESSAGE_ARRIVAL (R244). -/
def execMessageArrival (m : MsgIn) (s : State) : Host.Outcome State Fault Refusal := stepOrStay (evMessageArrival m) s
/-- MESSAGE_RESEND (R242). -/
def execMessageResend (id : Nat) (s : State) : Host.Outcome State Fault Refusal := stepOrStay (evMessageResend id) s
/-- HANDLER_START (R67). -/
def execHandlerStart (core : Nat) (s : State) : Host.Outcome State Fault Refusal := stepOrStay (evHandlerStart core) s
/-- UPCALL_START (R422). -/
def execUpcallStart (core : Nat) (s : State) : Host.Outcome State Fault Refusal := stepOrStay (evUpcallStart core) s
/-- DISPATCHER_STEP (R321). -/
def execDispatcherStep (quad : Nat) (s : State) : Host.Outcome State Fault Refusal := stepOrStay (evDispatcherStep quad) s
/-- CREW_START (R325). -/
def execCrewStart (id : Nat) (s : State) : Host.Outcome State Fault Refusal := stepOrStay (evCrewStart id) s
/-- TIME_SLICE_EXPIRY (R329). -/
def execTimeSliceExpiry (cl ctx : Nat) (s : State) : Host.Outcome State Fault Refusal :=
  stepOrStay (evTimeSliceExpiry cl ctx) s
/-- CHECKPOINT_DEADLINE_EXPIRY (R72). -/
def execCheckpointDeadlineExpiry (cl ctx : Nat) (s : State) : Host.Outcome State Fault Refusal :=
  stepOrStay (evCheckpointDeadlineExpiry cl ctx) s
/-- CONTEXT_RESUME (R77). -/
def execContextResume (cl ctx : Nat) (s : State) : Host.Outcome State Fault Refusal := stepOrStay (evContextResume cl ctx) s
/-- PARKED_MESSAGE_MOVE_IN (R77). -/
def execParkedMessageMoveIn (core : Nat) (s : State) : Host.Outcome State Fault Refusal :=
  stepOrStay (evParkedMessageMoveIn core) s
/-- TIME_BASE_TICK (R10). -/
def execTimeBaseTick (s : State) : Host.Outcome State Fault Refusal := stepOrStay evTimeBaseTick s
/-- POWER_STATE_ENTRY (R39). -/
def execPowerStateEntry (part : Part) (s : State) : Host.Outcome State Fault Refusal := stepOrStay (evPowerStateEntry part) s
/-- WAKE_EVENT (R40). -/
def execWakeEvent (part : Part) (s : State) : Host.Outcome State Fault Refusal := stepOrStay (evWakeEvent part) s
/-- THROTTLE_STEP (R481). -/
def execThrottleStep (die : Nat) (s : State) : Host.Outcome State Fault Refusal := stepOrStay (evThrottleStep die) s
/-- HOME_GRANT (R119). -/
def execHomeGrant (id : Nat) (sharers : BitVec 8) (s : State) : Host.Outcome State Fault Refusal :=
  stepOrStay (evHomeGrant id sharers) s
/-- EF_INVALIDATION_LANDS (R120). -/
def execEfInvalidationLands (id die : Nat) (s : State) : Host.Outcome State Fault Refusal :=
  stepOrStay (evEfInvalidationLands id die) s
/-- INVALIDATION_RESEND (R450). -/
def execInvalidationResend (id die : Nat) (s : State) : Host.Outcome State Fault Refusal :=
  stepOrStay (evInvalidationResend id die) s
/-- ISOLATION_TIMEOUT (R450). -/
def execIsolationTimeout (id die : Nat) (s : State) : Host.Outcome State Fault Refusal :=
  stepOrStay (evIsolationTimeout id die) s
/-- FRAME_DELIVERY (R355). -/
def execFrameDelivery (port : Nat) (s : State) : Host.Outcome State Fault Refusal := stepOrStay (evFrameDelivery port) s
/-- PAGE_REQUEST_SEND (R349). -/
def execPageRequestSend (port : Nat) (s : State) : Host.Outcome State Fault Refusal := stepOrStay (evPageRequestSend port) s
/-- PAGE_REQUEST_TIMEOUT (R448). -/
def execPageRequestTimeout (port group : Nat) (s : State) : Host.Outcome State Fault Refusal :=
  stepOrStay (evPageRequestTimeout port group) s
/-- PARTITION_RESET (R393). -/
def execPartitionReset (p : ResetInput) (s : State) : Host.Outcome State Fault Refusal := stepOrStay (evPartitionReset p) s
/-- RESTART_POINT (R395). -/
def execRestartPoint (ctx : Nat) (s : State) : Host.Outcome State Fault Refusal := stepOrStay (evRestartPoint ctx) s
/-- FAULT_PACKET_ENQUEUE (R385). -/
def execFaultPacketEnqueue (quad : Nat) (s : State) : Host.Outcome State Fault Refusal :=
  stepOrStay (evFaultPacketEnqueue quad) s
/-- HELD_RECORD_FLUSH (R397). -/
def execHeldRecordFlush (s : State) : Host.Outcome State Fault Refusal := stepOrStay evHeldRecordFlush s
/-- ACCEPT_TABLE_WRITE (R388). -/
def execAcceptTableWrite (id : Nat) (s : State) : Host.Outcome State Fault Refusal := stepOrStay (evAcceptTableWrite id) s
/-- DEBUG_RELEASE (R389). -/
def execDebugRelease (id : Nat) (s : State) : Host.Outcome State Fault Refusal := stepOrStay (evDebugRelease id) s
/-- DEBUG_RETIRE (R389). -/
def execDebugRetire (id : Nat) (s : State) : Host.Outcome State Fault Refusal := stepOrStay (evDebugRetire id) s
/-- RETIRED_ENTRY_FREE (R389). -/
def execRetiredEntryFree (core entry : Nat) (s : State) : Host.Outcome State Fault Refusal :=
  stepOrStay (evRetiredEntryFree core entry) s
/-- DEBUG_MIRROR_WRITE (R389). -/
def execDebugMirrorWrite (id : Nat) (s : State) : Host.Outcome State Fault Refusal := stepOrStay (evDebugMirrorWrite id) s
/-- FLIT_REPLAY (R462). -/
def execFlitReplay (link : LinkName) (s : State) : Host.Outcome State Fault Refusal := stepOrStay (evFlitReplay link) s
/-- NOT_AN_INSTRUCTION (R401). -/
def execNotAnInstruction (reason wh : Nat) (s : State) : Host.Outcome State Fault Refusal :=
  stepOrStay (fun s => some (evNotAnInstruction reason wh s)) s
/-- INSTRUCTION_FETCH_FAULT (R442). -/
def execInstructionFetchFault (s : State) : Host.Outcome State Fault Refusal :=
  stepOrStay (fun s => some (evInstructionFetchFault s)) s
/-- STORE_COMPLETION (R120). -/
def execStoreCompletion (id : Nat) (res : PeerRes) (s : State) : Host.Outcome State Fault Refusal :=
  stepOrStay (evStoreCompletion id res) s
/-- ATS_TRANSLATION_COMPLETION (R349). -/
def execAtsTranslationCompletion (port page : Nat) (present : Bool) (s : State) : Host.Outcome State Fault Refusal :=
  stepOrStay (evAtsTranslationCompletion port page present) s
/-- THROTTLE_SIGNAL (R38). -/
def execThrottleSignal (die : Nat) (cause : BitVec 8) (target : BitVec 4) (s : State) : Host.Outcome State Fault Refusal :=
  stepOrStay (evThrottleSignal die cause target) s
/-- ISOLATION_REPORT (R450). -/
def execIsolationReport (id die : Nat) (s : State) : Host.Outcome State Fault Refusal :=
  stepOrStay (evIsolationReport id die) s
/-- FRAME_ARRIVAL (R354). -/
def execFrameArrival (port : Nat) (data : Bytes) (bad : Bool) (s : State) : Host.Outcome State Fault Refusal :=
  stepOrStay (evFrameArrival port data bad) s
/-- INGEST_CONFIG_WRITE (R353). -/
def execIngestConfigWrite (port dw : Nat) (v : BitVec 64) (s : State) : Host.Outcome State Fault Refusal :=
  stepOrStay (evIngestConfigWrite port dw v) s
/-- HOST_LAUNCH_WRITE (R348). -/
def execHostLaunchWrite (vf : Nat) (v : BitVec 64) (s : State) : Host.Outcome State Fault Refusal :=
  stepOrStay (evHostLaunchWrite vf v) s
/-- LSTAT_READ (R348). -/
def execLstatRead (vf : Nat) (s : State) : Host.Outcome State Fault Refusal := stepOrStay (evLstatRead vf) s
/-- LTOL_WRITE (R348). -/
def execLtolWrite (vf : Nat) (v : BitVec 64) (s : State) : Host.Outcome State Fault Refusal := stepOrStay (evLtolWrite vf v) s
/-- VF_BINDING_WRITE (R347). -/
def execVfBindingWrite (vf : Nat) (v : BitVec 64) (s : State) : Host.Outcome State Fault Refusal :=
  stepOrStay (evVfBindingWrite vf v) s
/-- HOST_BAR2_READ (R348). -/
def execHostBar2Read (vf off size : Nat) (s : State) : Host.Outcome State Fault Refusal :=
  stepOrStay (evHostBar2Read vf off size) s
/-- HOST_BAR2_WRITE (R134). -/
def execHostBar2Write (vf off : Nat) (data : Bytes) (relaxed poisoned : Bool) (s : State) : Host.Outcome State Fault Refusal :=
  stepOrStay (evHostBar2Write vf off data relaxed poisoned) s
/-- REGISTER_WRITE (R13). -/
def execRegisterWrite (reg : HostReg) (v : BitVec 64) (s : State) : Host.Outcome State Fault Refusal :=
  stepOrStay (evRegisterWrite reg v) s
/-- PAGE_RESPONSE (R448). -/
def execPageResponse (port group rid : Nat) (code : PriCode) (s : State) : Host.Outcome State Fault Refusal :=
  stepOrStay (evPageResponse port group rid code) s
/-- ATS_INVALIDATE_REQUEST (R349). -/
def execAtsInvalidateRequest (port page : Nat) (s : State) : Host.Outcome State Fault Refusal :=
  stepOrStay (evAtsInvalidateRequest port page) s
/-- PRI_ENABLE_TOGGLE (R448). -/
def execPriEnableToggle (rid : Nat) (s : State) : Host.Outcome State Fault Refusal := stepOrStay (evPriEnableToggle rid) s
/-- PRDROP_READ (R447). -/
def execPrdropRead (port : Nat) (s : State) : Host.Outcome State Fault Refusal := stepOrStay (evPrdropRead port) s
/-- PEER_PUSH_ARRIVAL (R352). -/
def execPeerPushArrival (push : PeerPush) (s : State) : Host.Outcome State Fault Refusal :=
  stepOrStay (evPeerPushArrival push) s
/-- MGMT_CREATE_CONTEXT (R498). -/
def execMgmtCreateContext (req : MgmtCreate) (s : State) : Host.Outcome State Fault Refusal :=
  stepOrStay (evMgmtCreateContext req) s
/-- MGMT_SET_ACCEPT (R498). -/
def execMgmtSetAccept (ctx : Nat) (mask : BitVec 64) (set : Bool) (s : State) : Host.Outcome State Fault Refusal :=
  stepOrStay (evMgmtSetAccept ctx mask set) s
/-- PACKAGE_ID_ASSIGN (R351). -/
def execPackageIdAssign (id : BitVec 10) (s : State) : Host.Outcome State Fault Refusal := stepOrStay (evPackageIdAssign id) s
/-- ROUTE_TABLE_WRITE (R351). -/
def execRouteTableWrite (pkg : Nat) (mask : BitVec 128) (s : State) : Host.Outcome State Fault Refusal :=
  stepOrStay (evRouteTableWrite pkg mask) s
/-- EXPORT_TABLE_WRITE (R352). -/
def execExportTableWrite (idx : Nat) (d0 d1 d2 d3 : BitVec 64) (s : State) : Host.Outcome State Fault Refusal :=
  stepOrStay (evExportTableWrite idx d0 d1 d2 d3) s
/-- MODULE_RESET (R357). -/
def execModuleReset (boot : BootInput) (s : State) : Host.Outcome State Fault Refusal := stepOrStay (evModuleReset boot) s
/-- RECOVERY_GO (R477). -/
def execRecoveryGo (port : Nat) (boot : BootInput) (s : State) : Host.Outcome State Fault Refusal :=
  stepOrStay (evRecoveryGo port boot) s
/-- RECOVERY_PROG (R477). -/
def execRecoveryProg (port : Nat) (boot : BootInput) (s : State) : Host.Outcome State Fault Refusal :=
  stepOrStay (evRecoveryProg port boot) s
/-- SVN_RAISE (R478). -/
def execSvnRaise (s : State) : Host.Outcome State Fault Refusal := stepOrStay evSvnRaise s
/-- SOFT_ERROR_DETECT (R377). -/
def execSoftErrorDetect (e : SoftError) (s : State) : Host.Outcome State Fault Refusal := stepOrStay (evSoftErrorDetect e) s
/-- SCRUB_READ (R378). -/
def execScrubRead (e : SoftError) (s : State) : Host.Outcome State Fault Refusal := stepOrStay (evScrubRead e) s
/-- ELLOST_READ (R397). -/
def execEllostRead (s : State) : Host.Outcome State Fault Refusal := stepOrStay evEllostRead s
/-- FLIT_RECEIVE (R462). -/
def execFlitReceive (link : LinkName) (flit : Flit) (s : State) : Host.Outcome State Fault Refusal :=
  stepOrStay (evFlitReceive link flit) s
/-- RETRAIN_COMPLETE (R463). -/
def execRetrainComplete (link : LinkName) (res : Retrain) (s : State) : Host.Outcome State Fault Refusal :=
  stepOrStay (evRetrainComplete link res) s
/-- LINK_COUNTER_READ (R464). -/
def execLinkCounterRead (link : LinkName) (dw : Nat) (s : State) : Host.Outcome State Fault Refusal :=
  stepOrStay (evLinkCounterRead link dw) s
/-- LINK_RETRAIN_COMMAND (R464). -/
def execLinkRetrainCommand (link : LinkName) (s : State) : Host.Outcome State Fault Refusal :=
  stepOrStay (evLinkRetrainCommand link) s
/-- HOST_LINK_DOWN (R469). -/
def execHostLinkDown (port : Nat) (s : State) : Host.Outcome State Fault Refusal := stepOrStay (evHostLinkDown port) s
/-- FUNCTION_LEVEL_RESET (R471). -/
def execFunctionLevelReset (fn : PcieFn) (s : State) : Host.Outcome State Fault Refusal :=
  stepOrStay (evFunctionLevelReset fn) s
/-- TRUST_DIE_ERROR (R480). -/
def execTrustDieError (s : State) : Host.Outcome State Fault Refusal := stepOrStay evTrustDieError s
/-- POWER_LOSS (R482). -/
def execPowerLoss (s : State) : Host.Outcome State Fault Refusal := stepOrStay evPowerLoss s
/-- HOST_LINK_UP (R469). -/
def execHostLinkUp (port : Nat) (s : State) : Host.Outcome State Fault Refusal := stepOrStay (evHostLinkUp port) s
/-- MGMT_RANGE_GRANT (R479). -/
def execMgmtRangeGrant (base limit target : BitVec 53) (rights : BitVec 6) (dt scrub : Bool) (s : State) : Host.Outcome State Fault Refusal :=
  stepOrStay (evMgmtRangeGrant base limit target rights dt scrub) s

end Sys2Proof.Machine
end

