-- ==== Sys2Proof/Machine/Meanings.lean ====
section
/-! DEFINITION. The meanings of the instructions that have an encoding: each is the unit that the word makes, alone or with the A
word of its pair (R161, R400), of the effect that its rule gives. -/
namespace Sys2Proof.Machine

/-- ADD (R187). -/
def execAdd (rd : Reg) (ra rb : Src) (w : Bool) (s : State) : Host.Outcome State Fault Refusal :=
  finish (.add rd ra rb w) (effAdd rd ra rb w) s
/-- SUB (R187). -/
def execSub (rd : Reg) (ra rb : Src) (w : Bool) (s : State) : Host.Outcome State Fault Refusal :=
  finish (.sub rd ra rb w) (effSub rd ra rb w) s
/-- MUL (R187). -/
def execMul (rd : Reg) (ra rb : Src) (w : Bool) (s : State) : Host.Outcome State Fault Refusal :=
  finish (.mul rd ra rb w) (effMul rd ra rb w) s
/-- MULH (R187). -/
def execMulh (rd : Reg) (ra rb : Src) (s : State) : Host.Outcome State Fault Refusal :=
  finish (.mulh rd ra rb) (effMulh rd ra rb) s
/-- MULHU (R187). -/
def execMulhu (rd : Reg) (ra rb : Src) (s : State) : Host.Outcome State Fault Refusal :=
  finish (.mulhu rd ra rb) (effMulhu rd ra rb) s
/-- DIV (R187). -/
def execDiv (rd : Reg) (ra rb : Src) (w : Bool) (s : State) : Host.Outcome State Fault Refusal :=
  finish (.div rd ra rb w) (effDiv rd ra rb w) s
/-- DIVU (R187). -/
def execDivu (rd : Reg) (ra rb : Src) (w : Bool) (s : State) : Host.Outcome State Fault Refusal :=
  finish (.divu rd ra rb w) (effDivu rd ra rb w) s
/-- REM (R187). -/
def execRem (rd : Reg) (ra rb : Src) (w : Bool) (s : State) : Host.Outcome State Fault Refusal :=
  finish (.rem rd ra rb w) (effRem rd ra rb w) s
/-- REMU (R187). -/
def execRemu (rd : Reg) (ra rb : Src) (w : Bool) (s : State) : Host.Outcome State Fault Refusal :=
  finish (.remu rd ra rb w) (effRemu rd ra rb w) s
/-- AND (R187). -/
def execAnd (rd : Reg) (ra rb : Src) (s : State) : Host.Outcome State Fault Refusal :=
  finish (.and rd ra rb) (effAnd rd ra rb) s
/-- OR (R187). -/
def execOr (rd : Reg) (ra rb : Src) (s : State) : Host.Outcome State Fault Refusal := finish (.or rd ra rb) (effOr rd ra rb) s
/-- XOR (R187). -/
def execXor (rd : Reg) (ra rb : Src) (s : State) : Host.Outcome State Fault Refusal :=
  finish (.xor rd ra rb) (effXor rd ra rb) s
/-- SHL (R187). -/
def execShl (rd : Reg) (ra rb : Src) (w : Bool) (s : State) : Host.Outcome State Fault Refusal :=
  finish (.shl rd ra rb w) (effShl rd ra rb w) s
/-- SHR (R187). -/
def execShr (rd : Reg) (ra rb : Src) (w : Bool) (s : State) : Host.Outcome State Fault Refusal :=
  finish (.shr rd ra rb w) (effShr rd ra rb w) s
/-- SRA (R187). -/
def execSra (rd : Reg) (ra rb : Src) (w : Bool) (s : State) : Host.Outcome State Fault Refusal :=
  finish (.sra rd ra rb w) (effSra rd ra rb w) s
/-- MIN (R187). -/
def execMin (rd : Reg) (ra rb : Src) (s : State) : Host.Outcome State Fault Refusal :=
  finish (.min rd ra rb) (effMin rd ra rb) s
/-- MAX (R187). -/
def execMax (rd : Reg) (ra rb : Src) (s : State) : Host.Outcome State Fault Refusal :=
  finish (.max rd ra rb) (effMax rd ra rb) s
/-- MINU (R187). -/
def execMinu (rd : Reg) (ra rb : Src) (s : State) : Host.Outcome State Fault Refusal :=
  finish (.minu rd ra rb) (effMinu rd ra rb) s
/-- MAXU (R187). -/
def execMaxu (rd : Reg) (ra rb : Src) (s : State) : Host.Outcome State Fault Refusal :=
  finish (.maxu rd ra rb) (effMaxu rd ra rb) s
/-- ADDS (R187). -/
def execAdds (rd : Reg) (ra rb : Src) (s : State) : Host.Outcome State Fault Refusal :=
  finish (.adds rd ra rb) (effAdds rd ra rb) s
/-- SUBS (R187). -/
def execSubs (rd : Reg) (ra rb : Src) (s : State) : Host.Outcome State Fault Refusal :=
  finish (.subs rd ra rb) (effSubs rd ra rb) s
/-- CLZ (R187). -/
def execClz (rd : Reg) (ra : Src) (s : State) : Host.Outcome State Fault Refusal := finish (.clz rd ra) (effClz rd ra) s
/-- CTZ (R187). -/
def execCtz (rd : Reg) (ra : Src) (s : State) : Host.Outcome State Fault Refusal := finish (.ctz rd ra) (effCtz rd ra) s
/-- POPC (R187). -/
def execPopc (rd : Reg) (ra : Src) (s : State) : Host.Outcome State Fault Refusal := finish (.popc rd ra) (effPopc rd ra) s
/-- ADDI (R189). -/
def execAddi (rd : Reg) (ra : Src) (imm : BitVec 13) (s : State) : Host.Outcome State Fault Refusal :=
  finish (.addi rd ra imm) (effAddi rd ra imm) s
/-- ANDI (R189). -/
def execAndi (rd : Reg) (ra : Src) (imm : BitVec 13) (s : State) : Host.Outcome State Fault Refusal :=
  finish (.andi rd ra imm) (effAndi rd ra imm) s
/-- ORI (R189). -/
def execOri (rd : Reg) (ra : Src) (imm : BitVec 13) (s : State) : Host.Outcome State Fault Refusal :=
  finish (.ori rd ra imm) (effOri rd ra imm) s
/-- XORI (R189). -/
def execXori (rd : Reg) (ra : Src) (imm : BitVec 13) (s : State) : Host.Outcome State Fault Refusal :=
  finish (.xori rd ra imm) (effXori rd ra imm) s
/-- SHLI (R190). -/
def execShli (rd : Reg) (ra : Src) (w : Bool) (amount : BitVec 6) (s : State) : Host.Outcome State Fault Refusal :=
  finish (.shli rd ra w amount) (effShli rd ra w amount) s
/-- SHRI (R190). -/
def execShri (rd : Reg) (ra : Src) (w : Bool) (amount : BitVec 6) (s : State) : Host.Outcome State Fault Refusal :=
  finish (.shri rd ra w amount) (effShri rd ra w amount) s
/-- SRAI (R190). -/
def execSrai (rd : Reg) (ra : Src) (w : Bool) (amount : BitVec 6) (s : State) : Host.Outcome State Fault Refusal :=
  finish (.srai rd ra w amount) (effSrai rd ra w amount) s
/-- LI (R191). -/
def execLi (rd : Reg) (q : BitVec 2) (imm : BitVec 16) (s : State) : Host.Outcome State Fault Refusal :=
  finish (.li rd q imm) (effLi rd q imm) s
/-- LIK (R191). -/
def execLik (rd : Reg) (q : BitVec 2) (imm : BitVec 16) (s : State) : Host.Outcome State Fault Refusal :=
  finish (.lik rd q imm) (effLik rd q imm) s
/-- LEA (R192). -/
def execLea (rt : Reg) (m : MemOp) (s : State) : Host.Outcome State Fault Refusal := finish (.lea rt m) (effLea rt m) s
/-- CMP (R193). -/
def execCmp (pd : BitVec 3) (c : CmpCond) (cb : Combine) (ra rb : Src) (s : State) : Host.Outcome State Fault Refusal :=
  finish (.cmp pd c cb ra rb) (effCmp pd c cb ra rb) s
/-- CMPI (R194). -/
def execCmpi (pd : BitVec 3) (c : CmpCond) (ra : Src) (imm : BitVec 9) (s : State) : Host.Outcome State Fault Refusal :=
  finish (.cmpi pd c ra imm) (effCmpi pd c ra imm) s
/-- PAND (R195). -/
def execPand (pd : BitVec 3) (pa pb : BitVec 4) (s : State) : Host.Outcome State Fault Refusal :=
  finish (.pand pd pa pb) (effPand pd pa pb) s
/-- POR (R195). -/
def execPor (pd : BitVec 3) (pa pb : BitVec 4) (s : State) : Host.Outcome State Fault Refusal :=
  finish (.por pd pa pb) (effPor pd pa pb) s
/-- PXOR (R195). -/
def execPxor (pd : BitVec 3) (pa pb : BitVec 4) (s : State) : Host.Outcome State Fault Refusal :=
  finish (.pxor pd pa pb) (effPxor pd pa pb) s
/-- PANDN (R195). -/
def execPandn (pd : BitVec 3) (pa pb : BitVec 4) (s : State) : Host.Outcome State Fault Refusal :=
  finish (.pandn pd pa pb) (effPandn pd pa pb) s
/-- PNOT (R195). -/
def execPnot (pd : BitVec 3) (pa : BitVec 4) (s : State) : Host.Outcome State Fault Refusal :=
  finish (.pnot pd pa) (effPnot pd pa) s
/-- PSET (R195). -/
def execPset (pd : BitVec 3) (s : State) : Host.Outcome State Fault Refusal := finish (.pset pd) (effPset pd) s
/-- PCLR (R195). -/
def execPclr (pd : BitVec 3) (s : State) : Host.Outcome State Fault Refusal := finish (.pclr pd) (effPclr pd) s
/-- PRD (R195). -/
def execPrd (rd : Reg) (s : State) : Host.Outcome State Fault Refusal := finish (.prd rd) (effPrd rd) s
/-- PWR (R195). -/
def execPwr (ra : Src) (s : State) : Host.Outcome State Fault Refusal := finish (.pwr ra) (effPwr ra) s
/-- CSEL (R196). -/
def execCsel (rd : Reg) (pn : BitVec 4) (ra rb : Src) (s : State) : Host.Outcome State Fault Refusal :=
  finish (.csel rd pn ra rb) (effCsel rd pn ra rb) s
/-- CSELN (R196). -/
def execCseln (rd : Reg) (pn : BitVec 4) (ra rb : Src) (s : State) : Host.Outcome State Fault Refusal :=
  finish (.cseln rd pn ra rb) (effCseln rd pn ra rb) s
/-- BR (R197). -/
def execBr (disp : BitVec 19) (s : State) : Host.Outcome State Fault Refusal := finish (.br disp) (effBr disp) s
/-- BP (R197). -/
def execBp (pn : BitVec 4) (disp : BitVec 19) (s : State) : Host.Outcome State Fault Refusal :=
  finish (.bp pn disp) (effBp pn disp) s
/-- BPN (R197). -/
def execBpn (pn : BitVec 4) (disp : BitVec 19) (s : State) : Host.Outcome State Fault Refusal :=
  finish (.bpn pn disp) (effBpn pn disp) s
/-- CALL (R197). -/
def execCall (rd : Reg) (disp : BitVec 19) (s : State) : Host.Outcome State Fault Refusal :=
  finish (.call rd disp) (effCall rd disp) s
/-- JR (R198). -/
def execJr (ra : Src) (s : State) : Host.Outcome State Fault Refusal := finish (.jr ra) (effJr ra) s
/-- CALLR (R198). -/
def execCallr (rd : Reg) (ra : Src) (s : State) : Host.Outcome State Fault Refusal := finish (.callr rd ra) (effCallr rd ra) s
/-- RET (R198). -/
def execRet (ra : Src) (s : State) : Host.Outcome State Fault Refusal := finish (.ret ra) (effRet ra) s
/-- LPSET_0 (R200). -/
def execLpset0 (count disp : BitVec 12) (s : State) : Host.Outcome State Fault Refusal :=
  finish (.lpset0 count disp) (effLpset0 count disp) s
/-- LPSET_1 (R200). -/
def execLpset1 (count disp : BitVec 12) (s : State) : Host.Outcome State Fault Refusal :=
  finish (.lpset1 count disp) (effLpset1 count disp) s
/-- LPSETR_0 (R200). -/
def execLpsetr0 (rc : Src) (disp : BitVec 12) (s : State) : Host.Outcome State Fault Refusal :=
  finish (.lpsetr0 rc disp) (effLpsetr0 rc disp) s
/-- LPSETR_1 (R200). -/
def execLpsetr1 (rc : Src) (disp : BitVec 12) (s : State) : Host.Outcome State Fault Refusal :=
  finish (.lpsetr1 rc disp) (effLpsetr1 rc disp) s
/-- SPAWN (R204). -/
def execSpawn (rd : Reg) (ra : Src) (level : BitVec 2) (s : State) : Host.Outcome State Fault Refusal :=
  finish (.spawn rd ra level) (effSpawn rd ra level) s
/-- YIELD (R205). -/
def execYield (s : State) : Host.Outcome State Fault Refusal := finish .yield effYield s
/-- EXIT (R206). -/
def execExit (s : State) : Host.Outcome State Fault Refusal := finish .exit effExit s
/-- SYS (R207). -/
def execSys (num : BitVec 12) (s : State) : Host.Outcome State Fault Refusal := finish (.sys num) (effSys num) s
/-- BRK (R207). -/
def execBrk (num : BitVec 12) (s : State) : Host.Outcome State Fault Refusal := finish (.brk num) (effBrk num) s
/-- MFS (R208). -/
def execMfs (rd : Reg) (spr : BitVec 13) (s : State) : Host.Outcome State Fault Refusal :=
  finish (.mfs rd spr) (effMfs rd spr) s
/-- MTS (R208). -/
def execMts (spr : BitVec 13) (ra : Src) (s : State) : Host.Outcome State Fault Refusal :=
  finish (.mts spr ra) (effMts spr ra) s
/-- IFENCE (R130). -/
def execIfence (s : State) : Host.Outcome State Fault Refusal := finish .ifence effIfence s
/-- CKPT (R210). -/
def execCkpt (ra : Src) (s : State) : Host.Outcome State Fault Refusal := finish (.ckpt ra) (effCkpt ra) s
/-- WFE (R211). -/
def execWfe (rd : Reg) (mask : BitVec 8) (s : State) : Host.Outcome State Fault Refusal :=
  finish (.wfe rd mask) (effWfe rd mask) s
/-- CTXNEW (R216). -/
def execCtxnew (rd : Reg) (ra : Src) (s : State) : Host.Outcome State Fault Refusal :=
  finish (.ctxnew rd ra) (effCtxnew rd ra) s
/-- CTXGRANT (R217). -/
def execCtxgrant (rd : Reg) (ra rb : Src) (s : State) : Host.Outcome State Fault Refusal :=
  finish (.ctxgrant rd ra rb) (effCtxgrant rd ra rb) s
/-- CTXREVOKE (R220). -/
def execCtxrevoke (rd : Reg) (ra : Src) (tk : BitVec 3) (s : State) : Host.Outcome State Fault Refusal :=
  finish (.ctxrevoke rd ra tk) (effCtxrevoke rd ra tk) s
/-- CTXSTART (R218). -/
def execCtxstart (rd : Reg) (ra : Src) (s : State) : Host.Outcome State Fault Refusal :=
  finish (.ctxstart rd ra) (effCtxstart rd ra) s
/-- CTXSTOP (R218). -/
def execCtxstop (rd : Reg) (ra : Src) (tk : BitVec 3) (s : State) : Host.Outcome State Fault Refusal :=
  finish (.ctxstop rd ra tk) (effCtxstop rd ra tk) s
/-- CTXSAVE (R219). -/
def execCtxsave (rd : Reg) (ra rb : Src) (tk : BitVec 3) (s : State) : Host.Outcome State Fault Refusal :=
  finish (.ctxsave rd ra rb tk) (effCtxsave rd ra rb tk) s
/-- CTXLOAD (R219). -/
def execCtxload (rd : Reg) (ra rb : Src) (tk : BitVec 3) (s : State) : Host.Outcome State Fault Refusal :=
  finish (.ctxload rd ra rb tk) (effCtxload rd ra rb tk) s
/-- CTXINFO (R221). -/
def execCtxinfo (rd : Reg) (ra rb : Src) (s : State) : Host.Outcome State Fault Refusal :=
  finish (.ctxinfo rd ra rb) (effCtxinfo rd ra rb) s
/-- REFLECT (R222). -/
def execReflect (rd : Reg) (ra : Src) (s : State) : Host.Outcome State Fault Refusal :=
  finish (.reflect rd ra) (effReflect rd ra) s
/-- LD_B (R224). -/
def execLdB (rt : Reg) (m : MemOp) (sc : Scope) (s : State) : Host.Outcome State Fault Refusal :=
  finish (.ldB rt m sc) (effLdB rt m sc) s
/-- LD_BU (R224). -/
def execLdBu (rt : Reg) (m : MemOp) (sc : Scope) (s : State) : Host.Outcome State Fault Refusal :=
  finish (.ldBu rt m sc) (effLdBu rt m sc) s
/-- LD_H (R224). -/
def execLdH (rt : Reg) (m : MemOp) (sc : Scope) (s : State) : Host.Outcome State Fault Refusal :=
  finish (.ldH rt m sc) (effLdH rt m sc) s
/-- LD_HU (R224). -/
def execLdHu (rt : Reg) (m : MemOp) (sc : Scope) (s : State) : Host.Outcome State Fault Refusal :=
  finish (.ldHu rt m sc) (effLdHu rt m sc) s
/-- LD_W (R224). -/
def execLdW (rt : Reg) (m : MemOp) (sc : Scope) (s : State) : Host.Outcome State Fault Refusal :=
  finish (.ldW rt m sc) (effLdW rt m sc) s
/-- LD_WU (R224). -/
def execLdWu (rt : Reg) (m : MemOp) (sc : Scope) (s : State) : Host.Outcome State Fault Refusal :=
  finish (.ldWu rt m sc) (effLdWu rt m sc) s
/-- LD_D (R224). -/
def execLdD (rt : Reg) (m : MemOp) (sc : Scope) (s : State) : Host.Outcome State Fault Refusal :=
  finish (.ldD rt m sc) (effLdD rt m sc) s
/-- LDV (R226). -/
def execLdv (rt : Reg) (m : MemOp) (sc : Scope) (s : State) : Host.Outcome State Fault Refusal :=
  finish (.ldv rt m sc) (effLdv rt m sc) s
/-- ST_B (R225). -/
def execStB (m : MemOp) (rt : Src) (sc : Scope) (md : StMode) (s : State) : Host.Outcome State Fault Refusal :=
  finish (.stB m rt sc md) (effStB m rt sc md) s
/-- ST_H (R225). -/
def execStH (m : MemOp) (rt : Src) (sc : Scope) (md : StMode) (s : State) : Host.Outcome State Fault Refusal :=
  finish (.stH m rt sc md) (effStH m rt sc md) s
/-- ST_W (R225). -/
def execStW (m : MemOp) (rt : Src) (sc : Scope) (md : StMode) (s : State) : Host.Outcome State Fault Refusal :=
  finish (.stW m rt sc md) (effStW m rt sc md) s
/-- ST_D (R225). -/
def execStD (m : MemOp) (rt : Src) (sc : Scope) (md : StMode) (s : State) : Host.Outcome State Fault Refusal :=
  finish (.stD m rt sc md) (effStD m rt sc md) s
/-- STV (R226). -/
def execStv (m : MemOp) (rt : Src) (sc : Scope) (md : StMode) (s : State) : Host.Outcome State Fault Refusal :=
  finish (.stv m rt sc md) (effStv m rt sc md) s
/-- AMO (R227). -/
def execAmo (op : AmoOp) (rd : Reg) (ra rb : Src) (sc : Scope) (s : State) : Host.Outcome State Fault Refusal :=
  finish (.amo op rd ra rb sc) (effAmo op rd ra rb sc) s
/-- CAS (R228). -/
def execCas (rd : Reg) (ra rb : Src) (sc : Scope) (s : State) : Host.Outcome State Fault Refusal :=
  finish (.cas rd ra rb sc) (effCas rd ra rb sc) s
/-- FENCE (R229). -/
def execFence (sc : Scope) (s : State) : Host.Outcome State Fault Refusal := finish (.fence sc) (effFence sc) s
/-- FENCE_W (R230). -/
def execFenceW (sc : Scope) (s : State) : Host.Outcome State Fault Refusal := finish (.fenceW sc) (effFenceW sc) s
/-- SYNCINIT (R234). -/
def execSyncinit (rd : Reg) (ra : Src) (s : State) : Host.Outcome State Fault Refusal :=
  finish (.syncinit rd ra) (effSyncinit rd ra) s
/-- SYNCARR (R234). -/
def execSyncarr (rd : Reg) (ra : Src) (s : State) : Host.Outcome State Fault Refusal :=
  finish (.syncarr rd ra) (effSyncarr rd ra) s
/-- SYNCWAIT (R234). -/
def execSyncwait (rd : Reg) (ra : Src) (s : State) : Host.Outcome State Fault Refusal :=
  finish (.syncwait rd ra) (effSyncwait rd ra) s
/-- WAITT (R236). -/
def execWaitt (mask : BitVec 8) (s : State) : Host.Outcome State Fault Refusal := finish (.waitt mask) (effWaitt mask) s
/-- WAITANY (R237). -/
def execWaitany (rd : Reg) (mask : BitVec 8) (s : State) : Host.Outcome State Fault Refusal :=
  finish (.waitany rd mask) (effWaitany rd mask) s
/-- WAITANY_F (R238). -/
def execWaitanyF (rd : Reg) (ra : Src) (mask : BitVec 8) (s : State) : Host.Outcome State Fault Refusal :=
  finish (.waitanyF rd ra mask) (effWaitanyF rd ra mask) s
/-- SENDM (R241). -/
def execSendm (rd : Reg) (ra rb : Src) (s : State) : Host.Outcome State Fault Refusal :=
  finish (.sendm rd ra rb) (effSendm rd ra rb) s
/-- REPLY (R247). -/
def execReply (ra rb : Src) (s : State) : Host.Outcome State Fault Refusal := finish (.reply ra rb) (effReply ra rb) s
/-- TAGCTL_LD (R246). -/
def execTagctlLd (ra : Src) (tag : BitVec 8) (s : State) : Host.Outcome State Fault Refusal :=
  finish (.tagctlLd ra tag) (effTagctlLd ra tag) s
/-- TAGCTL_EN (R246). -/
def execTagctlEn (tag : BitVec 8) (s : State) : Host.Outcome State Fault Refusal := finish (.tagctlEn tag) (effTagctlEn tag) s
/-- TAGCTL_DIS (R246). -/
def execTagctlDis (tag : BitVec 8) (s : State) : Host.Outcome State Fault Refusal :=
  finish (.tagctlDis tag) (effTagctlDis tag) s
/-- TAGCTL_PON (R246). -/
def execTagctlPon (tag : BitVec 8) (s : State) : Host.Outcome State Fault Refusal :=
  finish (.tagctlPon tag) (effTagctlPon tag) s
/-- TAGCTL_POFF (R246). -/
def execTagctlPoff (tag : BitVec 8) (s : State) : Host.Outcome State Fault Refusal :=
  finish (.tagctlPoff tag) (effTagctlPoff tag) s
/-- TAGCTL_RD (R246). -/
def execTagctlRd (rd : Reg) (tag : BitVec 8) (s : State) : Host.Outcome State Fault Refusal :=
  finish (.tagctlRd rd tag) (effTagctlRd rd tag) s
/-- QENQ (R248). -/
def execQenq (ra rb : Src) (pn : BitVec 3) (s : State) : Host.Outcome State Fault Refusal :=
  finish (.qenq ra rb pn) (effQenq ra rb pn) s
/-- QDEQ (R248). -/
def execQdeq (rd : Reg) (ra : Src) (pn : BitVec 3) (s : State) : Host.Outcome State Fault Refusal :=
  finish (.qdeq rd ra pn) (effQdeq rd ra pn) s
/-- QSTEAL (R248). -/
def execQsteal (rd : Reg) (ra : Src) (pn : BitVec 3) (s : State) : Host.Outcome State Fault Refusal :=
  finish (.qsteal rd ra pn) (effQsteal rd ra pn) s
/-- QENQ_BIND (R249). -/
def execQenqBind (q : BitVec 1) (ra : Src) (s : State) : Host.Outcome State Fault Refusal :=
  finish (.qenqBind q ra) (effQenqBind q ra) s
/-- QDEQ_BIND (R249). -/
def execQdeqBind (q : BitVec 1) (ra : Src) (s : State) : Host.Outcome State Fault Refusal :=
  finish (.qdeqBind q ra) (effQdeqBind q ra) s
/-- QSTEAL_BIND (R249). -/
def execQstealBind (q : BitVec 1) (ra : Src) (s : State) : Host.Outcome State Fault Refusal :=
  finish (.qstealBind q ra) (effQstealBind q ra) s
/-- PF (R253). -/
def execPf (m : MemOp) (s : State) : Host.Outcome State Fault Refusal := finish (.pf m) (effPf m) s
/-- PF_L2 (R253). -/
def execPfL2 (m : MemOp) (s : State) : Host.Outcome State Fault Refusal := finish (.pfL2 m) (effPfL2 m) s
/-- QPOP (R250). -/
def execQpop (rd : Reg) (q : BitVec 3) (fa : Bool) (s : State) : Host.Outcome State Fault Refusal :=
  finish (.qpop rd q fa) (effQpop rd q fa) s
/-- QPUSH (R250). -/
def execQpush (q : BitVec 3) (fa : Bool) (rb : Src) (s : State) : Host.Outcome State Fault Refusal :=
  finish (.qpush q fa rb) (effQpush q fa rb) s
/-- QPOPV (R250). -/
def execQpopv (rd : Reg) (q : BitVec 3) (fa : Bool) (s : State) : Host.Outcome State Fault Refusal :=
  finish (.qpopv rd q fa) (effQpopv rd q fa) s
/-- QPUSHV (R250). -/
def execQpushv (q : BitVec 3) (fa : Bool) (rb : Src) (s : State) : Host.Outcome State Fault Refusal :=
  finish (.qpushv q fa rb) (effQpushv q fa rb) s
/-- MMA (R302). -/
def execMma (c : BitVec 4) (ha hb : BitVec 3) (k : BitVec 5) (s : State) : Host.Outcome State Fault Refusal :=
  finish (.mma c ha hb k) (effMma c ha hb k) s
/-- MMAS (R302). -/
def execMmas (c : BitVec 4) (ha hb : BitVec 3) (k : BitVec 5) (s : State) : Host.Outcome State Fault Refusal :=
  finish (.mmas c ha hb k) (effMmas c ha hb k) s
/-- MMAC (R302). -/
def execMmac (c src : BitVec 4) (hb : BitVec 3) (k : BitVec 5) (s : State) : Host.Outcome State Fault Refusal :=
  finish (.mmac c src hb k) (effMmac c src hb k) s
/-- MXFMT (R291). -/
def execMxfmt (sat : Bool) (fa fb fd : BitVec 4) (s : State) : Host.Outcome State Fault Refusal :=
  finish (.mxfmt sat fa fb fd) (effMxfmt sat fa fb fd) s
/-- ACCZ (R305). -/
def execAccz (t : BitVec 4) (s : State) : Host.Outcome State Fault Refusal := finish (.accz t) (effAccz t) s
/-- ACCRD (R306). -/
def execAccrd (t : BitVec 4) (ra : Src) (s : State) : Host.Outcome State Fault Refusal :=
  finish (.accrd t ra) (effAccrd t ra) s
/-- ACCDC (R307). -/
def execAccdc (t : BitVec 4) (hd : BitVec 3) (w : BitVec 5) (s : State) : Host.Outcome State Fault Refusal :=
  finish (.accdc t hd w) (effAccdc t hd w) s
/-- HLD (R296). -/
def execHld (ht : BitVec 3) (m : MemOp) (sc : Scope) (s : State) : Host.Outcome State Fault Refusal :=
  finish (.hld ht m sc) (effHld ht m sc) s
/-- HST (R296). -/
def execHst (m : MemOp) (ht : BitVec 3) (sc : Scope) (md : StMode) (s : State) : Host.Outcome State Fault Refusal :=
  finish (.hst m ht sc md) (effHst m ht sc md) s
/-- HSET (R297). -/
def execHset (hd idx : BitVec 3) (rb : Src) (s : State) : Host.Outcome State Fault Refusal :=
  finish (.hset hd idx rb) (effHset hd idx rb) s
/-- HGET (R297). -/
def execHget (rd : Reg) (hs idx : BitVec 3) (s : State) : Host.Outcome State Fault Refusal :=
  finish (.hget rd hs idx) (effHget rd hs idx) s
/-- HGAT (R298). -/
def execHgat (rd : Reg) (hs : BitVec 3) (rb : Src) (m : BitVec 3) (s : State) : Host.Outcome State Fault Refusal :=
  finish (.hgat rd hs rb m) (effHgat rd hs rb m) s
/-- HSCA (R299). -/
def execHsca (op : ScatOp) (hd : BitVec 3) (ra rb : Src) (m : BitVec 3) (s : State) : Host.Outcome State Fault Refusal :=
  finish (.hsca op hd ra rb m) (effHsca op hd ra rb m) s
/-- SEMWAIT (R287). -/
def execSemwait (n : BitVec 4) (s : State) : Host.Outcome State Fault Refusal := finish (.semwait n) (effSemwait n) s
/-- SEMPOST (R287). -/
def execSempost (n : BitVec 4) (cnt : BitVec 6) (s : State) : Host.Outcome State Fault Refusal :=
  finish (.sempost n cnt) (effSempost n cnt) s
/-- COPY (R312). -/
def execCopy (rd : Reg) (ra rb : Src) (sc : Scope) (s : State) : Host.Outcome State Fault Refusal :=
  finish (.copy rd ra rb sc) (effCopy rd ra rb sc) s
/-- COPYM (R314). -/
def execCopym (rd : Reg) (ra rb : Src) (sc : Scope) (s : State) : Host.Outcome State Fault Refusal :=
  finish (.copym rd ra rb sc) (effCopym rd ra rb sc) s
/-- COPYX (R315). -/
def execCopyx (rd : Reg) (ra rb : Src) (sc : Scope) (s : State) : Host.Outcome State Fault Refusal :=
  finish (.copyx rd ra rb sc) (effCopyx rd ra rb sc) s
/-- VADD (R255). -/
def execVadd (d : Reg) (a b : Src) (m : BitVec 3) (t : Fmt) (s : State) : Host.Outcome State Fault Refusal :=
  finish (.vadd d a b m t) (effVadd d a b m t) s
/-- VSUB (R255). -/
def execVsub (d : Reg) (a b : Src) (m : BitVec 3) (t : Fmt) (s : State) : Host.Outcome State Fault Refusal :=
  finish (.vsub d a b m t) (effVsub d a b m t) s
/-- VMUL (R255). -/
def execVmul (d : Reg) (a b : Src) (m : BitVec 3) (t : Fmt) (s : State) : Host.Outcome State Fault Refusal :=
  finish (.vmul d a b m t) (effVmul d a b m t) s
/-- VDIV (R255). -/
def execVdiv (d : Reg) (a b : Src) (m : BitVec 3) (t : Fmt) (s : State) : Host.Outcome State Fault Refusal :=
  finish (.vdiv d a b m t) (effVdiv d a b m t) s
/-- VMIN (R255). -/
def execVmin (d : Reg) (a b : Src) (m : BitVec 3) (t : Fmt) (s : State) : Host.Outcome State Fault Refusal :=
  finish (.vmin d a b m t) (effVmin d a b m t) s
/-- VMAX (R255). -/
def execVmax (d : Reg) (a b : Src) (m : BitVec 3) (t : Fmt) (s : State) : Host.Outcome State Fault Refusal :=
  finish (.vmax d a b m t) (effVmax d a b m t) s
/-- VSQRT (R255). -/
def execVsqrt (d : Reg) (a : Src) (m : BitVec 3) (t : Fmt) (s : State) : Host.Outcome State Fault Refusal :=
  finish (.vsqrt d a m t) (effVsqrt d a m t) s
/-- VAND (R255). -/
def execVand (d : Reg) (a b : Src) (m : BitVec 3) (t : Fmt) (s : State) : Host.Outcome State Fault Refusal :=
  finish (.vand d a b m t) (effVand d a b m t) s
/-- VOR (R255). -/
def execVor (d : Reg) (a b : Src) (m : BitVec 3) (t : Fmt) (s : State) : Host.Outcome State Fault Refusal :=
  finish (.vor d a b m t) (effVor d a b m t) s
/-- VXOR (R255). -/
def execVxor (d : Reg) (a b : Src) (m : BitVec 3) (t : Fmt) (s : State) : Host.Outcome State Fault Refusal :=
  finish (.vxor d a b m t) (effVxor d a b m t) s
/-- VSHL (R255). -/
def execVshl (d : Reg) (a b : Src) (m : BitVec 3) (t : Fmt) (s : State) : Host.Outcome State Fault Refusal :=
  finish (.vshl d a b m t) (effVshl d a b m t) s
/-- VSHR (R255). -/
def execVshr (d : Reg) (a b : Src) (m : BitVec 3) (t : Fmt) (s : State) : Host.Outcome State Fault Refusal :=
  finish (.vshr d a b m t) (effVshr d a b m t) s
/-- VSRA (R255). -/
def execVsra (d : Reg) (a b : Src) (m : BitVec 3) (t : Fmt) (s : State) : Host.Outcome State Fault Refusal :=
  finish (.vsra d a b m t) (effVsra d a b m t) s
/-- VABS (R255). -/
def execVabs (d : Reg) (a : Src) (m : BitVec 3) (t : Fmt) (s : State) : Host.Outcome State Fault Refusal :=
  finish (.vabs d a m t) (effVabs d a m t) s
/-- VNEG (R255). -/
def execVneg (d : Reg) (a : Src) (m : BitVec 3) (t : Fmt) (s : State) : Host.Outcome State Fault Refusal :=
  finish (.vneg d a m t) (effVneg d a m t) s
/-- VFMA_F32 (R257). -/
def execVfmaF32 (d : Reg) (a b c : Src) (s : State) : Host.Outcome State Fault Refusal :=
  finish (.vfmaF32 d a b c) (effVfmaF32 d a b c) s
/-- VFNMA_F32 (R257). -/
def execVfnmaF32 (d : Reg) (a b c : Src) (s : State) : Host.Outcome State Fault Refusal :=
  finish (.vfnmaF32 d a b c) (effVfnmaF32 d a b c) s
/-- VFMA_F64 (R257). -/
def execVfmaF64 (d : Reg) (a b c : Src) (s : State) : Host.Outcome State Fault Refusal :=
  finish (.vfmaF64 d a b c) (effVfmaF64 d a b c) s
/-- VFNMA_F64 (R257). -/
def execVfnmaF64 (d : Reg) (a b c : Src) (s : State) : Host.Outcome State Fault Refusal :=
  finish (.vfnmaF64 d a b c) (effVfnmaF64 d a b c) s
/-- VFMA_F16 (R257). -/
def execVfmaF16 (d : Reg) (a b c : Src) (s : State) : Host.Outcome State Fault Refusal :=
  finish (.vfmaF16 d a b c) (effVfmaF16 d a b c) s
/-- VFNMA_F16 (R257). -/
def execVfnmaF16 (d : Reg) (a b c : Src) (s : State) : Host.Outcome State Fault Refusal :=
  finish (.vfnmaF16 d a b c) (effVfnmaF16 d a b c) s
/-- VFMA_BF16 (R257). -/
def execVfmaBf16 (d : Reg) (a b c : Src) (s : State) : Host.Outcome State Fault Refusal :=
  finish (.vfmaBf16 d a b c) (effVfmaBf16 d a b c) s
/-- VFNMA_BF16 (R257). -/
def execVfnmaBf16 (d : Reg) (a b c : Src) (s : State) : Host.Outcome State Fault Refusal :=
  finish (.vfnmaBf16 d a b c) (effVfnmaBf16 d a b c) s
/-- VCMP (R259). -/
def execVcmp (cond : VCond) (k : BitVec 3) (a b : Src) (m : BitVec 3) (t : Fmt) (s : State) : Host.Outcome State Fault Refusal :=
  finish (.vcmp cond k a b m t) (effVcmp cond k a b m t) s
/-- VSEL (R260). -/
def execVsel (d : Reg) (a b : Src) (m : BitVec 3) (t : Fmt) (s : State) : Host.Outcome State Fault Refusal :=
  finish (.vsel d a b m t) (effVsel d a b m t) s
/-- VCVT (R261). -/
def execVcvt (d : Reg) (a b : Src) (m : BitVec 3) (form : BitVec 4) (s : State) : Host.Outcome State Fault Refusal :=
  finish (.vcvt d a b m form) (effVcvt d a b m form) s
/-- VBCAST (R262). -/
def execVbcast (d : Reg) (a : Src) (t : Fmt) (s : State) : Host.Outcome State Fault Refusal :=
  finish (.vbcast d a t) (effVbcast d a t) s
/-- VMOVX (R262). -/
def execVmovx (d : Reg) (a : Src) (t : Fmt) (lane : BitVec 9) (s : State) : Host.Outcome State Fault Refusal :=
  finish (.vmovx d a t lane) (effVmovx d a t lane) s
/-- VPERM (R263). -/
def execVperm (d : Reg) (a b : Src) (m : BitVec 3) (t : Fmt) (s : State) : Host.Outcome State Fault Refusal :=
  finish (.vperm d a b m t) (effVperm d a b m t) s
/-- VZIP (R263). -/
def execVzip (d : Reg) (a b : Src) (m : BitVec 3) (t : Fmt) (s : State) : Host.Outcome State Fault Refusal :=
  finish (.vzip d a b m t) (effVzip d a b m t) s
/-- VUNZIP (R263). -/
def execVunzip (d : Reg) (a b : Src) (m : BitVec 3) (t : Fmt) (s : State) : Host.Outcome State Fault Refusal :=
  finish (.vunzip d a b m t) (effVunzip d a b m t) s
/-- VRSUM (R264). -/
def execVrsum (d : Reg) (a : Src) (m : BitVec 3) (t : Fmt) (s : State) : Host.Outcome State Fault Refusal :=
  finish (.vrsum d a m t) (effVrsum d a m t) s
/-- VRMAX (R264). -/
def execVrmax (d : Reg) (a : Src) (m : BitVec 3) (t : Fmt) (s : State) : Host.Outcome State Fault Refusal :=
  finish (.vrmax d a m t) (effVrmax d a m t) s
/-- VRMIN (R264). -/
def execVrmin (d : Reg) (a : Src) (m : BitVec 3) (t : Fmt) (s : State) : Host.Outcome State Fault Refusal :=
  finish (.vrmin d a m t) (effVrmin d a m t) s
/-- VDOT (R265). -/
def execVdot (d : Reg) (a b : Src) (m : BitVec 3) (s : State) : Host.Outcome State Fault Refusal :=
  finish (.vdot d a b m) (effVdot d a b m) s
/-- KAND (R266). -/
def execKand (d a b : BitVec 3) (s : State) : Host.Outcome State Fault Refusal := finish (.kand d a b) (effKand d a b) s
/-- KOR (R266). -/
def execKor (d a b : BitVec 3) (s : State) : Host.Outcome State Fault Refusal := finish (.kor d a b) (effKor d a b) s
/-- KXOR (R266). -/
def execKxor (d a b : BitVec 3) (s : State) : Host.Outcome State Fault Refusal := finish (.kxor d a b) (effKxor d a b) s
/-- KANDN (R266). -/
def execKandn (d a b : BitVec 3) (s : State) : Host.Outcome State Fault Refusal := finish (.kandn d a b) (effKandn d a b) s
/-- KNOT (R266). -/
def execKnot (d a : BitVec 3) (s : State) : Host.Outcome State Fault Refusal := finish (.knot d a) (effKnot d a) s
/-- KFROMX (R266). -/
def execKfromx (d : BitVec 3) (a : Src) (s : State) : Host.Outcome State Fault Refusal :=
  finish (.kfromx d a) (effKfromx d a) s
/-- KTOX (R266). -/
def execKtox (d : Reg) (a : BitVec 3) (s : State) : Host.Outcome State Fault Refusal := finish (.ktox d a) (effKtox d a) s
/-- VADDI (R258). -/
def execVaddi (d : Reg) (a : Src) (t : Fmt) (imm : BitVec 7) (s : State) : Host.Outcome State Fault Refusal :=
  finish (.vaddi d a t imm) (effVaddi d a t imm) s
/-- VSHLI (R258). -/
def execVshli (d : Reg) (a : Src) (t : Fmt) (amount : BitVec 6) (s : State) : Host.Outcome State Fault Refusal :=
  finish (.vshli d a t amount) (effVshli d a t amount) s
/-- VSHRI (R258). -/
def execVshri (d : Reg) (a : Src) (t : Fmt) (amount : BitVec 6) (s : State) : Host.Outcome State Fault Refusal :=
  finish (.vshri d a t amount) (effVshri d a t amount) s
/-- VSRAI (R258). -/
def execVsrai (d : Reg) (a : Src) (t : Fmt) (amount : BitVec 6) (s : State) : Host.Outcome State Fault Refusal :=
  finish (.vsrai d a t amount) (effVsrai d a t amount) s
/-- SCFG (R271). -/
def execScfg (u : BitVec 2) (a : Src) (idx : BitVec 3) (s : State) : Host.Outcome State Fault Refusal :=
  finish (.scfg u a idx) (effScfg u a idx) s
/-- SBIND_POP (R271). -/
def execSbindPop (u : BitVec 2) (s : State) : Host.Outcome State Fault Refusal := finish (.sbindPop u) (effSbindPop u) s
/-- SBIND_PUSH (R271). -/
def execSbindPush (u : BitVec 2) (s : State) : Host.Outcome State Fault Refusal := finish (.sbindPush u) (effSbindPush u) s
/-- SUNBIND (R272). -/
def execSunbind (u : BitVec 2) (s : State) : Host.Outcome State Fault Refusal := finish (.sunbind u) (effSunbind u) s
/-- SSTAT (R272). -/
def execSstat (d : Reg) (u : BitVec 2) (s : State) : Host.Outcome State Fault Refusal := finish (.sstat d u) (effSstat d u) s
/-- REP_IMM (R278). -/
def execRepImm (n : BitVec 5) (cnt : BitVec 16) (s : State) : Host.Outcome State Fault Refusal :=
  finish (.repImm n cnt) (effRepImm n cnt) s
/-- REP_REG (R278). -/
def execRepReg (n : BitVec 5) (a : Src) (s : State) : Host.Outcome State Fault Refusal :=
  finish (.repReg n a) (effRepReg n a) s

end Sys2Proof.Machine
end

