-- ==== Sys2Proof/Machine/Dispatch.lean ====
section
/-! DEFINITION. The dispatch: each instruction to its meaning. -/
namespace Sys2Proof.Machine

def exec (i : Instr) (s : State) : Host.Outcome State Fault Refusal :=
  match i with
  | .add rd ra rb w => Sys2Proof.Machine.execAdd rd ra rb w s
  | .sub rd ra rb w => Sys2Proof.Machine.execSub rd ra rb w s
  | .mul rd ra rb w => Sys2Proof.Machine.execMul rd ra rb w s
  | .mulh rd ra rb => Sys2Proof.Machine.execMulh rd ra rb s
  | .mulhu rd ra rb => Sys2Proof.Machine.execMulhu rd ra rb s
  | .div rd ra rb w => Sys2Proof.Machine.execDiv rd ra rb w s
  | .divu rd ra rb w => Sys2Proof.Machine.execDivu rd ra rb w s
  | .rem rd ra rb w => Sys2Proof.Machine.execRem rd ra rb w s
  | .remu rd ra rb w => Sys2Proof.Machine.execRemu rd ra rb w s
  | .and rd ra rb => Sys2Proof.Machine.execAnd rd ra rb s
  | .or rd ra rb => Sys2Proof.Machine.execOr rd ra rb s
  | .xor rd ra rb => Sys2Proof.Machine.execXor rd ra rb s
  | .shl rd ra rb w => Sys2Proof.Machine.execShl rd ra rb w s
  | .shr rd ra rb w => Sys2Proof.Machine.execShr rd ra rb w s
  | .sra rd ra rb w => Sys2Proof.Machine.execSra rd ra rb w s
  | .min rd ra rb => Sys2Proof.Machine.execMin rd ra rb s
  | .max rd ra rb => Sys2Proof.Machine.execMax rd ra rb s
  | .minu rd ra rb => Sys2Proof.Machine.execMinu rd ra rb s
  | .maxu rd ra rb => Sys2Proof.Machine.execMaxu rd ra rb s
  | .adds rd ra rb => Sys2Proof.Machine.execAdds rd ra rb s
  | .subs rd ra rb => Sys2Proof.Machine.execSubs rd ra rb s
  | .clz rd ra => Sys2Proof.Machine.execClz rd ra s
  | .ctz rd ra => Sys2Proof.Machine.execCtz rd ra s
  | .popc rd ra => Sys2Proof.Machine.execPopc rd ra s
  | .addi rd ra imm => Sys2Proof.Machine.execAddi rd ra imm s
  | .andi rd ra imm => Sys2Proof.Machine.execAndi rd ra imm s
  | .ori rd ra imm => Sys2Proof.Machine.execOri rd ra imm s
  | .xori rd ra imm => Sys2Proof.Machine.execXori rd ra imm s
  | .shli rd ra w amount => Sys2Proof.Machine.execShli rd ra w amount s
  | .shri rd ra w amount => Sys2Proof.Machine.execShri rd ra w amount s
  | .srai rd ra w amount => Sys2Proof.Machine.execSrai rd ra w amount s
  | .li rd q imm => Sys2Proof.Machine.execLi rd q imm s
  | .lik rd q imm => Sys2Proof.Machine.execLik rd q imm s
  | .lea rt m => Sys2Proof.Machine.execLea rt m s
  | .cmp pd c cb ra rb => Sys2Proof.Machine.execCmp pd c cb ra rb s
  | .cmpi pd c ra imm => Sys2Proof.Machine.execCmpi pd c ra imm s
  | .pand pd pa pb => Sys2Proof.Machine.execPand pd pa pb s
  | .por pd pa pb => Sys2Proof.Machine.execPor pd pa pb s
  | .pxor pd pa pb => Sys2Proof.Machine.execPxor pd pa pb s
  | .pandn pd pa pb => Sys2Proof.Machine.execPandn pd pa pb s
  | .pnot pd pa => Sys2Proof.Machine.execPnot pd pa s
  | .pset pd => Sys2Proof.Machine.execPset pd s
  | .pclr pd => Sys2Proof.Machine.execPclr pd s
  | .prd rd => Sys2Proof.Machine.execPrd rd s
  | .pwr ra => Sys2Proof.Machine.execPwr ra s
  | .csel rd pn ra rb => Sys2Proof.Machine.execCsel rd pn ra rb s
  | .cseln rd pn ra rb => Sys2Proof.Machine.execCseln rd pn ra rb s
  | .br disp => Sys2Proof.Machine.execBr disp s
  | .bp pn disp => Sys2Proof.Machine.execBp pn disp s
  | .bpn pn disp => Sys2Proof.Machine.execBpn pn disp s
  | .call rd disp => Sys2Proof.Machine.execCall rd disp s
  | .jr ra => Sys2Proof.Machine.execJr ra s
  | .callr rd ra => Sys2Proof.Machine.execCallr rd ra s
  | .ret ra => Sys2Proof.Machine.execRet ra s
  | .lpset0 count disp => Sys2Proof.Machine.execLpset0 count disp s
  | .lpset1 count disp => Sys2Proof.Machine.execLpset1 count disp s
  | .lpsetr0 rc disp => Sys2Proof.Machine.execLpsetr0 rc disp s
  | .lpsetr1 rc disp => Sys2Proof.Machine.execLpsetr1 rc disp s
  | .spawn rd ra level => Sys2Proof.Machine.execSpawn rd ra level s
  | .yield => Sys2Proof.Machine.execYield s
  | .exit => Sys2Proof.Machine.execExit s
  | .sys num => Sys2Proof.Machine.execSys num s
  | .brk num => Sys2Proof.Machine.execBrk num s
  | .mfs rd spr => Sys2Proof.Machine.execMfs rd spr s
  | .mts spr ra => Sys2Proof.Machine.execMts spr ra s
  | .ifence => Sys2Proof.Machine.execIfence s
  | .ckpt ra => Sys2Proof.Machine.execCkpt ra s
  | .wfe rd mask => Sys2Proof.Machine.execWfe rd mask s
  | .ctxnew rd ra => Sys2Proof.Machine.execCtxnew rd ra s
  | .ctxgrant rd ra rb => Sys2Proof.Machine.execCtxgrant rd ra rb s
  | .ctxrevoke rd ra tk => Sys2Proof.Machine.execCtxrevoke rd ra tk s
  | .ctxstart rd ra => Sys2Proof.Machine.execCtxstart rd ra s
  | .ctxstop rd ra tk => Sys2Proof.Machine.execCtxstop rd ra tk s
  | .ctxsave rd ra rb tk => Sys2Proof.Machine.execCtxsave rd ra rb tk s
  | .ctxload rd ra rb tk => Sys2Proof.Machine.execCtxload rd ra rb tk s
  | .ctxinfo rd ra rb => Sys2Proof.Machine.execCtxinfo rd ra rb s
  | .reflect rd ra => Sys2Proof.Machine.execReflect rd ra s
  | .ldB rt m sc => Sys2Proof.Machine.execLdB rt m sc s
  | .ldBu rt m sc => Sys2Proof.Machine.execLdBu rt m sc s
  | .ldH rt m sc => Sys2Proof.Machine.execLdH rt m sc s
  | .ldHu rt m sc => Sys2Proof.Machine.execLdHu rt m sc s
  | .ldW rt m sc => Sys2Proof.Machine.execLdW rt m sc s
  | .ldWu rt m sc => Sys2Proof.Machine.execLdWu rt m sc s
  | .ldD rt m sc => Sys2Proof.Machine.execLdD rt m sc s
  | .ldv rt m sc => Sys2Proof.Machine.execLdv rt m sc s
  | .stB m rt sc md => Sys2Proof.Machine.execStB m rt sc md s
  | .stH m rt sc md => Sys2Proof.Machine.execStH m rt sc md s
  | .stW m rt sc md => Sys2Proof.Machine.execStW m rt sc md s
  | .stD m rt sc md => Sys2Proof.Machine.execStD m rt sc md s
  | .stv m rt sc md => Sys2Proof.Machine.execStv m rt sc md s
  | .amo op rd ra rb sc => Sys2Proof.Machine.execAmo op rd ra rb sc s
  | .cas rd ra rb sc => Sys2Proof.Machine.execCas rd ra rb sc s
  | .fence sc => Sys2Proof.Machine.execFence sc s
  | .fenceW sc => Sys2Proof.Machine.execFenceW sc s
  | .syncinit rd ra => Sys2Proof.Machine.execSyncinit rd ra s
  | .syncarr rd ra => Sys2Proof.Machine.execSyncarr rd ra s
  | .syncwait rd ra => Sys2Proof.Machine.execSyncwait rd ra s
  | .waitt mask => Sys2Proof.Machine.execWaitt mask s
  | .waitany rd mask => Sys2Proof.Machine.execWaitany rd mask s
  | .waitanyF rd ra mask => Sys2Proof.Machine.execWaitanyF rd ra mask s
  | .sendm rd ra rb => Sys2Proof.Machine.execSendm rd ra rb s
  | .reply ra rb => Sys2Proof.Machine.execReply ra rb s
  | .tagctlLd ra tag => Sys2Proof.Machine.execTagctlLd ra tag s
  | .tagctlEn tag => Sys2Proof.Machine.execTagctlEn tag s
  | .tagctlDis tag => Sys2Proof.Machine.execTagctlDis tag s
  | .tagctlPon tag => Sys2Proof.Machine.execTagctlPon tag s
  | .tagctlPoff tag => Sys2Proof.Machine.execTagctlPoff tag s
  | .tagctlRd rd tag => Sys2Proof.Machine.execTagctlRd rd tag s
  | .qenq ra rb pn => Sys2Proof.Machine.execQenq ra rb pn s
  | .qdeq rd ra pn => Sys2Proof.Machine.execQdeq rd ra pn s
  | .qsteal rd ra pn => Sys2Proof.Machine.execQsteal rd ra pn s
  | .qenqBind q ra => Sys2Proof.Machine.execQenqBind q ra s
  | .qdeqBind q ra => Sys2Proof.Machine.execQdeqBind q ra s
  | .qstealBind q ra => Sys2Proof.Machine.execQstealBind q ra s
  | .pf m => Sys2Proof.Machine.execPf m s
  | .pfL2 m => Sys2Proof.Machine.execPfL2 m s
  | .qpop rd q fa => Sys2Proof.Machine.execQpop rd q fa s
  | .qpush q fa rb => Sys2Proof.Machine.execQpush q fa rb s
  | .qpopv rd q fa => Sys2Proof.Machine.execQpopv rd q fa s
  | .qpushv q fa rb => Sys2Proof.Machine.execQpushv q fa rb s
  | .mma c ha hb k => Sys2Proof.Machine.execMma c ha hb k s
  | .mmas c ha hb k => Sys2Proof.Machine.execMmas c ha hb k s
  | .mmac c src hb k => Sys2Proof.Machine.execMmac c src hb k s
  | .mxfmt sat fa fb fd => Sys2Proof.Machine.execMxfmt sat fa fb fd s
  | .accz t => Sys2Proof.Machine.execAccz t s
  | .accrd t ra => Sys2Proof.Machine.execAccrd t ra s
  | .accdc t hd w => Sys2Proof.Machine.execAccdc t hd w s
  | .hld ht m sc => Sys2Proof.Machine.execHld ht m sc s
  | .hst m ht sc md => Sys2Proof.Machine.execHst m ht sc md s
  | .hset hd idx rb => Sys2Proof.Machine.execHset hd idx rb s
  | .hget rd hs idx => Sys2Proof.Machine.execHget rd hs idx s
  | .hgat rd hs rb m => Sys2Proof.Machine.execHgat rd hs rb m s
  | .hsca op hd ra rb m => Sys2Proof.Machine.execHsca op hd ra rb m s
  | .semwait n => Sys2Proof.Machine.execSemwait n s
  | .sempost n cnt => Sys2Proof.Machine.execSempost n cnt s
  | .copy rd ra rb sc => Sys2Proof.Machine.execCopy rd ra rb sc s
  | .copym rd ra rb sc => Sys2Proof.Machine.execCopym rd ra rb sc s
  | .copyx rd ra rb sc => Sys2Proof.Machine.execCopyx rd ra rb sc s
  | .vadd d a b m t => Sys2Proof.Machine.execVadd d a b m t s
  | .vsub d a b m t => Sys2Proof.Machine.execVsub d a b m t s
  | .vmul d a b m t => Sys2Proof.Machine.execVmul d a b m t s
  | .vdiv d a b m t => Sys2Proof.Machine.execVdiv d a b m t s
  | .vmin d a b m t => Sys2Proof.Machine.execVmin d a b m t s
  | .vmax d a b m t => Sys2Proof.Machine.execVmax d a b m t s
  | .vsqrt d a m t => Sys2Proof.Machine.execVsqrt d a m t s
  | .vand d a b m t => Sys2Proof.Machine.execVand d a b m t s
  | .vor d a b m t => Sys2Proof.Machine.execVor d a b m t s
  | .vxor d a b m t => Sys2Proof.Machine.execVxor d a b m t s
  | .vshl d a b m t => Sys2Proof.Machine.execVshl d a b m t s
  | .vshr d a b m t => Sys2Proof.Machine.execVshr d a b m t s
  | .vsra d a b m t => Sys2Proof.Machine.execVsra d a b m t s
  | .vabs d a m t => Sys2Proof.Machine.execVabs d a m t s
  | .vneg d a m t => Sys2Proof.Machine.execVneg d a m t s
  | .vfmaF32 d a b c => Sys2Proof.Machine.execVfmaF32 d a b c s
  | .vfnmaF32 d a b c => Sys2Proof.Machine.execVfnmaF32 d a b c s
  | .vfmaF64 d a b c => Sys2Proof.Machine.execVfmaF64 d a b c s
  | .vfnmaF64 d a b c => Sys2Proof.Machine.execVfnmaF64 d a b c s
  | .vfmaF16 d a b c => Sys2Proof.Machine.execVfmaF16 d a b c s
  | .vfnmaF16 d a b c => Sys2Proof.Machine.execVfnmaF16 d a b c s
  | .vfmaBf16 d a b c => Sys2Proof.Machine.execVfmaBf16 d a b c s
  | .vfnmaBf16 d a b c => Sys2Proof.Machine.execVfnmaBf16 d a b c s
  | .vcmp cond k a b m t => Sys2Proof.Machine.execVcmp cond k a b m t s
  | .vsel d a b m t => Sys2Proof.Machine.execVsel d a b m t s
  | .vcvt d a b m form => Sys2Proof.Machine.execVcvt d a b m form s
  | .vbcast d a t => Sys2Proof.Machine.execVbcast d a t s
  | .vmovx d a t lane => Sys2Proof.Machine.execVmovx d a t lane s
  | .vperm d a b m t => Sys2Proof.Machine.execVperm d a b m t s
  | .vzip d a b m t => Sys2Proof.Machine.execVzip d a b m t s
  | .vunzip d a b m t => Sys2Proof.Machine.execVunzip d a b m t s
  | .vrsum d a m t => Sys2Proof.Machine.execVrsum d a m t s
  | .vrmax d a m t => Sys2Proof.Machine.execVrmax d a m t s
  | .vrmin d a m t => Sys2Proof.Machine.execVrmin d a m t s
  | .vdot d a b m => Sys2Proof.Machine.execVdot d a b m s
  | .kand d a b => Sys2Proof.Machine.execKand d a b s
  | .kor d a b => Sys2Proof.Machine.execKor d a b s
  | .kxor d a b => Sys2Proof.Machine.execKxor d a b s
  | .kandn d a b => Sys2Proof.Machine.execKandn d a b s
  | .knot d a => Sys2Proof.Machine.execKnot d a s
  | .kfromx d a => Sys2Proof.Machine.execKfromx d a s
  | .ktox d a => Sys2Proof.Machine.execKtox d a s
  | .vaddi d a t imm => Sys2Proof.Machine.execVaddi d a t imm s
  | .vshli d a t amount => Sys2Proof.Machine.execVshli d a t amount s
  | .vshri d a t amount => Sys2Proof.Machine.execVshri d a t amount s
  | .vsrai d a t amount => Sys2Proof.Machine.execVsrai d a t amount s
  | .scfg u a idx => Sys2Proof.Machine.execScfg u a idx s
  | .sbindPop u => Sys2Proof.Machine.execSbindPop u s
  | .sbindPush u => Sys2Proof.Machine.execSbindPush u s
  | .sunbind u => Sys2Proof.Machine.execSunbind u s
  | .sstat d u => Sys2Proof.Machine.execSstat d u s
  | .repImm n cnt => Sys2Proof.Machine.execRepImm n cnt s
  | .repReg n a => Sys2Proof.Machine.execRepReg n a s
  | .longOpBlock core => Sys2Proof.Machine.execLongOpBlock core s
  | .fillWordUpdate cl off => Sys2Proof.Machine.execFillWordUpdate cl off s
  | .qregEnqueueDrain core q => Sys2Proof.Machine.execQregEnqueueDrain core q s
  | .qregFetchAhead core q => Sys2Proof.Machine.execQregFetchAhead core q s
  | .matrixRequestStart cl => Sys2Proof.Machine.execMatrixRequestStart cl s
  | .matrixRequestEnd cl => Sys2Proof.Machine.execMatrixRequestEnd cl s
  | .formatBubbleEnd cl => Sys2Proof.Machine.execFormatBubbleEnd cl s
  | .accrdDeliver cl => Sys2Proof.Machine.execAccrdDeliver cl s
  | .copyEngineStart id => Sys2Proof.Machine.execCopyEngineStart id s
  | .copyLineWrite id line => Sys2Proof.Machine.execCopyLineWrite id line s
  | .copyReleased id => Sys2Proof.Machine.execCopyReleased id s
  | .copyVisible id => Sys2Proof.Machine.execCopyVisible id s
  | .streamFetchAhead core u => Sys2Proof.Machine.execStreamFetchAhead core u s
  | .streamPushStore core u => Sys2Proof.Machine.execStreamPushStore core u s
  | .replayWord core => Sys2Proof.Machine.execReplayWord core s
  | .answerArrival id ans => Sys2Proof.Machine.execAnswerArrival id ans s
  | .ageBoost core entry => Sys2Proof.Machine.execAgeBoost core entry s
  | .messageArrival m => Sys2Proof.Machine.execMessageArrival m s
  | .messageResend id => Sys2Proof.Machine.execMessageResend id s
  | .handlerStart core => Sys2Proof.Machine.execHandlerStart core s
  | .upcallStart core => Sys2Proof.Machine.execUpcallStart core s
  | .dispatcherStep quad => Sys2Proof.Machine.execDispatcherStep quad s
  | .crewStart id => Sys2Proof.Machine.execCrewStart id s
  | .timeSliceExpiry cl ctx => Sys2Proof.Machine.execTimeSliceExpiry cl ctx s
  | .checkpointDeadlineExpiry cl ctx => Sys2Proof.Machine.execCheckpointDeadlineExpiry cl ctx s
  | .contextResume cl ctx => Sys2Proof.Machine.execContextResume cl ctx s
  | .parkedMessageMoveIn core => Sys2Proof.Machine.execParkedMessageMoveIn core s
  | .timeBaseTick => Sys2Proof.Machine.execTimeBaseTick s
  | .powerStateEntry part => Sys2Proof.Machine.execPowerStateEntry part s
  | .wakeEvent part => Sys2Proof.Machine.execWakeEvent part s
  | .throttleStep die => Sys2Proof.Machine.execThrottleStep die s
  | .homeGrant id sharers => Sys2Proof.Machine.execHomeGrant id sharers s
  | .efInvalidationLands id die => Sys2Proof.Machine.execEfInvalidationLands id die s
  | .invalidationResend id die => Sys2Proof.Machine.execInvalidationResend id die s
  | .isolationTimeout id die => Sys2Proof.Machine.execIsolationTimeout id die s
  | .frameDelivery port => Sys2Proof.Machine.execFrameDelivery port s
  | .pageRequestSend port => Sys2Proof.Machine.execPageRequestSend port s
  | .pageRequestTimeout port group => Sys2Proof.Machine.execPageRequestTimeout port group s
  | .partitionReset p => Sys2Proof.Machine.execPartitionReset p s
  | .restartPoint ctx => Sys2Proof.Machine.execRestartPoint ctx s
  | .faultPacketEnqueue quad => Sys2Proof.Machine.execFaultPacketEnqueue quad s
  | .heldRecordFlush => Sys2Proof.Machine.execHeldRecordFlush s
  | .acceptTableWrite id => Sys2Proof.Machine.execAcceptTableWrite id s
  | .debugRelease id => Sys2Proof.Machine.execDebugRelease id s
  | .debugRetire id => Sys2Proof.Machine.execDebugRetire id s
  | .retiredEntryFree core entry => Sys2Proof.Machine.execRetiredEntryFree core entry s
  | .debugMirrorWrite id => Sys2Proof.Machine.execDebugMirrorWrite id s
  | .flitReplay link => Sys2Proof.Machine.execFlitReplay link s
  | .notAnInstruction reason wh => Sys2Proof.Machine.execNotAnInstruction reason wh s
  | .instructionFetchFault => Sys2Proof.Machine.execInstructionFetchFault s
  | .storeCompletion id res => Sys2Proof.Machine.execStoreCompletion id res s
  | .atsTranslationCompletion port page present => Sys2Proof.Machine.execAtsTranslationCompletion port page present s
  | .throttleSignal die cause target => Sys2Proof.Machine.execThrottleSignal die cause target s
  | .isolationReport id die => Sys2Proof.Machine.execIsolationReport id die s
  | .frameArrival port data bad => Sys2Proof.Machine.execFrameArrival port data bad s
  | .ingestConfigWrite port dw v => Sys2Proof.Machine.execIngestConfigWrite port dw v s
  | .hostLaunchWrite vf v => Sys2Proof.Machine.execHostLaunchWrite vf v s
  | .lstatRead vf => Sys2Proof.Machine.execLstatRead vf s
  | .ltolWrite vf v => Sys2Proof.Machine.execLtolWrite vf v s
  | .vfBindingWrite vf v => Sys2Proof.Machine.execVfBindingWrite vf v s
  | .hostBar2Read vf off size => Sys2Proof.Machine.execHostBar2Read vf off size s
  | .hostBar2Write vf off data relaxed poisoned => Sys2Proof.Machine.execHostBar2Write vf off data relaxed poisoned s
  | .registerWrite reg v => Sys2Proof.Machine.execRegisterWrite reg v s
  | .pageResponse port group rid code => Sys2Proof.Machine.execPageResponse port group rid code s
  | .atsInvalidateRequest port page => Sys2Proof.Machine.execAtsInvalidateRequest port page s
  | .priEnableToggle rid => Sys2Proof.Machine.execPriEnableToggle rid s
  | .prdropRead port => Sys2Proof.Machine.execPrdropRead port s
  | .peerPushArrival push => Sys2Proof.Machine.execPeerPushArrival push s
  | .mgmtCreateContext req => Sys2Proof.Machine.execMgmtCreateContext req s
  | .mgmtSetAccept ctx mask set => Sys2Proof.Machine.execMgmtSetAccept ctx mask set s
  | .packageIdAssign id => Sys2Proof.Machine.execPackageIdAssign id s
  | .routeTableWrite pkg mask => Sys2Proof.Machine.execRouteTableWrite pkg mask s
  | .exportTableWrite idx d0 d1 d2 d3 => Sys2Proof.Machine.execExportTableWrite idx d0 d1 d2 d3 s
  | .moduleReset boot => Sys2Proof.Machine.execModuleReset boot s
  | .recoveryGo port boot => Sys2Proof.Machine.execRecoveryGo port boot s
  | .recoveryProg port boot => Sys2Proof.Machine.execRecoveryProg port boot s
  | .svnRaise => Sys2Proof.Machine.execSvnRaise s
  | .softErrorDetect e => Sys2Proof.Machine.execSoftErrorDetect e s
  | .scrubRead e => Sys2Proof.Machine.execScrubRead e s
  | .ellostRead => Sys2Proof.Machine.execEllostRead s
  | .flitReceive link flit => Sys2Proof.Machine.execFlitReceive link flit s
  | .retrainComplete link res => Sys2Proof.Machine.execRetrainComplete link res s
  | .linkCounterRead link dw => Sys2Proof.Machine.execLinkCounterRead link dw s
  | .linkRetrainCommand link => Sys2Proof.Machine.execLinkRetrainCommand link s
  | .hostLinkDown port => Sys2Proof.Machine.execHostLinkDown port s
  | .functionLevelReset fn => Sys2Proof.Machine.execFunctionLevelReset fn s
  | .trustDieError => Sys2Proof.Machine.execTrustDieError s
  | .powerLoss => Sys2Proof.Machine.execPowerLoss s
  | .hostLinkUp port => Sys2Proof.Machine.execHostLinkUp port s
  | .mgmtRangeGrant base limit target rights dt scrub => Sys2Proof.Machine.execMgmtRangeGrant base limit target rights dt scrub s

end Sys2Proof.Machine
end

