-- ==== Sys2Proof/Machine/Sched.lean ====
section
/-! DEFINITION. Who moves next (DESIGN CHOICE, log 1): the moves that the agenda names, oldest first; when it is empty, the steps that the part
takes of itself, then the cores in turn, then what belongs to the end of a tick. -/
namespace Sys2Proof.Machine

/-! ### Steps that the part takes of itself -/

/-- The first of some steps that can come about. -/
def firstOf {α : Type} (f : α → Option State) (g : α → Instr) (l : List α) : Option Instr :=
  (l.find? fun a => (f a).isSome).map g

/-- Fill words with something to take, as cluster and offset. -/
def State.pendingFills (s : State) : List (Nat × Nat) :=
  s.clusters.flatMap fun c => (c.2.fills.map fun f => (c.1, f.off)) ++ c.2.advanced.map fun off => (c.1, off)

/-- Stores and the dies that have yet to take them. -/
def State.staleDies (s : State) : List (Nat × Nat) := s.stores.flatMap fun p => p.2.stale.map fun d => (p.1, d)

/-- The lines that copies have yet to write. -/
def State.copyLines (s : State) : List (Nat × Nat) :=
  s.copies.flatMap fun p => ((List.range p.2.lines.length).filter fun k => !((p.2.lines[k]?).map CLine.done).getD true).map fun k => (p.1, k)

/-- Slices and deadlines, as cluster and context. -/
def State.residencies (s : State) : List (Nat × Nat) :=
  (s.clusters.flatMap fun c => (c.2.slices.map fun x => (c.1, x.1)) ++ c.2.preq.map fun x => (c.1, x.ctx)).eraseDups

/-- Clusters that contexts may come to. -/
def State.arrivals (s : State) : List (Nat × Nat) :=
  (s.ctxs.filter fun c => c.2.st == .running).flatMap fun c => (nodeClusters c.2).map fun cl => (cl, c.1)

/-- The steps that come about within a cycle: R233, R355, R67, R77, R422, R69, R279, partition resets, and the
end of function-level resets. -/
def State.promptStep (s : State) : Option Instr :=
  let cores := (s.cores.filter fun c => c.2.res.isSome).map Prod.fst
  (firstOf (fun p => evPartitionReset { part := p, failed := [] } s) (fun p => .partitionReset { part := p, failed := [] }) s.resetting) <|>
  (firstOf (fun f => if (s.flrDue f.vf).isSome then evFunctionLevelReset (.vf f.vf) s else none) (fun f => .functionLevelReset (.vf f.vf)) s.flrs) <|>
  (firstOf (fun p => evFillWordUpdate p.1 p.2 s) (fun p => .fillWordUpdate p.1 p.2) s.pendingFills) <|>
  (firstOf (fun p => evFrameDelivery p s) .frameDelivery (s.ports.map Prod.fst)) <|>
  (firstOf (fun k => evParkedMessageMoveIn k s) .parkedMessageMoveIn cores) <|>
  (firstOf (fun k => evHandlerStart k s) .handlerStart cores) <|>
  (firstOf (fun k => evUpcallStart k s) .upcallStart cores) <|>
  (firstOf (fun p => evRetiredEntryFree p.1 p.2 s) (fun p => .retiredEntryFree p.1 p.2)
    (s.imgs.flatMap fun i => (i.2.rq.filter fun f => f.2.retiring).map fun f => (i.1 / 4096, f.1))) <|>
  (firstOf (fun p => evAgeBoost p.1 p.2 s) (fun p => .ageBoost p.1 p.2)
    (s.imgs.flatMap fun i => (i.2.rq.filter fun f => f.2.age == 4095).map fun f => (i.1 / 4096, f.1))) <|>
  (firstOf (fun k => evReplayWord k s) .replayWord cores)

/-- The step in which a store is performed (R111, R388, R389). -/
def State.performStep (s : State) (i : Nat) : Option Instr :=
  (firstOf (fun i => evHomeGrant i 0 s) (fun i => .homeGrant i 0) [i]) <|>
  (firstOf (fun i => evAcceptTableWrite i s) .acceptTableWrite [i]) <|>
  (firstOf (fun i => evDebugRelease i s) .debugRelease [i]) <|>
  (firstOf (fun i => evDebugRetire i s) .debugRetire [i]) <|>
  (firstOf (fun i => evDebugMirrorWrite i s) .debugMirrorWrite [i])

/-- The steps of memory, the oldest store first: R111, R120, R388, R389 (DESIGN CHOICE, log 74). -/
def State.memoryStep (s : State) : Option Instr :=
  let ids := s.stores.map Prod.fst
  ids.findSome? s.performStep <|>
  (firstOf (fun p => evEfInvalidationLands p.1 p.2 s) (fun p => .efInvalidationLands p.1 p.2) s.staleDies) <|>
  (firstOf (fun i => evStoreCompletion i .done s) (fun i => .storeCompletion i .done)
    ((s.stores.filter fun p => !(p.2.t.isPeer && p.2.port.isSome)).map Prod.fst))

/-- The steps of round trips, messages and fibres: R223, R242, R243. -/
def State.answerStep (s : State) : Option Instr :=
  (firstOf (fun i => evAnswerArrival i .here s) (fun i => .answerArrival i .here) (s.flights.map Prod.fst)) <|>
  (firstOf (fun i => evMessageArrival (.flight i) s) (fun i => .messageArrival (.flight i)) (s.msgs.map Prod.fst)) <|>
  (firstOf (fun i => evMessageResend i s) .messageResend (s.msgs.map Prod.fst))

/-- The steps of engines: R303, R306, R312, R313, R249, R268, R274, R437. -/
def State.engineStep (s : State) : Option Instr :=
  let cls := s.clusters.map Prod.fst
  let cores := (s.cores.filter fun c => c.2.res.isSome).map Prod.fst
  let ids := s.copies.map Prod.fst
  (firstOf (fun c => evMatrixRequestEnd c s) .matrixRequestEnd cls) <|>
  (firstOf (fun c => evMatrixRequestStart c s) .matrixRequestStart cls) <|>
  (firstOf (fun c => evFormatBubbleEnd c s) .formatBubbleEnd cls) <|>
  (firstOf (fun c => evAccrdDeliver c s) .accrdDeliver cls) <|>
  (firstOf (fun i => evCopyEngineStart i s) .copyEngineStart ids) <|>
  (firstOf (fun p => evCopyLineWrite p.1 p.2 s) (fun p => .copyLineWrite p.1 p.2) s.copyLines) <|>
  (firstOf (fun i => evCopyReleased i s) .copyReleased ids) <|>
  (firstOf (fun i => evCopyVisible i s) .copyVisible ids) <|>
  (firstOf (fun p => evQregEnqueueDrain p.1 p.2 s) (fun p => .qregEnqueueDrain p.1 p.2) (cores.flatMap fun k => [(k, 0), (k, 1)])) <|>
  (firstOf (fun p => evQregFetchAhead p.1 p.2 s) (fun p => .qregFetchAhead p.1 p.2) (cores.flatMap fun k => [(k, 0), (k, 1)])) <|>
  (firstOf (fun p => evStreamFetchAhead p.1 p.2 s) (fun p => .streamFetchAhead p.1 p.2) (cores.flatMap fun k => [(k, 0), (k, 1), (k, 2), (k, 3)])) <|>
  (firstOf (fun p => evStreamPushStore p.1 p.2 s) (fun p => .streamPushStore p.1 p.2) (cores.flatMap fun k => [(k, 0), (k, 1), (k, 2), (k, 3)])) <|>
  (firstOf (fun k => evLongOpBlock k s) .longOpBlock cores)

/-- The steps of scheduling and of the edges: R72, R77, R329, R385, R397, R349, R448, R462, R481, R40. -/
def State.serviceStep (s : State) : Option Instr :=
  let links := s.ports.map (fun p => LinkName.port p.1) ++ s.die.map fun d => LinkName.die d.1
  (firstOf (fun q => evFaultPacketEnqueue q s) .faultPacketEnqueue (s.quads.map Prod.fst)) <|>
  (if (evHeldRecordFlush s).isSome then some .heldRecordFlush else none) <|>
  (firstOf (fun p => evCheckpointDeadlineExpiry p.1 p.2 s) (fun p => .checkpointDeadlineExpiry p.1 p.2) s.residencies) <|>
  (firstOf (fun p => evTimeSliceExpiry p.1 p.2 s) (fun p => .timeSliceExpiry p.1 p.2) s.residencies) <|>
  (firstOf (fun p => evContextResume p.1 p.2 s) (fun p => .contextResume p.1 p.2) s.arrivals) <|>
  (firstOf (fun k => if s.called k then evWakeEvent (.core k) s else none) (fun k => .wakeEvent (.core k)) (s.cores.map Prod.fst)) <|>
  (firstOf (fun p => evPageRequestSend p s) .pageRequestSend (s.hosts.map Prod.fst)) <|>
  (firstOf (fun p => evPageRequestTimeout p.1 p.2 s) (fun p => .pageRequestTimeout p.1 p.2)
    (s.hosts.flatMap fun h => h.2.recs.map fun r => (h.1, r.group))) <|>
  (firstOf (fun l => evFlitReplay l s) .flitReplay links) <|>
  (firstOf (fun d => evThrottleStep d s) .throttleStep (s.die.map Prod.fst))

/-- The steps at the end of a tick: R321, R395, R39, R10. A number counts what the tick has had. -/
def State.tickStep (s : State) : Instr × State :=
  let nextQuad (q : Nat) : State := { s with turn := 4608 + q }
  match ((List.range 32).filter fun q => s.turn ≤ 4608 + q && s.dispatches q).head? with
  | some q => (.dispatcherStep q, nextQuad (q + 1))
  | none =>
    let s' := nextQuad 32
    match (firstOf (fun c => evRestartPoint c s) .restartPoint (s.ctxs.map Prod.fst)) <|>
        (firstOf (fun p => evPowerStateEntry p s) .powerStateEntry s.powerParts) with
    | some i => (i, s')
    | none => (.timeBaseTick, { s with turn := 0, cycle := 0, lull := true })

/-- What a step does. -/
inductive Pick
  /-- An instruction, in a state. -/
  | run (i : Instr) (s : State)
  /-- Nothing but what the state shows. -/
  | done (s : State)
  /-- The trust die is not in normal mode, and no start-up is due (R476, R480). -/
  | halted
  deriving DecidableEq, Repr

/-- A core's turn, as a step. -/
def State.corePick (s : State) (n : Nat) : Pick :=
  match s.coreTurn n with
  | .exec i s => .run i s
  | .done s => .done s

/-- R476: the steps that a part out of normal mode takes. -/
def startsUp : Instr → Bool
  | .moduleReset _ => true
  | .recoveryGo _ _ => true
  | .recoveryProg _ _ => true
  | .registerWrite _ _ => true
  | .powerLoss => true
  | _ => false

/-- A step that an agenda may name: one without an encoding; what a fetch finds is the core's own to say (R401, R442). -/
def Instr.namedStep (i : Instr) : Bool := !i.isEncoded && i != .instructionFetchFault && match i with
  | .notAnInstruction _ _ => false
  | _ => true

/-- The steps that take longer than a cycle, and then what belongs to the end of a tick. -/
def State.endOfTick (s : State) : Pick :=
  match s.memoryStep <|> s.answerStep <|> s.engineStep <|> s.serviceStep with
  | some i => .run i s
  | none => let r := s.tickStep; .run r.1 r.2

/-- The model's own choice, when the agenda is empty: the cores take their cycles in turn, up to the twelve of a tick (R10) while some
core issues, with the steps that come about within a cycle before each of them. -/
def State.ownPick (s : State) : Pick :=
  match s.promptStep with
  | some i => .run i s
  | none =>
    match (s.cores.find? fun c => decide (s.turn ≤ c.1) && c.2.res.isSome) with
    | some c => s.corePick c.1
    | none =>
      if s.turn < 4608 && s.cycle < 11 && !s.lull then .done { s with turn := 0, cycle := s.cycle + 1, lull := true } else s.endOfTick

/-- R325: at a tick boundary the crews that are placed and ready start before all else. -/
def State.atEdge (s : State) : Option Instr := if s.edge then firstOf (fun i => evCrewStart i s) .crewStart (s.launches.map Prod.fst) else none

/-- Who moves next. -/
def State.pick (s : State) : Pick :=
  match (if s.booted then s.atEdge else none) with
  | some i => .run i s
  | none =>
    let s := { s with edge := false }
    match s.agenda with
    | [] => if s.booted then s.ownPick else .halted
    | m :: rest =>
      let s' := { s with agenda := rest }
      match m with
      | .event i => if Instr.namedStep i && (s.booted || startsUp i) then .run i s' else .done s'
      | .core n => if s.booted then s'.corePick n else .done s'

end Sys2Proof.Machine
end

