-- ==== Sys2Proof/Machine/Step.lean ====
section
/-! DEFINITION. One step of the part, and the placing of an instruction where the next step runs it. -/
namespace Sys2Proof.Machine

/-- One step: the move that `State.pick` chooses. -/
def step (s : State) : Host.Outcome State Fault Refusal :=
  match s.pick with
  | .run i s' => exec i s'
  | .done s' => .next s'
  | .halted => .fault .halted

/-- The services context of `withFetchWord`: its node is cluster 0, and one 64 GiB page at DVA 0 maps the second tier. -/
def fetchCtx (c : Ctx) : Ctx :=
  { c with st := .running, order := 3, base := 0, ptroot := 0x10000000010000#53,
           ranges := [{ base := 0x10000000000000#53, limit := 0x10000000020000#53, target := 0x10000000000000#53, dt := false,
                        scrub := false, rights := 0x3F }],
           rights := [(0, 0x3F)] }

/-- The word before a trailing word that does nothing: `addi x0, x0, 0`; and the word after a leading one: `kand k0, k0, k0`. -/
def nopBefore : Nat := (encode false (.addi 0 ⟨0, false⟩ 0)).toNat
def nopAfter : Nat := (encode false (.kand 0 0 0)).toNat

/-- The two words of the unit at DVA 0x1000 that runs a word: the word alone, before a word that does nothing, or after one. -/
def fetchWords (w : Word) : Nat × Nat :=
  if wLone w then (w.toNat, 0) else if wClass w then (nopBefore, w.toNat) else (w.toNat, nopAfter)

/-- The primary fibre of core 7 of cluster 0 is ready at DVA 0x1000, where the unit of a word stands (DESIGN CHOICE, log 2 and 3). -/
def State.withFetchWord (s : State) (_nbits w : Nat) : State :=
  let p := fetchWords (BitVec.ofNat 32 w)
  let s := s.setCtx 0 (fetchCtx (s.ctx 0))
  let s := ((s.writeNat 0x10000 8 0x12021).writeNat 0x12000 8 0x3B).writeNat 0x1000 8 (p.1 + p.2 * 2 ^ 32)
  let i := s.img 7 0
  let s := s.setImg 7 0 (i.setFibre 0 { i.fibre 0 with pc := 0x1000, st := .ready, uid := s.fresh })
  { s.setCore 7 { s.core 7 with res := some 0 } with fresh := s.fresh + 1, edge := false, agenda := [.core 7] }

end Sys2Proof.Machine
end

