-- ==== Sys2Proof/Safety.lean ====
section
/-! DEFINITION. What the statements say of a state: when a unit issues and completes, the results that the rules give, written
from the rules and apart from the meanings, and what a step leaves as it was. -/
namespace Sys2Proof.Safety
open Machine

/-! ### When a unit issues -/

/-- The word is a unit of its own (R159), its fibre may issue it (R62), no replay holds it back (R280), and no element that it pops or pushes
awaits an index (R276). -/
def Alone (s : State) (i : Instr) : Prop :=
  s.unit.pair = none ∧ s.lightGuard i = .ok () ∧ s.mayRunAhead i = true ∧ s.indexWaits i = false

/-- R64, R169: an x source is full. -/
abbrev XIn (s : State) (a : Src) : Prop := s.xFull a.r = true

/-- R65: no producer in flight will fill an x destination that is empty. -/
abbrev XOut (s : State) (r : Reg) : Prop := s.xFull r = true ∨ s.awaitsX s.unit.core s.unit.ctx s.unit.entry r = false

/-- R63, R334: a request finds a free reply slot. -/
abbrev SlotFree (s : State) : Prop := s.slotsUsed s.unit.core < 32

/-! ### Results of the integer instructions (R187 to R192, R195, R196) -/

/-- R188: the low 32 bits sign-extended, for a 32-bit form. -/
def low (w : Bool) (v : DWord) : DWord := if w then (v.setWidth 32).signExtend 64 else v

/-- R187: the quotients and remainders of a form. -/
def quotS (w : Bool) (a b : DWord) : DWord :=
  if w then (if b.setWidth 32 = 0#32 then -1 else ((a.setWidth 32).sdiv (b.setWidth 32)).signExtend 64)
  else if b = 0 then -1 else a.sdiv b
def quotU (w : Bool) (a b : DWord) : DWord :=
  if w then (if b.setWidth 32 = 0#32 then -1 else ((a.setWidth 32).udiv (b.setWidth 32)).signExtend 64)
  else if b = 0 then -1 else a.udiv b
def remS (w : Bool) (a b : DWord) : DWord :=
  if w then ((a.setWidth 32).srem (b.setWidth 32)).signExtend 64 else a.srem b
def remU (w : Bool) (a b : DWord) : DWord :=
  if w then ((a.setWidth 32).umod (b.setWidth 32)).signExtend 64 else a.umod b

/-- R187: the shifts of a form by an amount. -/
def shiftL (w : Bool) (a : DWord) (n : Nat) : DWord := low w (a <<< n)
def shiftR (w : Bool) (a : DWord) (n : Nat) : DWord := if w then ((a.setWidth 32) >>> n).signExtend 64 else a >>> n
def shiftA (w : Bool) (a : DWord) (n : Nat) : DWord := if w then ((a.setWidth 32).sshiftRight n).signExtend 64 else a.sshiftRight n

/-- R187: b mod W. -/
def amount (w : Bool) (b : DWord) : Nat := if w then b.toNat % 32 else b.toNat % 64

/-- R187: the clamped result where the sum or difference leaves the range. -/
def clampTo (neg : Bool) : DWord := if neg then 0x8000000000000000 else 0x7FFFFFFFFFFFFFFF

/-- An instruction, the x sources that it reads, and the value that it writes to its x destination. -/
abbrev XRow := Instr × List Src × DWord

/-- R187, R188: the register-3 operations, by the values a and b of ra and rb. -/
def integerRows (rd : Reg) (ra rb : Src) (w : Bool) (a b : DWord) : List XRow :=
  [(.add rd ra rb w, [ra, rb], low w (a + b)),
   (.sub rd ra rb w, [ra, rb], low w (a - b)),
   (.mul rd ra rb w, [ra, rb], low w (a * b)),
   (.mulh rd ra rb, [ra, rb], (a.signExtend 128 * b.signExtend 128).extractLsb' 64 64),
   (.mulhu rd ra rb, [ra, rb], (a.setWidth 128 * b.setWidth 128).extractLsb' 64 64),
   (.div rd ra rb w, [ra, rb], quotS w a b),
   (.divu rd ra rb w, [ra, rb], quotU w a b),
   (.rem rd ra rb w, [ra, rb], remS w a b),
   (.remu rd ra rb w, [ra, rb], remU w a b),
   (.and rd ra rb, [ra, rb], a &&& b),
   (.or rd ra rb, [ra, rb], a ||| b),
   (.xor rd ra rb, [ra, rb], a ^^^ b),
   (.shl rd ra rb w, [ra, rb], shiftL w a (amount w b)),
   (.shr rd ra rb w, [ra, rb], shiftR w a (amount w b)),
   (.sra rd ra rb w, [ra, rb], shiftA w a (amount w b)),
   (.min rd ra rb, [ra, rb], if b.slt a then b else a),
   (.max rd ra rb, [ra, rb], if a.slt b then b else a),
   (.minu rd ra rb, [ra, rb], if b.ult a then b else a),
   (.maxu rd ra rb, [ra, rb], if a.ult b then b else a),
   (.adds rd ra rb, [ra, rb], if a.saddOverflow b then clampTo a.msb else a + b),
   (.subs rd ra rb, [ra, rb], if a.ssubOverflow b then clampTo a.msb else a - b),
   (.clz rd ra, [ra], BitVec.ofNat 64 ((List.range 64).takeWhile fun i => !a.getMsbD i).length),
   (.ctz rd ra, [ra], BitVec.ofNat 64 ((List.range 64).takeWhile fun i => !a.getLsbD i).length),
   (.popc rd ra, [ra], BitVec.ofNat 64 ((List.range 64).countP fun i => a.getLsbD i))]

/-- R166, R192: the effective address with a size of 1. -/
def address (s : State) : MemOp → DWord
  | .disp b d => s.xVal b.r + d.signExtend 64
  | .index b i _ => s.xVal b.r + s.xVal i.r

/-- R189 to R192: immediates and `lea`, by the value a of ra. -/
def immediateRows (s : State) (rd : Reg) (ra : Src) (w : Bool) (q : BitVec 2) (imm : BitVec 13) (imm16 : BitVec 16) (n : BitVec 6)
    (m : MemOp) : List XRow :=
  let a := s.xVal ra.r
  let e : DWord := imm.signExtend 64
  [(.addi rd ra imm, [ra], a + e),
   (.andi rd ra imm, [ra], a &&& e),
   (.ori rd ra imm, [ra], a ||| e),
   (.xori rd ra imm, [ra], a ^^^ e),
   (.shli rd ra w n, [ra], shiftL w a n.toNat),
   (.shri rd ra w n, [ra], shiftR w a n.toNat),
   (.srai rd ra w n, [ra], shiftA w a n.toNat),
   (.li rd q imm16, [], imm16.setWidth 64 <<< (16 * q.toNat)),
   (.lik rd q imm16, [⟨rd, false⟩],
      (s.xVal rd &&& ~~~((0xFFFF : DWord) <<< (16 * q.toNat))) ||| imm16.setWidth 64 <<< (16 * q.toNat)),
   (.lea rd m, m.srcs, address s m)]

/-- R195: the sixteen predicates of a fibre: its own p0 to p7, and p8 to p15 of its core. -/
def predicates (s : State) : BitVec 16 := s.hwPreds s.unit.core s.unit.ctx ++ (s.view.fibre s.unit.entry).pred

/-- R195, R196: instructions that read predicates into an x register. -/
def selectRows (s : State) (rd : Reg) (pn : BitVec 4) (ra rb : Src) : List XRow :=
  [(.prd rd, [], (predicates s).setWidth 64),
   (.csel rd pn ra rb, [ra, rb], if (predicates s).getLsbD pn.toNat then s.xVal ra.r else s.xVal rb.r),
   (.cseln rd pn ra rb, [ra, rb], if (predicates s).getLsbD pn.toNat then s.xVal rb.r else s.xVal ra.r)]

/-- R193: the conditions. -/
def holds (c : CmpCond) (a b : DWord) : Bool :=
  match c with
  | .eq => a == b | .ne => a != b | .lt => a.slt b | .ge => b.sle a | .ltu => a.ult b | .geu => b.ule a
  | .tst => (a &&& b) != 0 | .ntst => (a &&& b) == 0

/-- R193 to R195: compares and predicate logic: the predicate that each writes to pd. -/
def predicateRows (s : State) (pd : BitVec 3) (c : CmpCond) (cb : Combine) (ra rb : Src) (imm : BitVec 9) (pa pb : BitVec 4) :
    List (Instr × List Src × Bool) :=
  let p (k : BitVec 4) : Bool := (predicates s).getLsbD k.toNat
  let c1 := holds c (s.xVal ra.r) (s.xVal rb.r)
  let old := (predicates s).getLsbD pd.toNat
  [(.cmp pd c cb ra rb, [ra, rb], match cb with | .set => c1 | .and => old && c1 | .or => old || c1),
   (.cmpi pd c ra imm, [ra], holds c (s.xVal ra.r) (imm.signExtend 64)),
   (.pand pd pa pb, [], p pa && p pb),
   (.por pd pa pb, [], p pa || p pb),
   (.pxor pd pa pb, [], xor (p pa) (p pb)),
   (.pandn pd pa pb, [], p pa && !p pb),
   (.pnot pd pa, [], !p pa),
   (.pset pd, [], true),
   (.pclr pd, [], false)]

/-! ### Transfers of control (R197, R198) -/

/-- A transfer: the instruction, its x sources, the register that it links, and where it goes: none to the next unit. -/
abbrev JumpRow := Instr × List Src × Option Reg × Option DWord

/-- R197, R198. -/
def jumpRows (s : State) (rd : Reg) (ra : Src) (pn : BitVec 4) (disp : BitVec 19) : List JumpRow :=
  let t := s.unit.pc + 4 * disp.signExtend 64
  let p := (predicates s).getLsbD pn.toNat
  [(.br disp, [], none, some t),
   (.bp pn disp, [], none, if p then some t else none),
   (.bpn pn disp, [], none, if p then none else some t),
   (.call rd disp, [], some rd, some t),
   (.jr ra, [ra], none, some (s.xVal ra.r)),
   (.callr rd ra, [ra], some rd, some (s.xVal ra.r)),
   (.ret ra, [ra], none, some (s.xVal ra.r))]

/-- R198: the link that a transfer writes. -/
def linked (s : State) : Option Reg → State
  | some r => s.writeX r s.unit.unitEnd
  | none => s

/-! ### Loops, fibres and special registers (R175 to R178, R200, R204, R208) -/

/-- R200: the four forms: the x sources, the level and the count. -/
def loopRows (s : State) (count disp : BitVec 12) (rc : Src) : List (Instr × List Src × Fin 2 × DWord) :=
  [(.lpset0 count disp, [], 0, count.setWidth 64),
   (.lpset1 count disp, [], 1, count.setWidth 64),
   (.lpsetr0 rc disp, [rc], 0, s.xVal rc.r),
   (.lpsetr1 rc disp, [rc], 1, s.xVal rc.r)]

/-- R204: the registers x1 to x8 of a fibre that is created. -/
def spawnRegs (s : State) : Vector DWord 8 :=
  #v[s.xVal 1, s.xVal 2, s.xVal 3, s.xVal 4, s.xVal 5, s.xVal 6, s.xVal 7, 0]

/-- R204: a fibre created at an address. -/
def spawned (s : State) (a : DWord) (level : BitVec 2) : Fibre :=
  { pc := a, st := .ready, level := level, boost := false, kind := 1, fe := 0xFF, pred := 0, tok := 0, wop := 0, age := 0, wait := 0,
    x := spawnRegs s, uid := s.fresh, crew := s.myFibre.crew }

/-- R204: the lowest free entry of 1 to 223. -/
def LowestFree (i : Img) (e : Nat) : Prop :=
  1 ≤ e ∧ e ≤ 223 ∧ (i.fibre e).st = .free ∧ ∀ k, 1 ≤ k → k < e → (i.fibre k).st ≠ .free

/-- R25, R48: the LID of a core: its linear cluster, and its slot. -/
def lidWord (core : Nat) : DWord := BitVec.ofNat 64 (core / 9) <<< 7 ||| BitVec.ofNat 64 (core % 9) <<< 3

/-- R281, R439: the count of a level that a read gives: a `rep` unit that ends the level has lowered it though its replay goes on. -/
def countOf (i : Img) (l : Fin 2) : DWord :=
  if i.rep.act = true ∧ i.rep.left ≠ 0 ∧ i.rep.ends.getLsbD l = true then i.lc[l] - 1 else i.lc[l]

/-- R175 to R178: the registers whose values are fixed, by code. -/
def sprRows (s : State) : List (BitVec 13 × DWord) :=
  let i := s.view
  [(0x000, i.fmt), (0x001, i.fctl), (0x002, i.fstatus), (0x008, BitVec.ofNat 64 s.tick),
   (0x010, lidWord s.unit.core), (0x011, s.ctxid s.unit.ctx),
   (0x012, s.myFibre.kind.setWidth 64 <<< 10 ||| s.myFibre.level.setWidth 64 <<< 8 ||| BitVec.ofNat 64 s.unit.entry),
   (0x018, (s.cluster (s.unit.core / 9)).mxissuer.setWidth 64),
   (0x020, i.lb[0]), (0x021, i.le[0]), (0x022, countOf i 0), (0x024, i.lb[1]), (0x025, i.le[1]), (0x026, countOf i 1)]

/-- R208: the registers that the primary may write: the bits that must be zero, and the state of the core that the write leaves. -/
def sprWrites (i : Img) (v : DWord) : List (BitVec 13 × DWord × Img) :=
  [(0x000, 0xFFFFFFFFFF000003, { i with fmt := v }),
   (0x001, 0xFFFFFFFFFFFFE0FC, { i with fctl := v }),
   (0x002, 0xFFFFFFFFFFFFFFC0, { i with fstatus := v }),
   (0x020, 3, { i with lb := #v[v, i.lb[1]] }), (0x021, 3, { i with le := #v[v, i.le[1]] }), (0x022, 0, { i with lc := #v[v, i.lc[1]], rep := i.rep.settled 0 }),
   (0x024, 3, { i with lb := #v[i.lb[0], v] }), (0x025, 3, { i with le := #v[i.le[0], v] }), (0x026, 0, { i with lc := #v[i.lc[0], v], rep := i.rep.settled 1 })]

/-! ### Lane-wise results (R254 to R266) -/

/-- R169, R273, R274, R276: the v operands of a word hold nothing back: each source is a full register, or a stream bound for popping whose
next element is held; the destination is a register that no producer in flight will fill, or a stream bound for pushing that has room
and whose items pass their checks. -/
def VReady (s : State) (d : Reg) (srcs : List Src) (mask : Nat) : Prop :=
  let os := .dv d :: srcs.map Opnd.v
  s.emptyTrap [] os = .ok () ∧ (∃ t, s.streamGuards [] os = .ok t) ∧ s.pushGuards os = .ok () ∧ (∃ t, s.pushCheck d mask = .ok t) ∧
    s.settle os = .ok ()

/-- R179, R143: an instruction pops its sources, writes a value to its v destination, in the lanes of width w that a mask names, and
merges flags into FSTATUS. -/
def WritesV (i : Instr) (s : State) (d : Reg) (srcs : List Src) (w mask : Nat) (val : VWord) (fl : Nat) : Prop :=
  ∀ t, (s.readVs (srcs.map Src.r)).2.writeV d val w mask = .ok t → exec i s = .next (s.commit (t.mergeFlags fl) .fall)

/-- R273: the values of v sources, in field order. -/
def sources (s : State) (srcs : List Src) : List VWord := (s.readVs (srcs.map Src.r)).1

/-- R11: lane i, of width w, of a value. -/
def laneOf (w : Nat) (v : VWord) (i : Nat) : BitVec w := v.extractLsb' (w * i) w

/-- The value whose lanes of width w are those given where the mask names them, and zero elsewhere. -/
def HasLanes (w mask : Nat) (f : Nat → BitVec w) (val : VWord) : Prop :=
  ∀ i, i < 256 / w → laneOf w val i = if mask.testBit i then f i else 0

/-- R255, R258: integer operations: the instruction, its sources, the mask field, and lane i from the lanes of the sources. -/
abbrev LaneRow (w : Nat) := Instr × List Src × BitVec 3 × (BitVec w → BitVec w → BitVec w)

def laneRows (d : Reg) (a b : Src) (m : BitVec 3) (t : Fmt) (imm : BitVec 7) (n : BitVec 6) : List (LaneRow t.width) :=
  let lt (x y : BitVec t.width) : Bool := if t.isSigned then x.slt y else x.ult y
  [(.vadd d a b m t, [a, b], m, fun x y => x + y),
   (.vsub d a b m t, [a, b], m, fun x y => x - y),
   (.vmul d a b m t, [a, b], m, fun x y => x * y),
   (.vmin d a b m t, [a, b], m, fun x y => if lt y x then y else x),
   (.vmax d a b m t, [a, b], m, fun x y => if lt x y then y else x),
   (.vand d a b m t, [a, b], m, fun x y => x &&& y),
   (.vor d a b m t, [a, b], m, fun x y => x ||| y),
   (.vxor d a b m t, [a, b], m, fun x y => x ^^^ y),
   (.vshl d a b m t, [a, b], m, fun x y => x <<< (y.toNat % t.width)),
   (.vshr d a b m t, [a, b], m, fun x y => x >>> (y.toNat % t.width)),
   (.vsra d a b m t, [a, b], m, fun x y => x.sshiftRight (y.toNat % t.width)),
   (.vabs d a m t, [a], m, fun x _ => if t.isSigned && x.msb then -x else x),
   (.vneg d a m t, [a], m, fun x _ => -x),
   (.vaddi d a t imm, [a], 0, fun x _ => x + imm.signExtend t.width),
   (.vshli d a t n, [a], 0, fun x _ => x <<< n.toNat),
   (.vshri d a t n, [a], 0, fun x _ => x >>> n.toNat),
   (.vsrai d a t n, [a], 0, fun x _ => x.sshiftRight n.toNat)]

/-- R260, R263: lanes moved: the instruction, the mask of the lanes written, and the lane of the result. -/
def moveRows (s : State) (d : Reg) (a b : Src) (m : BitVec 3) (t : Fmt) : List (Instr × Nat × (Nat → BitVec t.width)) :=
  let w := t.width
  let x := laneOf w ((sources s [a, b]).getD 0 0)
  let y := laneOf w ((sources s [a, b]).getD 1 0)
  let l := 256 / w
  [(.vsel d a b m t, allLanes, fun i => if s.view.k[m.toNat].getLsbD i then x i else y i),
   (.vperm d a b m t, s.kmask m, fun i => x ((y i).toNat % l)),
   (.vzip d a b m t, s.kmask m, fun i => if i % 2 = 0 then x (i / 2) else y ((i - 1) / 2)),
   (.vunzip d a b m t, s.kmask m, fun i => if i < l / 2 then x (2 * i) else y (2 * (i - l / 2)))]

/-- R254 `rnd`: a result rounded once, in the rounding mode of FCTL, with its flags. -/
def rounded (s : State) (t : Fmt) (x : Flagged FVal) : Flagged Nat :=
  let r := roundTo t x.1 (fld s.view.fctl 1 0) false
  (r.1, x.2 ||| r.2)

/-- R255 to R257, R146, R147: floating-point operations: the instruction, its sources, the mask field, and the exact value of a lane
of the values of its sources. -/
abbrev FloatRow := Instr × List Src × BitVec 3 × (FVal → FVal → FVal → Flagged FVal)

def floatRows (s : State) (d : Reg) (a b c : Src) (m : BitVec 3) (t : Fmt) : List FloatRow :=
  let rm := fld s.view.fctl 1 0
  [(.vadd d a b m t, [a, b], m, fun x y _ => fsum rm [x, y]),
   (.vsub d a b m t, [a, b], m, fun x y _ => fsum rm [x, y.neg]),
   (.vmul d a b m t, [a, b], m, fun x y _ => fdotSum rm [] [(x, y)]),
   (.vdiv d a b m t, [a, b], m, fun x y _ => fdiv x y),
   (.vmin d a b m t, [a, b], m, fun x y _ => (fmin x y, 0)),
   (.vmax d a b m t, [a, b], m, fun x y _ => (fmax x y, 0)),
   (.vsqrt d a m t, [a], m, fun x _ _ => fsqrt x),
   (.vabs d a m t, [a], m, fun x _ _ => (x.abs, 0)),
   (.vneg d a m t, [a], m, fun x _ _ => (x.neg, 0))] ++
  (let f (x y z : FVal) : Flagged FVal := fdotSum rm [z] [(x, y)]
   let g (x y z : FVal) : Flagged FVal := fdotSum rm [z] [(x.neg, y)]
   match t with
   | .f32 => [(.vfmaF32 d a b c, [a, b, c], 0, f), (.vfnmaF32 d a b c, [a, b, c], 0, g)]
   | .f64 => [(.vfmaF64 d a b c, [a, b, c], 0, f), (.vfnmaF64 d a b c, [a, b, c], 0, g)]
   | .f16 => [(.vfmaF16 d a b c, [a, b, c], 0, f), (.vfnmaF16 d a b c, [a, b, c], 0, g)]
   | .bf16 => [(.vfmaBf16 d a b c, [a, b, c], 0, f), (.vfnmaBf16 d a b c, [a, b, c], 0, g)]
   | _ => [])

/-- The flags of some lanes, those that the mask names. -/
def laneFlags (n mask : Nat) (f : Nat → Flagged Nat) : Nat :=
  (List.range n).foldl (fun x i => if mask.testBit i then x ||| (f i).2 else x) 0

/-- R143, R418, R82: flags whose trap bits are 0 are merged with the result; otherwise the word raises FPE, and what the translations of
its items have marked stays. -/
def FloatDone (i : Instr) (s : State) (d : Reg) (srcs : List Src) (w mask : Nat) (f : Nat → Flagged Nat) : Prop :=
  let fl := laneFlags (256 / w) mask f
  let tr := fl &&& fld s.view.fctl 12 8
  (tr = 0 → ∃ val, HasLanes w mask (fun k => BitVec.ofNat w (f k).1) val ∧ WritesV i s d srcs w mask val fl) ∧
  (tr ≠ 0 → ∀ t, s.pushCheck d mask = .ok t →
    exec i s = .next ((s.keepMarks t).stopUnit s.unit.wh (.trap .fpe 0 (BitVec.ofNat 64 (fl + tr * 256)))))

/-- R264, R149: the integer reductions of the lanes of a value that the mask names. -/
def intReduce (t : Fmt) (mask : Nat) (op : BitVec t.width → BitVec t.width → BitVec t.width) (ident : BitVec t.width) (v : VWord) :
    BitVec t.width :=
  (List.range (256 / t.width)).foldl (fun r i => if mask.testBit i then op r (laneOf t.width v i) else r) ident

def reduceRows (d : Reg) (a : Src) (m : BitVec 3) (t : Fmt) (mask : Nat) (v : VWord) : List (Instr × BitVec t.width) :=
  let lt (x y : BitVec t.width) : Bool := if t.isSigned then x.slt y else x.ult y
  let top : BitVec t.width := if t.isSigned then BitVec.intMax t.width else BitVec.allOnes t.width
  let bot : BitVec t.width := if t.isSigned then BitVec.intMin t.width else 0
  [(.vrsum d a m t, intReduce t mask (fun x y => x + y) 0 v),
   (.vrmax d a m t, intReduce t mask (fun x y => if lt x y then y else x) bot v),
   (.vrmin d a m t, intReduce t mask (fun x y => if lt y x then y else x) top v)]

/-- R149: element i of level l of the tree over some lanes. -/
def tree {α : Type} (op : α → α → α) (x : Nat → α) : Nat → Nat → α
  | 0, i => x i
  | l + 1, i => op (tree op x l (2 * i)) (tree op x l (2 * i + 1))

/-- R264, R149: the floating-point reductions: the operation on two values, and the identity. -/
def floatReduceRows (s : State) (d : Reg) (a : Src) (m : BitVec 3) (t : Fmt) : List (Instr × (FVal → FVal → Flagged FVal) × FVal) :=
  [(.vrsum d a m t, fun x y => fsum (fld s.view.fctl 1 0) [x, y], .fin true 0 0),
   (.vrmax d a m t, fun x y => (fmax x y, 0), .inf true),
   (.vrmin d a m t, fun x y => (fmin x y, 0), .inf false)]

/-- R259: the integer conditions. -/
def intCond (c : VCond) (t : Fmt) (x y : BitVec t.width) : Bool :=
  match c with
  | .eq => x == y
  | .ne => x != y
  | .lt => if t.isSigned then x.slt y else x.ult y
  | .le => if t.isSigned then x.sle y else x.ule y

/-- R259, R147: the conditions of two values. -/
def floatCond (c : VCond) (x y : FVal) : Bool :=
  match c with
  | .eq => x.same y
  | .ne => !x.same y
  | .lt => x.lt y
  | .le => x.lt y || x.same y

/-- R266: mask logic: the instruction and its result. -/
def maskRows (s : State) (d a b : BitVec 3) (x : Src) : List (Instr × List Src × Word) :=
  let k (n : BitVec 3) : Word := s.view.k[n.toNat]
  [(.kand d a b, [], k a &&& k b), (.kor d a b, [], k a ||| k b), (.kxor d a b, [], k a ^^^ k b), (.kandn d a b, [], k a &&& ~~~(k b)),
   (.knot d a, [], ~~~(k a)), (.kfromx d x, [x], (s.xVal x.r).setWidth 32)]

/-- R261: the conversions: from, to, the first lane of a one-source form, and whether two sources give the lanes. -/
def cvtRows : List (BitVec 4 × Fmt × Fmt × Nat × Bool) :=
  [(0, .f32, .bf16, 0, true), (1, .f32, .f16, 0, true), (2, .bf16, .f32, 0, false), (3, .bf16, .f32, 8, false),
   (4, .f16, .f32, 0, false), (5, .f16, .f32, 8, false), (6, .f32, .f64, 0, false), (7, .f32, .f64, 4, false),
   (8, .f64, .f32, 0, true), (9, .f32, .s32, 0, false), (10, .f32, .n32, 0, false), (11, .s32, .f32, 0, false),
   (12, .n32, .f32, 0, false), (13, .f64, .s64, 0, false), (14, .s64, .f64, 0, false), (15, .s32, .s16, 0, true)]

/-! ### Memory (R166, R223 to R230) -/

/-- R166: the effective address of an access of a size: the displacement, or a shifted index, is scaled by it. -/
def effAddr (s : State) (m : MemOp) (size : Nat) : DWord :=
  match m with
  | .disp b d => s.xVal b.r + d.signExtend 64 * BitVec.ofNat 64 size
  | .index b i sh => s.xVal b.r + (if sh then s.xVal i.r * BitVec.ofNat 64 size else s.xVal i.r)

/-- R224: the scalar loads: the instruction, its size, and whether it extends the sign. -/
def loadRows (rt : Reg) (m : MemOp) (sc : Scope) : List (Instr × Nat × Bool) :=
  [(.ldB rt m sc, 1, true), (.ldBu rt m sc, 1, false), (.ldH rt m sc, 2, true), (.ldHu rt m sc, 2, false), (.ldW rt m sc, 4, true),
   (.ldWu rt m sc, 4, false), (.ldD rt m sc, 8, false)]

/-- R225: the scalar stores and their sizes. -/
def storeRows (m : MemOp) (rt : Src) (sc : Scope) (md : StMode) : List (Instr × Nat) :=
  [(.stB m rt sc md, 1), (.stH m rt sc md, 2), (.stW m rt sc md, 4), (.stD m rt sc md, 8)]

/-- R224: the value of n bytes, extended. -/
def extended (size : Nat) (signed : Bool) (v : Nat) : DWord :=
  if signed then (BitVec.ofNat (8 * size) v).signExtend 64 else (BitVec.ofNat (8 * size) v).setWidth 64

/-- R11: byte i of a value. -/
def byteOf (v : Nat) (i : Nat) : Byte := BitVec.ofNat 8 (v >>> (8 * i))

/-- R131, R457: a state after a scope field has been read, and the scope in effect, under the cap of the issuing context. -/
def underScope (s : State) (sc : Scope) : State := if sc = .core then s else s.demote s.unit.ctx sc
def inEffect (s : State) (sc : Scope) : Option Scope := if sc = .core then none else some (s.capped s.unit.ctx sc)

/-- R227: the new value of an `amo`. -/
def amoResult (op : AmoOp) (old v : DWord) : DWord :=
  match op with
  | .add => old + v | .and => old &&& v | .or => old ||| v | .xor => old ^^^ v | .swap => v
  | .min => if v.slt old then v else old
  | .max => if old.slt v then v else old
  | .minu => if v.ult old then v else old
  | .maxu => if old.ult v then v else old

/-! ### Fill words, tokens and their waits (R231 to R238) -/

/-- R231: the two dwords of the fill word at a place. -/
def fillWords (s : State) (a : Nat) : DWord × DWord :=
  (BitVec.ofNat 64 (ofBytes (s.getBytes a 8)), BitVec.ofNat 64 (ofBytes (s.getBytes (a + 8) 8)))

/-- R231: the generation of a fill word. -/
def generation (s : State) (a : Nat) : Word := (fillWords s a).2.extractLsb' 32 32

/-- R283: the two-bit code of a token: 0 idle, 1 pending, 2 complete. -/
def tokenOf (f : Fibre) (i : Nat) : BitVec 2 := f.tok.extractLsb' (2 * i) 2

/-- Two fibres are alike but for their tokens. -/
def SameButTokens (f g : Fibre) : Prop := g = { f with tok := g.tok }

/-- R237, R238: i is the first of a rotating order from the place after `last` that satisfies a test. -/
def FirstFrom (last : Nat) (ok : Nat → Prop) (i : Nat) : Prop :=
  ∃ n, n < 8 ∧ i = (last + 1 + n) % 8 ∧ ok i ∧ ∀ k, k < n → ¬ ok ((last + 1 + k) % 8)

/-- R413: the instructions that a handler may not issue. -/
def handlerWaits (rd : Reg) (ra rb : Src) (mask : BitVec 8) (q : BitVec 3) (n : BitVec 4) : List Instr :=
  [.syncwait rd ra, .waitt mask, .waitany rd mask, .waitanyF rd ra mask, .semwait n, .wfe rd mask, .qpop rd q false, .qpush q false rb,
   .qpopv rd q false, .qpushv q false rb]

/-! ### Messages and queues (R239 to R251) -/

/-- R242, R244, R245, R74: the outcome code of a message for a tag that reaches a context's core. -/
def acceptCode (s : State) (core ctx tag : Nat) : Nat :=
  let i := s.img core ctx
  let e := i.handler tag
  if (s.core core).res = some ctx then
    if i.parked ≠ [] ∨ i.freeSlot = none then 1
    else if e.getLsbD 59 then 0
    else if e.getLsbD 60 ∧ i.heldFor tag < 8 ∧ i.heldAll < 32 then 0
    else 2
  else if ((i.parked ++ i.kept).filter fun p => p.slot.isNone).length < 64 then 0
  else 3

/-- R245: where a message goes under an entry of the handler table. -/
def routeFor (e : DWord) : Route := if e.getLsbD 59 = false then .held else if e.getLsbD 58 then .q1 else .handler

/-- R246: the forms of `tagctl` that change an entry: the form, its x source, and the new entry. -/
def tagRows (s : State) (ra : Src) (tag : BitVec 8) (e : DWord) : List (Instr × List Src × DWord) :=
  [(.tagctlLd ra tag, [ra], s.xVal ra.r),
   (.tagctlEn tag, [], e ||| 0x0800000000000000),
   (.tagctlDis tag, [], e &&& ~~~0x0800000000000000),
   (.tagctlPon tag, [], e ||| 0x1000000000000000),
   (.tagctlPoff tag, [], e &&& ~~~0x1000000000000000)]

/-- R248: the queue operations: the instruction, its x sources, its destination, the right it needs, and what it asks the queue controller. -/
def queueRows (s : State) (rd : Reg) (ra rb : Src) (pn : BitVec 3) : List (Instr × List Src × Reg × (Cap → Bool) × (Nat → Job)) :=
  [(.qenq ra rb pn, [ra, rb], 0, Cap.enq, fun q => .enq q (s.xVal rb.r)),
   (.qdeq rd ra pn, [ra], rd, Cap.deq, fun q => .deq q false),
   (.qsteal rd ra pn, [ra], rd, Cap.steal, fun q => .deq q true)]

/-- R249: the binding forms: the instruction, the direction and the right. -/
def bindRows (q : BitVec 1) (ra : Src) : List (Instr × BitVec 2 × (Cap → Bool)) :=
  [(.qenqBind q ra, 1, Cap.enq), (.qdeqBind q ra, 2, Cap.deq), (.qstealBind q ra, 3, Cap.steal)]

/-- R251: q2 and q3 are bound for a pop, or for a push. -/
def BoundFor (s : State) (q : BitVec 3) (push : Bool) : Prop :=
  ∀ k, (h : k < 2) → q.toNat = k + 2 → if push then s.me.qreg[k].dir = 1 else s.me.qreg[k].dir = 2 ∨ s.me.qreg[k].dir = 3

/-! ### The matrix unit, gathers and copies (R285, R298 to R315) -/

/-- R285: a request is accepted, with the FMT and the handles that it carries. -/
def accepted (s : State) (op : MOp) : State :=
  let c := s.cluster (s.unit.core / 9)
  { s.setCluster (s.unit.core / 9) { c with mreqs := c.mreqs ++ [{ who := s.who, id := s.fresh, op := op, fmt := s.view.fmt }] } with
    fresh := s.fresh + 1 }

/-- R285: an instruction hands the matrix unit a request, or stays ready while all eight entries are taken. -/
def Requests (i : Instr) (s : State) (op : MOp) : Prop :=
  let n := (s.cluster (s.unit.core / 9)).mreqs.length
  (n < 8 → exec i s = .next (s.commit (accepted s op) .fall)) ∧ (8 ≤ n → exec i s = .next s)

/-- R178, R284: the issuing core holds the right to issue matrix instructions. -/
abbrev Issuer (s : State) : Prop := s.unit.core % 9 = (s.cluster (s.unit.core / 9)).mxissuer.toNat

/-- R301: a handle register holds an operand of a format for a product of depth k; the kind of its level 0 apart. -/
def Operand (s : State) (n : BitVec 3) (f : Fmt) (k : Nat) : Prop :=
  let h := s.view.h[n.toNat]
  let v := hview h
  handleValid h = true ∧ v.etype = f ∧ v.nlev = 2 ∧ v.o0 % 48 = 0 ∧ v.o0 + k ≤ v.ext 0 ∧ v.o1 + 64 ≤ v.ext 1 ∧
  s.blockChecks h n.toNat k false = .ok ()

/-- R290: the pairs of operand formats. -/
def productPairs : List (Fmt × Fmt) :=
  [(.bf16, .bf16), (.f16, .f16), (.f8a, .f8a), (.f8a, .f8b), (.f8b, .f8a), (.f8b, .f8b), (.s8, .s8), (.f4, .f4)]

/-- R298: the lanes of a gather or scatter of w-bit elements that a mask names. -/
def gathered (w mask : Nat) : List Nat := (List.range 8).filter fun i => decide (i < 256 / w) && mask.testBit i

/-- R283, R312: the tokens that a mask names take a state. -/
def marked (f : Fibre) (toks : BitVec 8) (code : Nat) : Fibre :=
  (List.range 8).foldl (fun f i => if toks.getLsbD i then f.setToken i code else f) f

/-- R309: the three copies. -/
def copyInstr (form : CopyForm) (rd : Reg) (ra rb : Src) (sc : Scope) : Instr :=
  match form with
  | .plain => .copy rd ra rb sc
  | .multi => .copym rd ra rb sc
  | .xfer => .copyx rd ra rb sc

/-! ### Context instructions (R212 to R222) -/

/-- R212: the nine forms: the instruction, its x sources, whether it is long, and what it does after its `fence.pk`. -/
def contextRows (rd : Reg) (ra rb : Src) (tk : BitVec 3) : List (Instr × List Src × Bool × (State → Except CtxFail (State × DWord))) :=
  [(.ctxnew rd ra, [ra], false, fun s => ctxnewBody (s.xVal ra.r) s),
   (.ctxgrant rd ra rb, [ra, rb], false, fun s => ctxgrantBody (s.xVal ra.r) (s.xVal rb.r) s),
   (.ctxrevoke rd ra tk, [ra], true, fun s => ctxrevokeBody (s.xVal ra.r) tk s),
   (.ctxstart rd ra, [ra], false, fun s => ctxstartBody (s.xVal ra.r) s),
   (.ctxstop rd ra tk, [ra], true, fun s => ctxstopBody (s.xVal ra.r) tk s),
   (.ctxsave rd ra rb tk, [ra, rb], true, fun s => imageBody false (s.xVal ra.r) (s.xVal rb.r) tk s),
   (.ctxload rd ra rb tk, [ra, rb], true, fun s => imageBody true (s.xVal ra.r) (s.xVal rb.r) tk s),
   (.ctxinfo rd ra rb, [ra, rb], false, fun s => ctxinfoBody (ra.r == 0) (s.xVal ra.r) (s.xVal rb.r) s),
   (.reflect rd ra, [ra], false, fun s => reflectBody (s.xVal ra.r) s)]

/-- R221, R457: the items of a context. -/
def infoRows (s : State) (n : Nat) : List (DWord × DWord) :=
  let c := s.ctx n
  let st : DWord := match c.st with | .created => 0 | .running => 1 | .stopped => 2 | .saved => 3 | .revoked => 4
  [(0, st ||| (if c.busy then 0x100 else 0)), (1, s.ctxid n), (2, c.order.setWidth 64 ||| c.base.setWidth 64 <<< 16), (3, c.budget),
   (4, c.thr.setWidth 64),
   (5, c.prio.setWidth 64 ||| c.scap.setWidth 64 <<< 4 ||| (if c.demoted = 0 then 0 else 0x100) ||| c.demoted.setWidth 64 <<< 9),
   (6, c.deadline.setWidth 64)]

/-- R214, R429: a long operation is accepted: its progress is recorded, its token is pending, and its target is busy, but for a revocation. -/
def longAccepted (s : State) (op : BitVec 3) (tk : BitVec 3) (t : Nat) (image : DWord) : State :=
  let word : DWord := 0x8000000000000000 ||| op.setWidth 64 <<< 60 ||| tk.setWidth 64 <<< 57 ||| (BitVec.ofNat 12 t).setWidth 64 <<< 45 |||
    (s.ctx t).gen.setWidth 64 <<< 29
  let u := s.setMe { s.me with ops := s.me.ops ++ [{ word := word, image := image, uid := s.myFibre.uid }] }
  let v := u.setMyFibre (u.myFibre.setToken tk.toNat 1)
  if op = 4 then v else v.setCtx t { v.ctx t with busy := true }

/-- Dwords enter a queue in order (R247); none when it fills. -/
def enqueueAll (s : State) (qid : Nat) : List DWord → Option State
  | [] => some s
  | d :: ds => match s.enqueue qid d with
    | some t => enqueueAll t qid ds
    | none => none

/-- A source register read in block mode (R168). -/
def plain (r : Reg) : Src := ⟨r, false⟩

/-- The worked examples of spec/06 to spec/10: words, and the instructions that they stand for. -/
def sampleWords : List (Nat × Instr) :=
  [(0x8129_8745, .div 5 (plain 6) (plain 7) true), (0x8200_0000, .addi 0 (plain 0) 0), (0x0231_8020, .addi 6 (plain 6) 32),
   (0x882A_BEEF, .li 5 1 0xBEEF), (0x8A11_4602, .cmp 2 .lt .set (plain 5) (plain 6)), (0x9400_3003, .lpset0 3 3), (0x9750_0001, .lpsetr1 (plain 10) 1),
   (0xA62B_0400, .ldD 5 (.disp (plain 12) 0) .qd), (0xA449_0099, .ldW 9 (.index (plain 4) (plain 6) true) .core), (0xA745_0002, .ldv 8 (.disp (plain 20) 2) .core),
   (0xAB29_0902, .stD (.disp (plain 4) 2) (plain 5) .pk .ga), (0xAD32_8B01, .amo .add 6 (plain 10) (plain 11) .cl), (0xAF00_0004, .fence .pk)] ++
  [(0xB04A_8400, .syncarr 9 (plain 10)), (0xB04A_8800, .syncwait 9 (plain 10)), (0xB24B_0100, .sendm 9 (plain 12) (plain 1)), (0xB302_0100, .reply (plain 8) (plain 1)),
   (0xB749_2000, .qpop 9 4 true), (0xB818_0103, .mma 3 0 1 3), (0xB800_0120, .mmas 0 0 1 0), (0xB820_0241, .mmac 4 0 2 1),
   (0xB900_1444, .mxfmt true 4 4 4), (0xBA02_4020, .accrd 0 (plain 9)), (0xBA20_0343, .accdc 4 3 3), (0xBB0A_8001, .hld 1 (.disp (plain 10) 1) .core),
   (0xBD40_8902, .hgat 8 2 (plain 9) 0), (0xBD19_0527, .hsca .add 3 (plain 4) (plain 5) 1), (0xBE00_0433, .sempost 3 3), (0xBF21_4604, .copy 4 (plain 5) (plain 6) .cl)] ++
  [(0x4140_0900, .vadd 8 (plain 0) (plain 9) 0 .f32), (0x4140_2900, .vadd 8 ⟨0, true⟩ (plain 9) 0 .f32), (0xC731_C001, .vsqrt 6 (plain 7) 0 .f64),
   (0xD49A_0900, .vcmp .lt 3 (plain 8) (plain 9) 0 .f32), (0xD650_8300, .vcvt 10 (plain 2) (plain 3) 0 0), (0xDF29_547D, .vaddi 5 (plain 5) .s32 0x7D),
   (0xDC39_8000, .vrsum 7 (plain 6) 0 .f32), (0xD010_0404, .vfmaF32 2 (plain 0) (plain 4) (plain 1)), (0xE404_007F, .repImm 0 127)]

/-! ### What a step leaves as it was -/

/-- Nothing but the images of fibres and the round-robins of cores may differ; what the unit's translations have read is forgotten (R90). -/
def OnlyFibres (s t : State) : Prop := t = { s with imgs := t.imgs, cores := t.cores, lookups := {} }

/-- Every image but one core's of one context is as it was. -/
def OtherImages (s t : State) (core ctx : Nat) : Prop := ∀ k, k ≠ imgKey core ctx → tget t.imgs k = tget s.imgs k

/-- Every core is as it was, but for the round-robin of one (R69). -/
def OtherCores (s t : State) (core : Nat) : Prop :=
  (∀ k, k ≠ core → t.core k = s.core k) ∧ t.core core = { s.core core with rr := (t.core core).rr }

/-- Every byte of memory reads as it did. -/
def SameMemory (s t : State) : Prop := ∀ a, t.byte a = s.byte a

/-- The memory of a state is in its canonical form. -/
abbrev Inv (s : State) : Prop := Memory.wf s.mem = true

end Sys2Proof.Safety
end

