-- ==== Sys2Proof/Certificates/Slice0/Obligations.lean ====
section
/-! DEFINITION. The statements for the provers. -/

open Sys2Proof Sys2Proof.Machine Sys2Proof.Safety

/-! ### The parts of the statements -/

/-- R187, R188: each register-3 operation writes its result to rd and goes on, in every form, x0 as a source or destination and
light fibres included. -/
def Claims.IntegerResults : Prop :=
  ∀ (s : State) (rd : Reg) (ra rb : Src) (w : Bool),
    ∀ p ∈ integerRows rd ra rb w (s.xVal ra.r) (s.xVal rb.r),
      Alone s p.1 → (∀ a ∈ p.2.1, XIn s a) → XOut s rd →
      exec p.1 s = .next (s.commit (s.writeX rd p.2.2) .fall)

/-- R58, R173, R179, R188: an instruction of the integer, immediate, selection and transfer families that completes changes its
destination and what the end of a unit changes, and nothing else: every other x register, the predicates and tokens of its
fibre, every other image and core, and every byte of memory stand; x0 reads as zero after a write to it. -/
def Claims.RegisterFrame : Prop :=
  ∀ (s : State) (r : Reg) (v : DWord) (c : Ctl), s.unit.view = none → (s.unit.entry = 0 ∨ r.toNat ≤ 8) →
    (c = .fall ∨ ∃ a, c = .jump a) →
    let t := s.commit (s.writeX r v) c
    (r ≠ 0 → t.xVal r = v ∧ t.xFull r = true) ∧ t.xVal 0 = 0 ∧
    (∀ q, q ≠ r → t.xVal q = s.xVal q ∧ t.xFull q = s.xFull q) ∧
    OnlyFibres s t ∧ SameMemory s t ∧ OtherImages s t s.unit.core s.unit.ctx ∧ OtherCores s t s.unit.core ∧
    t.me = { s.me with x := t.me.x, xfull := t.me.xfull, lc := t.me.lc, rq := t.me.rq, hush := t.me.hush } ∧
    (s.unit.entry ≠ 0 → t.me.x = s.me.x ∧ t.me.xfull = s.me.xfull ∧ t.me.lc = s.me.lc) ∧
    (∀ e, e ≠ s.unit.entry → t.me.fibre e = s.me.fibre e) ∧
    t.myFibre = { s.myFibre with pc := t.myFibre.pc, age := 0, boost := false, x := t.myFibre.x, fe := t.myFibre.fe } ∧
    (s.unit.entry = 0 → t.myFibre.x = s.myFibre.x ∧ t.myFibre.fe = s.myFibre.fe)

/-- R189 to R192: the immediate operations and `lea` write their results to rd. -/
def Claims.ImmediateResults : Prop :=
  ∀ (s : State) (rd : Reg) (ra : Src) (w : Bool) (q : BitVec 2) (imm : BitVec 13) (imm16 : BitVec 16) (n : BitVec 6) (m : MemOp),
    (w = true → n.toNat < 32) →
    ∀ p ∈ immediateRows s rd ra w q imm imm16 n m,
      Alone s p.1 → (∀ a ∈ p.2.1, XIn s a) → XOut s rd →
      exec p.1 s = .next (s.commit (s.writeX rd p.2.2) .fall)

/-- R195, R196: `prd` reads the sixteen predicates; `csel` and `cseln` select by one of them. -/
def Claims.SelectResults : Prop :=
  ∀ (s : State) (rd : Reg) (pn : BitVec 4) (ra rb : Src),
    ∀ p ∈ selectRows s rd pn ra rb,
      Alone s p.1 → (∀ a ∈ p.2.1, XIn s a) → XOut s rd →
      exec p.1 s = .next (s.commit (s.writeX rd p.2.2) .fall)

/-- R197, R198: the transfers of control, taken and not taken, and their links; a register target is word-aligned. -/
def Claims.TransferResults : Prop :=
  ∀ (s : State) (rd : Reg) (ra : Src) (pn : BitVec 4) (disp : BitVec 19),
    ∀ p ∈ jumpRows s rd ra pn disp,
      Alone s p.1 → (∀ a ∈ p.2.1, XIn s a) → (p.2.1 ≠ [] → (s.xVal ra.r).toNat % 4 = 0) → (p.2.2.1 ≠ none → XOut s rd) →
      exec p.1 s = .next (s.commit (linked s p.2.2.1) (match p.2.2.2 with | some t => .jump t | none => .fall))

/-- R198, R205, R404: a register target that is not word-aligned is an ALIGN fault with the target and 4, whatever else waits. -/
def Claims.MisalignedTarget : Prop :=
  ∀ (s : State) (rd : Reg) (ra : Src) (level : BitVec 2), XIn s ra → (s.xVal ra.r).toNat % 4 ≠ 0 →
    ∀ i ∈ [Instr.jr ra, .callr rd ra, .ret ra, .spawn rd ra level], Alone s i →
      exec i s = .next (s.stopUnit s.unit.wh (.trap .align (s.xVal ra.r) 4))

/-- R161, R201, R197: where a unit ends: a transfer sets the PC of its fibre; the primary's loops set it where the unit ends on
their end address, level 1 first; otherwise the PC is the address after the unit. -/
def Claims.UnitEnd : Prop :=
  ∀ (s t : State) (a : DWord), t.unit = s.unit →
    let u := s.unit
    let e := u.unitEnd - 4
    let i := t.img u.core u.ctx
    (((s.commit t (.jump a)).img u.core u.ctx).fibre u.entry).pc = a ∧
    (u.entry ≠ 0 → (((s.commit t .fall).img u.core u.ctx).fibre u.entry).pc = u.unitEnd) ∧
    (u.entry = 0 →
      let f := (s.commit t .fall).img u.core u.ctx
      (i.lc[1] ≠ 0 ∧ e = i.le[1] ∧ i.lc[1] ≠ 1 → (f.fibre 0).pc = i.lb[1] ∧ f.lc[1] = i.lc[1] - 1 ∧ f.lc[0] = i.lc[0]) ∧
      (i.lc[1] = 1 ∧ e = i.le[1] → f.lc[1] = 0) ∧
      (¬ (i.lc[1] ≠ 0 ∧ e = i.le[1] ∧ i.lc[1] ≠ 1) → i.lc[0] ≠ 0 ∧ e = i.le[0] ∧ i.lc[0] ≠ 1 →
        (f.fibre 0).pc = i.lb[0] ∧ f.lc[0] = i.lc[0] - 1) ∧
      (¬ (i.lc[1] ≠ 0 ∧ e = i.le[1] ∧ i.lc[1] ≠ 1) → i.lc[0] = 1 ∧ e = i.le[0] → (f.fibre 0).pc = u.unitEnd ∧ f.lc[0] = 0) ∧
      (¬ (i.lc[1] ≠ 0 ∧ e = i.le[1] ∧ i.lc[1] ≠ 1) → ¬ (i.lc[0] ≠ 0 ∧ e = i.le[0]) → (f.fibre 0).pc = u.unitEnd ∧ f.lc[0] = i.lc[0]))

/-- R204, R56: `spawn` makes a ready light fibre in the lowest free entry and gives its number, or gives 0 where there is none; it
waits where one of x1 to x7 is empty, and is tried again where a message or an upcall waits for an entry of those (R332; the order within a
step is the model's choice, log 92). -/
def Claims.SpawnResults : Prop :=
  ∀ (s : State) (rd : Reg) (ra : Src) (level : BitVec 2), Alone s (.spawn rd ra level) → XIn s ra → XOut s rd →
    (s.xVal ra.r).toNat % 4 = 0 →
    ((∀ r ∈ ([1, 2, 3, 4, 5, 6, 7] : List Reg), s.xFull r = true) → (∀ w, s.me.nextWaiter = some w → w.2 ≤ 223) →
      s.me.nextWaiter ≠ none → exec (.spawn rd ra level) s = .next s) ∧
    ((∀ r ∈ ([1, 2, 3, 4, 5, 6, 7] : List Reg), s.xFull r = true) → (∀ w, s.me.nextWaiter = some w → 223 < w.2) →
      (∀ e, LowestFree s.me e →
        let t := { s with fresh := s.fresh + 1 }.setMe (s.me.setFibre e (spawned s (s.xVal ra.r) level))
        exec (.spawn rd ra level) s = .next (s.commit
          ((match s.myFibre.crew with | some id => t.crewMore id | none => t).writeX rd (BitVec.ofNat 64 e)) .fall)) ∧
      ((∀ e, 1 ≤ e → e ≤ 223 → (s.me.fibre e).st ≠ .free) →
        exec (.spawn rd ra level) s = .next (s.commit (s.writeX rd 0) .fall))) ∧
    (∀ r ∈ ([1, 2, 3, 4, 5, 6, 7] : List Reg), s.xFull r = false → (∀ q ∈ ([1, 2, 3, 4, 5, 6, 7] : List Reg), q.toNat < r.toNat → s.xFull q = true) →
      exec (.spawn rd ra level) s = .next (s.setMyFibre (s.myFibre.waits 1 r.toNat (.xreg r))))

/-- R206, R61: `exit` waits for the lowest producer of its registers; a light fibre that owes nothing frees its entry and no more;
any fibre whose registers have landed, whose pushes have drained and whose notice may go retires. -/
def Claims.ExitResults : Prop :=
  ∀ (s : State), Alone s .exit →
    let u := s.unit
    (∀ r, s.producer u.core u.ctx u.entry = some r → exec .exit s = .next (s.setMyFibre (s.myFibre.waits 1 r .producers))) ∧
    (s.producer u.core u.ctx u.entry = none →
      (u.entry = 0 → ∀ k, (h : k < 4) → s.me.streams[k].push = []) →
      (∀ id l, s.myFibre.owes = some id → tget s.links id = some l → l.replied = false → l.fences = true → s.fenceDone s.who .pk = true) →
      exec .exit s = .next (s.commit (s.retire u.core u.ctx u.entry) .ended) ∧
      (u.entry ≠ 0 → s.myFibre.owes = none → s.myFibre.crew = none →
        s.retire u.core u.ctx u.entry =
          s.setMe { s.me with rq := tdel s.me.rq u.entry, parkings := s.me.parkings.filter fun p => p.entry != u.entry }))

/-- R205, R207, R130: `yield` changes nothing but what the end of a unit changes; `sys` freezes its fibre past the unit and `brk` at
it; `ifence` empties the instruction cache of its cluster. -/
def Claims.SystemResults : Prop :=
  ∀ (s : State) (num : BitVec 12),
    let fa := s.unitFault s.unit.wh
    let c := s.unit.core / 9
    (Alone s .yield → exec .yield s = .next (s.commit s .fall)) ∧
    (Alone s (.sys num) → exec (.sys num) s = .next ((({ s with lookups := {} }).issued s.unit.unitEnd).freeze fa .sys 0 (num.setWidth 64))) ∧
    (Alone s (.brk num) → exec (.brk num) s = .next ((({ s with lookups := {} }).issued s.unit.pc).freeze fa .brk 0 (num.setWidth 64))) ∧
    (Alone s .ifence → exec .ifence s = .next (s.commit (s.setCluster c { s.cluster c with icache := [] }) .fall))

/-- R210, R72: `ckpt` goes on where no pre-emption of its context is pending, and otherwise stops its fibre after the unit, with its
table; a table that is not dword-aligned is an ALIGN fault. -/
def Claims.CheckpointResults : Prop :=
  ∀ (s : State) (ra : Src), Alone s (.ckpt ra) → XIn s ra →
    ((s.xVal ra.r).toNat % 8 ≠ 0 → exec (.ckpt ra) s = .next (s.stopUnit s.unit.wh (.trap .align (s.xVal ra.r) 8))) ∧
    ((s.xVal ra.r).toNat % 8 = 0 → s.preempting (s.unit.core / 9) s.unit.ctx = false →
      exec (.ckpt ra) s = .next (s.commit s .fall)) ∧
    ((s.xVal ra.r).toNat % 8 = 0 → s.preempting (s.unit.core / 9) s.unit.ctx = true →
      exec (.ckpt ra) s = .next (((s.commit s .fall).stopAt (s.xVal ra.r)).primaryStopped))

/-- R211: `wfe` gives p8 to p15 where one that its mask names is true or its mask is 0, and waits otherwise; a handler may not wait. -/
def Claims.WaitForCondition : Prop :=
  ∀ (s : State) (rd : Reg) (mask : BitVec 8), Alone s (.wfe rd mask) → XOut s rd →
    let c := s.hwPreds s.unit.core s.unit.ctx
    (s.myFibre.kind = 2 → exec (.wfe rd mask) s = .next (s.stopUnit s.unit.wh (.trap .hwait 0 0))) ∧
    (s.myFibre.kind ≠ 2 → (c &&& mask ≠ 0 ∨ mask = 0) → exec (.wfe rd mask) s = .next (s.commit (s.writeX rd (c.setWidth 64)) .fall)) ∧
    (s.myFibre.kind ≠ 2 → c &&& mask = 0 → mask ≠ 0 →
      exec (.wfe rd mask) s = .next (s.setMyFibre (s.myFibre.waits 2 mask.toNat (.hw mask))))

/-- R175 to R178, R208: `mfs` reads each register; CYCLE lies between the periods that the tick has shown and those that it ends
with, where within the tick is the model's choice (log 9); behind a replay FCTL and FSTATUS wait; a code that names no register is an SPR
fault. -/
def Claims.ReadSpecialRegisters : Prop :=
  ∀ (s : State) (rd : Reg) (code : BitVec 13), Alone s (.mfs rd code) → XOut s rd →
    (∀ p ∈ sprRows s, p.1 = code → s.fpBusy code.toNat = false → s.unit.entry < 256 →
      exec (.mfs rd code) s = .next (s.commit (s.writeX rd p.2) .fall)) ∧
    (code = 0x009 →
      let d := s.dieOf (s.unit.core / 576)
      ∃ p t, d.phase ≤ p ∧ (d.phase ≤ 60 - 3 * d.level.toNat → p ≤ 60 - 3 * d.level.toNat) ∧
        t = { s.setDie (s.unit.core / 576) { d with phase := p } with fresh := s.fresh + 1 } ∧
        exec (.mfs rd code) s = .next (s.commit (t.writeX rd (BitVec.ofNat 64 ((d.cyc + p) / 5))) .fall)) ∧
    (s.fpBusy code.toNat = true → exec (.mfs rd code) s = .next s) ∧
    ((∀ p ∈ sprRows s, p.1 ≠ code) → code ≠ 0x009 → exec (.mfs rd code) s = .next (s.stopUnit s.unit.wh (.trap .spr 0 0)))

/-- R208: `mts` writes each register that is RW to the primary, and refuses a value with a reserved bit set; the services context
moves the matrix-issue right of a cluster whose requests have finished, which the write waits for; what becomes of tiles and copy core is the
model's choice (log 90); every other code is an SPR fault. -/
def Claims.WriteSpecialRegisters : Prop :=
  ∀ (s : State) (code : BitVec 13) (ra : Src), Alone s (.mts code ra) → XIn s ra →
    let v := s.xVal ra.r
    (∀ p ∈ sprWrites s.me v, p.1 = code →
      (v &&& p.2.1 = 0 → s.fpBusy code.toNat = false → exec (.mts code ra) s = .next (s.commit (s.setMe p.2.2) .fall)) ∧
      (v &&& p.2.1 = 0 → s.fpBusy code.toNat = true → exec (.mts code ra) s = .next s) ∧
      (v &&& p.2.1 ≠ 0 → exec (.mts code ra) s = .next (s.stopUnit s.unit.wh (.trap .spr 0 v)))) ∧
    (code = 0x018 → s.unit.ctx = 0 → v.toNat < 8 → (s.cluster (s.unit.core / 9)).mreqs = [] →
      (∀ n, s.holder (s.unit.core / 9) = some n → (s.img (s.issuerCore (s.unit.core / 9)) n).cuts = []) →
      exec (.mts code ra) s = .next (s.commit (s.moveIssuer (s.unit.core / 9) (v.setWidth 3)) .fall)) ∧
    (code = 0x018 → s.unit.ctx = 0 → v.toNat < 8 → (s.cluster (s.unit.core / 9)).mreqs ≠ [] → exec (.mts code ra) s = .next s) ∧
    (code = 0x018 → s.unit.ctx = 0 → 8 ≤ v.toNat → exec (.mts code ra) s = .next (s.stopUnit s.unit.wh (.trap .spr 0 v))) ∧
    ((∀ p ∈ sprWrites s.me v, p.1 ≠ code) → code ≠ 0x018 ∨ s.unit.ctx ≠ 0 →
      exec (.mts code ra) s = .next (s.stopUnit s.unit.wh (.trap .spr 0 v)))

/-- R186, R381 to R383, R403: taking a fault freezes the fibre where it stands, keeps its registers, predicates, tokens, level and kind, and
every other fibre, image and byte; its packet waits at the overman of its quadrant for the queue of the nearest context that accepts its
class, or, where none does, is a record of the error log; beyond 64 packets the core keeps it (R385). A context that accepts the class and has no
fault queue is passed over (the model's choice, log 87). -/
def Claims.TakingAFault : Prop :=
  ∀ (s : State) (fa : FaultAt) (cls : Cls) (addr extra : DWord),
    let t := s.freeze fa cls addr extra
    let f := (s.img fa.core fa.ctx).fibre fa.entry
    let g := (t.img fa.core fa.ctx).fibre fa.entry
    let q := fa.core / 144
    let p := mkPacket s fa cls addr extra
    g = { f with st := .frozen, wait := 0, wop := 0, boost := false, cond := .none } ∧
    (∀ e, e ≠ fa.entry → (t.img fa.core fa.ctx).fibre e = (s.img fa.core fa.ctx).fibre e) ∧
    OtherImages s t fa.core fa.ctx ∧ SameMemory s t ∧ t.cores = s.cores ∧ t.ctxs = s.ctxs ∧ t.flights = s.flights ∧ t.stores = s.stores ∧
    (64 ≤ (s.quad q).waiting.length → t.log = s.log ∧
      t.quad q = { s.quad q with seq := (s.quad q).seq + 1, kept := (s.quad q).kept ++ [(s.upFrom fa.ctx, cls.code, p)] }) ∧
    (∀ n qid, (s.quad q).waiting.length < 64 → s.accepter (s.upFrom fa.ctx) cls.code = some (n, qid) → t.log = s.log ∧
      t.quad q = { s.quad q with seq := (s.quad q).seq + 1, waiting := (s.quad q).waiting ++ [(qid, n, p)] }) ∧
    ((s.quad q).waiting.length < 64 → s.accepter (s.upFrom fa.ctx) cls.code = none → t.quad q = { s.quad q with seq := (s.quad q).seq + 1 } ∧
      t.log = s.log.add { sev := 0, unit := 0, loc := (p.d1 >>> 48).setWidth 16, seq := 0, tick := BitVec.ofNat 64 s.tick, wh := 0,
                          ctx := p.ctx, syn := p.d1, fclass := BitVec.ofNat 8 cls.code, action := 8, count := 0 })

/-- R382: the fields of a fault packet. -/
def Claims.PacketLayout : Prop :=
  ∀ (s : State) (fa : FaultAt) (cls : Cls) (addr extra : DWord), fa.lid < 65536 → fa.entry < 256 → fa.kind < 4 → fa.level < 4 →
    fa.wh < 4 → fa.body < 32 → fa.source < 4 →
    let p := mkPacket s fa cls addr extra
    let w (n : Nat) : DWord := BitVec.ofNat 64 n
    p.ctx = s.ctxid fa.ctx ∧
    p.d1 = w fa.lid <<< 48 ||| w fa.entry <<< 40 ||| w fa.kind <<< 38 ||| w fa.level <<< 36 ||| w cls.code <<< 30 ||| w fa.wh <<< 28 |||
      w fa.body <<< 23 ||| w fa.source <<< 21 ∧
    p.pc = fa.pc ∧ p.d3 = fa.other.setWidth 64 <<< 32 ||| fa.word.setWidth 64 ∧ p.addr = addr ∧ p.extra = extra ∧
    p.d6 = w s.tick <<< 32 ||| (s.quad (fa.core / 144)).seq.setWidth 64 ∧ p.refl = 0 ∧ p.d7 = 0

/-- R64, R65, R168, R169, R404: a register-3 word whose trap-mode source is empty faults with EMPTY and the first such register; a word whose
destination is awaited, or whose block-mode source is empty, waits for the first in field order. -/
def Claims.EmptySources : Prop :=
  ∀ (s : State) (rd : Reg) (ra rb : Src) (w : Bool),
    ∀ p ∈ integerRows rd ra rb w (s.xVal ra.r) (s.xVal rb.r), Alone s p.1 →
      (∀ pre a post, p.2.1 = pre ++ a :: post → a.t = true → s.xFull a.r = false → (∀ b ∈ pre, b.t = true → s.xFull b.r = true) →
        exec p.1 s = .next (s.stopUnit s.unit.wh (.trap .empty 0 (a.r.setWidth 64)))) ∧
      ((∀ a ∈ p.2.1, a.t = true → s.xFull a.r = true) →
        (s.xFull rd = false → s.awaitsX s.unit.core s.unit.ctx s.unit.entry rd = true →
          exec p.1 s = .next (s.setMyFibre (s.myFibre.waits 1 rd.toNat (.xdst rd)))) ∧
        (XOut s rd → ∀ pre a post, p.2.1 = pre ++ a :: post → s.xFull a.r = false → (∀ b ∈ pre, s.xFull b.r = true) →
          exec p.1 s = .next (s.setMyFibre (s.myFibre.waits 1 a.r.toNat (.xreg a.r)))))

/-- R62, R174, R404: what a light fibre may not issue is a LIGHT fault with its reason: an A-class word or a pair, an instruction kept for the
primary, a register from x9 up, a special register of the primary; where several apply, which is reported is the model's choice (log 99). -/
def Claims.LightFibres : Prop :=
  ∀ (s : State) (i : Instr), i.isEncoded = true → s.unit.entry ≠ 0 →
    let stop (x : DWord) : State := s.stopUnit (if s.unit.pair.isSome then 1 else s.unit.wh) (.trap .light 0 x)
    (s.unit.pair.isSome = true ∨ isAClass i = true → exec i s = .next (stop 1)) ∧
    (s.unit.pair = none → isAClass i = false →
      (primaryOnly i = true → exec i s = .next (stop 2)) ∧
      (primaryOnly i = false →
        (∀ pre n post, instrNames i = pre ++ (0, n) :: post → 9 ≤ n → n < 32 → (∀ q ∈ pre, q.1 = 0 → q.2 < 9) →
          exec i s = .next (stop (3 ||| BitVec.ofNat 64 n <<< 8))) ∧
        (∀ code ra, i = .mts code ra → ra.r.toNat < 9 → code ∈ ([0x000, 0x001, 0x002, 0x020, 0x021, 0x022, 0x024, 0x025, 0x026] : List (BitVec 13)) →
          exec i s = .next (stop (4 ||| code.setWidth 64 <<< 16)))))

/-- R401, R442: words that are no instruction raise ILL, with the reason that the words give, and a fetch that fails a check raises that check's class;
neither happens to a fibre that is no longer at the unit. -/
def Claims.UnitsThatCannotRun : Prop :=
  ∀ (s : State) (reason wh : Nat),
    let at' : Prop := s.myFibre.st = .ready ∧ s.myFibre.pc = s.unit.pc
    let u : State := { s with unit := { s.unit with word := 0, other := 0, wh := 0 } }
    (at' → exec (.notAnInstruction reason wh) s = .next (s.stopUnit (BitVec.ofNat 2 wh) (.trap .ill 0 (BitVec.ofNat 64 reason)))) ∧
    (¬ at' → exec (.notAnInstruction reason wh) s = .next s) ∧
    (at' → (∀ c a x, u.fetchWord s.unit.core s.unit.ctx s.unit.pc = .error (.trap c a x) →
        exec .instructionFetchFault s = .next (u.stopUnit 0 (.trap c s.unit.pc x))) ∧
      (∀ f, u.fetchWord s.unit.core s.unit.ctx s.unit.pc = .error f → (∀ c a x, f ≠ .trap c a x) →
        exec .instructionFetchFault s = .next (u.stopUnit 0 (f.stop 3)))) ∧
    (¬ at' → exec .instructionFetchFault s = .next u)

/-- R161: both words of a pair read their sources as they stood before it: a register-3 word beside `kfromx` writes its result, and the
mask takes the value that the register held. -/
def Claims.PairReadsBefore : Prop :=
  ∀ (s : State) (rd : Reg) (ra rb rc : Src) (w : Bool) (k : BitVec 3),
    s.unit.entry = 0 → s.unit.pair = some (.kfromx k rc) → s.unit.view = none → s.me.rep.running = false →
    (∀ f ∈ s.flights, f.1 < s.fresh) →
    ∀ p ∈ integerRows rd ra rb w (s.xVal ra.r) (s.xVal rb.r), (∀ a ∈ rc :: p.2.1, XIn s a) → XOut s rd →
      let t := s.writeX rd p.2.2
      exec p.1 s = .next (s.commit (t.setMe { t.me with k := t.me.k.set k.toNat ((s.xVal rc.r).setWidth 32) }) .fall)

/-- R161, R400, R403: a word of a pair whose guard fails stops the whole pair: the C word's guards come first, and neither word takes effect, but for the
accessed and dirty bits that its translations have set (R82, R84). -/
def Claims.PairGuards : Prop :=
  ∀ (s : State) (c a : Instr) (x : Stop), c.isEncoded = true → c ≠ .exit → x.isGuard = true →
    s.unit.entry = 0 → s.unit.pair = some a → s.me.rep.running = false → s.indexWaits c = false →
    (effOf c (s.atWord 1 none) = .error x → exec c s = .next (s.stopUnit 1 x)) ∧
    (∀ t ctl, effOf c (s.atWord 1 none) = .ok (t, ctl) → effOf a (t.atWord 2 (some s.me)) = .error x →
      exec c s = .next ((s.keepMarks t).stopUnit 2 x)) ∧
    (∀ w o cond, effOf c (s.atWord 1 none) = .error (.wait w o cond) →
      effOf a (s.atWord 2 (some s.me)) = .error x → exec c s = .next (s.stopUnit 2 x))

/-- R169, R167, R179: where v sources are full registers that no stream is bound to, and the destination is such a register that nothing in
flight will fill, the word is ready, reads the registers, and writes the lanes that its mask names and the full bit. -/
def Claims.PlainVectors : Prop :=
  ∀ (s : State) (d : Reg) (srcs : List Src) (w mask : Nat) (val : VWord), w ∈ [8, 16, 32, 64] →
    (∀ a ∈ srcs, s.me.boundTo a.r = none ∧ s.view.vfull.getLsbD a.r.toNat = true) → s.me.boundTo d = none →
    (s.view.vfull.getLsbD d.toNat = true ∨ s.awaitsV s.unit.core s.unit.ctx d = false) →
    VReady s d srcs mask ∧ sources s srcs = srcs.map (fun a => s.view.v[a.r.toNat]) ∧ (s.readVs (srcs.map Src.r)).2 = s ∧
    ∃ v : VWord, (∀ i, i < 256 / w → laneOf w v i = if mask.testBit i then laneOf w val i else laneOf w s.me.v[d.toNat] i) ∧
      s.writeV d val w mask =
        .ok (s.setMe { s.me with v := s.me.v.set d.toNat v, vfull := s.me.vfull ||| ((1 : Word) <<< d.toNat) })

/-- R262: `vbcast` gives every lane the low bits of its x source; `vmovx` gives an x register one lane, sign-extended for a signed
format. -/
def Claims.BroadcastAndExtract : Prop :=
  ∀ (s : State) (d : Reg) (a : Src) (t : Fmt) (l : BitVec 9), t.isArith = true →
    (Alone s (.vbcast d a t) → XIn s a → s.pushGuards [.dv d] = .ok () → (∃ u, s.pushCheck d allLanes = .ok u) → s.settle [.dv d] = .ok () →
      ∃ val, HasLanes t.width allLanes (fun _ => (s.xVal a.r).setWidth t.width) val ∧
        ∀ u, s.writeV d val t.width allLanes = .ok u → exec (.vbcast d a t) s = .next (s.commit u .fall)) ∧
    (Alone s (.vmovx d a t l) → s.ready [.dx d, .v a] = .ok () → l.toNat < 256 / t.width →
      let x := laneOf t.width ((sources s [a]).getD 0 0) l.toNat
      exec (.vmovx d a t l) s = .next (s.commit ((s.readVs [a.r]).2.writeX d (if t.isSigned then x.signExtend 64 else x.setWidth 64)) .fall))

/-- R259, R266: `vcmp` writes the conditions of the lanes that its mask names, keeps the others, and clears the bits above; mask logic
and moves. -/
def Claims.MaskResults : Prop :=
  ∀ (s : State),
    (∀ (c : VCond) (k : BitVec 3) (a b : Src) (m : BitVec 3) (t : Fmt), t.isArith = true → Alone s (.vcmp c k a b m t) →
      s.ready [.v a, .v b] = .ok () →
      let x (n i : Nat) : BitVec t.width := laneOf t.width ((sources s [a, b]).getD n 0) i
      ∃ v : Word, (∀ i, i < 32 → v.getLsbD i = (decide (i < 256 / t.width) &&
          (if (s.kmask m).testBit i then
            (if t.isFloat then floatCond c (t.value (x 0 i).toNat) (t.value (x 1 i).toNat) else intCond c t (x 0 i) (x 1 i))
           else s.view.k[k.toNat].getLsbD i))) ∧
        exec (.vcmp c k a b m t) s = .next (s.commit ((s.readVs [a.r, b.r]).2.writeK k v) .fall)) ∧
    (∀ (d a b : BitVec 3) (x : Src), ∀ p ∈ maskRows s d a b x, Alone s p.1 → (∀ y ∈ p.2.1, XIn s y) →
      exec p.1 s = .next (s.commit (s.setMe { s.me with k := s.me.k.set d.toNat p.2.2 }) .fall)) ∧
    (∀ (d : Reg) (a : BitVec 3), Alone s (.ktox d a) → XOut s d →
      exec (.ktox d a) s = .next (s.commit (s.writeX d (s.view.k[a.toNat].setWidth 64)) .fall))

/-- R255, R256, R258: the lane-wise integer operations, in every format, mask and stream form: each lane that the mask names holds the result
modulo the width of the format, and no flag is raised. -/
def Claims.IntegerLanes : Prop :=
  ∀ (s : State) (d : Reg) (a b : Src) (m : BitVec 3) (t : Fmt) (imm : BitVec 7) (n : BitVec 6), t.isInt = true →
    ∀ p ∈ laneRows d a b m t imm n, Alone s p.1 → VReady s d p.2.1 (s.kmask p.2.2.1) →
      ∃ val, HasLanes t.width (s.kmask p.2.2.1) (fun i =>
          p.2.2.2 (laneOf t.width ((sources s p.2.1).getD 0 0) i) (laneOf t.width ((sources s p.2.1).getD 1 0) i)) val ∧
        WritesV p.1 s d p.2.1 t.width (s.kmask p.2.2.1) val 0

/-- R260, R263: `vsel`, `vperm`, `vzip` and `vunzip` give lanes of their sources. -/
def Claims.LaneMoves : Prop :=
  ∀ (s : State) (d : Reg) (a b : Src) (m : BitVec 3) (t : Fmt), t.isInt = true →
    ∀ p ∈ moveRows s d a b m t, Alone s p.1 → VReady s d [a, b] p.2.1 →
      (∃ val, HasLanes t.width p.2.1 p.2.2 val ∧ WritesV p.1 s d [a, b] t.width p.2.1 val 0) ∧
      ((Instr.vsel d a b m t).wf = true → m ≠ 0) ∧ ∀ t', (Instr.vsel d a b m t').wf = true → t'.isInt = true

/-- R264, R149: the integer reductions put the reduction of the lanes that the mask names into lane 0 and zero elsewhere. -/
def Claims.IntegerReductions : Prop :=
  ∀ (s : State) (d : Reg) (a : Src) (m : BitVec 3) (t : Fmt), t.isInt = true →
    ∀ p ∈ reduceRows d a m t (s.kmask m) ((sources s [a]).getD 0 0), Alone s p.1 → VReady s d [a] allLanes →
      ∃ val, HasLanes t.width allLanes (fun i => if i = 0 then p.2 else 0) val ∧ WritesV p.1 s d [a] t.width allLanes val 0

/-- R255 to R257, R143, R418: the lane-wise floating-point operations round each exact lane once; their flags trap or are merged. -/
def Claims.FloatLanes : Prop :=
  ∀ (s : State) (d : Reg) (a b c : Src) (m : BitVec 3) (t : Fmt), t.isFloat = true →
    ∀ p ∈ floatRows s d a b c m t, Alone s p.1 → VReady s d p.2.1 (s.kmask p.2.2.1) →
      FloatDone p.1 s d p.2.1 t.width (s.kmask p.2.2.1) fun i =>
        let x (k : Nat) : FVal := t.value (laneOf t.width ((sources s p.2.1).getD k 0) i).toNat
        rounded s t (p.2.2.2 (x 0) (x 1) (x 2))

/-- R264, R149: the floating-point reductions combine the lanes in the fixed tree, each operation rounded once, with the flags of
each; the lanes that the mask does not name take part as the identity. -/
def Claims.FloatReductions : Prop :=
  ∀ (s : State) (d : Reg) (a : Src) (m : BitVec 3) (t : Fmt), t.isFloat = true →
    ∀ p ∈ floatReduceRows s d a m t, Alone s p.1 → VReady s d [a] allLanes →
      let rm := fld s.view.fctl 1 0
      let x (i : Nat) : Flagged Nat :=
        (if (s.kmask m).testBit i then (laneOf t.width ((sources s [a]).getD 0 0) i).toNat else (roundTo t p.2.2 rm false).1, 0)
      let op (p q : Flagged Nat) (f : FVal → FVal → Flagged FVal) : Flagged Nat :=
        let r := rounded s t (f (t.value p.1) (t.value q.1))
        (r.1, p.2 ||| q.2 ||| r.2)
      FloatDone p.1 s d [a] t.width allLanes fun i =>
        if i = 0 then tree (fun u v => op u v p.2.1) x (Nat.log2 (256 / t.width)) 0 else (0, 0)

/-- R261, R265, R148, R150: each conversion converts its lanes; `vdot` adds two bf16 products to each f32 lane of its destination,
rounded once. -/
def Claims.ConversionsAndDot : Prop :=
  ∀ (s : State) (d : Reg) (a b : Src) (m : BitVec 3),
    (∀ p ∈ cvtRows, Alone s (.vcvt d a b m p.1) →
      let src := p.2.1
      let dst := p.2.2.1
      let srcs := if p.2.2.2.2 then [a, b] else [a]
      VReady s d srcs (s.kmask m) →
      FloatDone (.vcvt d a b m p.1) s d srcs dst.width (s.kmask m) fun i =>
        let h := 256 / src.width
        let v := if p.2.2.2.2 then laneOf src.width ((sources s srcs).getD (i / h) 0) (i % h)
          else laneOf src.width ((sources s srcs).getD 0 0) (p.2.2.2.1 + i)
        convert src dst (fld s.view.fctl 1 0) v.toNat) ∧
    (Alone s (.vdot d a b m) → s.me.boundTo d = none → s.ready [.v ⟨d, false⟩, .v a, .v b] = .ok () →
      FloatDone (.vdot d a b m) s d [⟨d, false⟩, a, b] 32 (s.kmask m) fun j =>
        let src := sources s [⟨d, false⟩, a, b]
        let f (k i : Nat) : FVal := Fmt.bf16.value (laneOf 16 (src.getD k 0) i).toNat
        rounded s .f32 (fdotSum (fld s.view.fctl 1 0) [Fmt.f32.value (laneOf 32 (src.getD 0 0) j).toNat]
          [(f 1 (2 * j), f 2 (2 * j)), (f 1 (2 * j + 1), f 2 (2 * j + 1))]))

/-- R166, R223, R224, R63, R64: a scalar load of every size: an address that is not aligned is an ALIGN fault; a check that fails decides
the unit; from its own cluster's scratchpad the extended value is written as the unit issues; from anywhere else the destination is
empty and the fibre waits for the answer. -/
def Claims.LoadResults : Prop :=
  ∀ (s : State) (rt : Reg) (m : MemOp) (sc : Scope), ∀ p ∈ loadRows rt m sc, Alone s p.1 → (∀ a ∈ m.srcs, XIn s a) → XOut s rt →
    let size := p.2.1
    let a := effAddr s m size
    (a.toNat % size ≠ 0 → exec p.1 s = .next (s.stopUnit s.unit.wh (.trap .align a (BitVec.ofNat 64 size)))) ∧
    (a.toNat % size = 0 →
      (∀ e, s.resolve s.unit.core s.unit.ctx .load a size = .error e → exec p.1 s = .next (s.stopUnit s.unit.wh (e.stop 0))) ∧
      (∀ u t, s.resolve s.unit.core s.unit.ctx .load a size = .ok (u, t) →
        let v := underScope u sc
        (t.ownSpad s.unit.core = true → v.readHeld s.who s.fresh t size = false →
          exec p.1 s = .next (s.commit ((v.hasRead s.who s.fresh t size (inEffect u sc)).writeX rt
            (extended size p.2.2 (v.readNum s.who t size))) .fall)) ∧
        (t.ownSpad s.unit.core = false → SlotFree s →
          exec p.1 s = .next (s.commit (v.swapOut (.x rt) (.load t size p.2.2) none a (inEffect u sc)) .fall))))

/-- R63, R223, R224: the answer of a load fills its register with the extended value and sets its full bit, its flight ends, and its
fibre becomes ready. -/
def Claims.LoadAnswers : Prop :=
  ∀ (s : State) (id : Nat) (f : Flight) (t : Target) (size : Nat) (signed : Bool) (r : Reg),
    tget s.flights id = some f → f.job = .load t size signed → f.dst = .x r → size ∈ [1, 2, 4, 8] → s.readHeld f.who id t size = false →
    s.refusedAt f.who.ctx (some (f.who.core / 576)) t = false → s.linkPassed id = true →
    let w := f.who
    let v := extended size signed (s.readNum w t size)
    let u := { s.hasRead w id t size f.acq with flights := tdel s.flights id }.fillX w r v
    exec (.answerArrival id .here) s = .next (u.landWake w) ∧
    (w.entry = 0 → r ≠ 0 →
      u.img w.core w.ctx = { s.img w.core w.ctx with x := (s.img w.core w.ctx).x.set r.toNat v,
                                                     xfull := (s.img w.core w.ctx).xfull ||| ((1 : Word) <<< r.toNat) }) ∧
    (∀ fb, u.who? w = some fb → fb.st = .waiting → fb.cond = .none → (∀ p ∈ tdel s.flights id, p.2.who ≠ w) →
      ((u.landWake w).img w.core w.ctx).fibre w.entry =
        { fb with st := .ready, wait := 0, wop := 0, cond := .none, age := 0, boost := false })

/-- R166, R225, R118, R131: a scalar store of every size issues its bytes, lowest first, with the scope in effect; an address that is not
aligned is an ALIGN fault, and a check that fails decides the unit. -/
def Claims.StoreResults : Prop :=
  ∀ (s : State) (rt : Src) (m : MemOp) (sc : Scope) (md : StMode), ∀ p ∈ storeRows m rt sc md, Alone s p.1 →
    (∀ a ∈ rt :: m.srcs, XIn s a) →
    let size := p.2
    let a := effAddr s m size
    (a.toNat % size ≠ 0 → exec p.1 s = .next (s.stopUnit s.unit.wh (.trap .align a (BitVec.ofNat 64 size)))) ∧
    (a.toNat % size = 0 →
      (∀ e, s.resolve s.unit.core s.unit.ctx .store a size = .error e → exec p.1 s = .next (s.stopUnit s.unit.wh (e.stop 1))) ∧
      (∀ u t, s.resolve s.unit.core s.unit.ctx .store a size = .ok (u, t) →
        exec p.1 s = .next (s.commit ((underScope u sc).issueStore t
          (.bytes ((List.range size).map (byteOf (s.xVal rt.r).toNat))) md (inEffect u sc) a) .fall)))

/-- R63, R225: what issuing a store of bytes does to memory: into its own cluster's scratchpad, where nothing holds it and no cage lies there,
its bytes and no others are written at once; a store to anywhere else changes no byte and waits, with its mode and scope, for the agent that
holds the location, on the link that leads there (R461; one flit for each packet is the model's choice, log 17). The image of the core is as it was. -/
def Claims.StoreFrame : Prop :=
  ∀ (s : State) (t : Target) (bs : Bytes) (md : StMode) (rel : Option Scope) (dva : DWord), Inv s → s.targetPort t = none →
    let p : PStore := { who := s.who, t := t, op := .bytes bs, md := md, rel := rel, ord := s.fresh, sentTick := s.tick, pc := s.unit.pc,
                        word := s.unit.word, dva := dva, adm := s.lookups }
    let u := s.issueStore t (.bytes bs) md rel dva
    let held := { s with fresh := s.fresh + 1 }.storeHeld s.fresh p
    (t.ownSpad s.unit.core = false ∨ held = true →
      SameMemory s u ∧ u.imgs = s.imgs ∧
      u = { s with stores := tset s.stores s.fresh p, fresh := s.fresh + 1 }.sendFlit (s.linkFor s.who none t) s.fresh) ∧
    (∀ a cl off, t = .mem a → t.ownSpad s.unit.core = true → held = false → spadOf a = some (cl, off) → s.cageAt cl off = none →
      s.cageAt cl (off + (bs.length - 1)) = none →
      u.stores = s.stores ∧ u.imgs = s.imgs ∧
      (∀ i, (h : i < bs.length) → u.byte (a + i) = bs[i]) ∧ (∀ b, b < a ∨ a + bs.length ≤ b → u.byte b = s.byte b))

/-- R111, R118, R119, R120: a grant performs a store to paged memory: its bytes and no others change; performed as `.ga` it is visible to every
die at once, and as `.ef` each other die that holds a copy reads the old bytes until its invalidation lands. Whether the hosts (8 among the dies)
see it at once or later is free (the model's choice, log 101). Bytes beside it change only where its line stood under another key (R346). A home that refuses the die takes nothing: it is an uncorrectable error of the
partition (R450). -/
def Claims.HomeGrantPerforms : Prop :=
  ∀ (s : State) (id : Nat) (sharers : BitVec 8) (p : PStore) (a : Nat) (bs : Bytes),
    Inv s → tget s.stores id = some p → p.granted = false → p.t = .mem a → isHomed a = true → p.op = .bytes bs → s.storeHeld id p = false →
    p.isolating = [] →
    (s.refusedAt p.who.ctx (some (p.who.core / 576)) p.t = true →
      exec (.homeGrant id sharers) s =
        .next ({ s with stores := tdel s.stores id }.pruneBars.refuseAccess p.who.ctx p.t)) ∧
    (s.refusedAt p.who.ctx (some (p.who.core / 576)) p.t = false →
    let w := p.who.core / 576
    let ga := p.md = .ga ∨ p.rel = some .pk ∨ p.rel = some .sy
    ∃ u q, exec (.homeGrant id sharers) s = .next u ∧ tget u.stores id = some q ∧ q.granted = true ∧
      (∀ d, d ≠ 8 → (d ∈ q.stale ↔ ¬ ga ∧ d < 8 ∧ d < s.dies ∧ d ≠ w ∧ sharers.getLsbD d = true)) ∧
      (∀ i, (h : i < bs.length) → u.byte (a + i) = bs[i]) ∧
      (∀ b, b < a ∨ a + bs.length ≤ b → u.byte b = (s.rekey p.who.ctx a bs.length).byte b) ∧ u.imgs = s.imgs ∧
      ((∀ e ∈ s.stores, e.2.granted = false ∨ e.2.stale = []) → tsorted s.stores = true →
        ∀ i, (h : i < bs.length) → (∀ d, d ∉ q.stale → u.byteFor (some d) (a + i) = bs[i]) ∧
          (∀ d, d ∈ q.stale → u.byteFor (some d) (a + i) = s.byte (a + i))))

/-- R120, R450: an invalidation lands on a die, which from then on reads the store; a store that every die has taken, and whose old translations nothing is still admitted under (R90; which accesses those are is deduced, log 102),
completes; an invalidation
that is not acknowledged is sent again every ten ticks, and after the eighth time the die's isolation is asked for. -/
def Claims.StoreEnds : Prop :=
  ∀ (s : State) (id die : Nat) (p : PStore), tget s.stores id = some p →
    (p.granted = true → die ∈ p.stale → tget p.isolating die = none →
      ∃ u q, exec (.efInvalidationLands id die) s = .next u ∧ tget u.stores id = some q ∧ q = { p with stale := p.stale.filter (· != die) } ∧
        SameMemory s u ∧ u.imgs = s.imgs) ∧
    ((∀ k o, p.t ≠ .peer k o) → p.granted = true → p.stale = [] → p.isolating = [] →
      s.admittedBy id p.t.flat p.op.size = false →
      exec (.storeCompletion id .done) s = .next ({ s with stores := tdel s.stores id }.pruneBars)) ∧
    (∀ k o, p.t = .peer k o → s.orderKept p.who p.ord false p.rel = true → s.storeHeld id p = false → p.port ≠ none →
      exec (.storeCompletion id .done) s = .next ({ s with stores := tdel s.stores id }.pruneBars)) ∧
    (s.unacked p die = true → p.sentTick + 10 * ((tget p.resent die).getD 0 + 1) ≤ s.tick →
      let n := (tget p.resent die).getD 0
      let q := if n < 8 then { p with resent := tset p.resent die (n + 1) } else { p with isolating := tset p.isolating die s.tick }
      exec (.invalidationResend id die) s = .next { s with stores := tset s.stores id q })

/-- R450, R376: the silent die's report isolates it from the home, whose store waits for it no longer, and is recorded; a report that does
not come within 1000 ticks is a machine check of the partition that owns the line. -/
def Claims.Isolation : Prop :=
  ∀ (s : State) (id die since : Nat) (p : PStore), tget s.stores id = some p → tget p.isolating die = some since →
    let home := s.homeOf p.who.ctx p.t.place
    let line := s.lineMpa p.who.ctx p.t.place
    (s.tick ≤ since + 1000 →
      ∃ u q, exec (.isolationReport id die) s = .next u ∧ tget u.stores id = some q ∧ q.isolating = tdel p.isolating die ∧
        u.isolated = s.isolate home die ∧ SameMemory s u ∧
        u.log = s.log.add { sev := 2, unit := 0x0C, loc := BitVec.ofNat 16 line.1, seq := 0, tick := BitVec.ofNat 64 s.tick,
                            wh := BitVec.ofNat 64 line.2, ctx := 0, syn := BitVec.ofNat 64 die, fclass := 0, action := 0, count := 0 }) ∧
    (since + 1000 < s.tick →
      exec (.isolationTimeout id die) s = .next ({ s with stores := tset s.stores id { p with isolating := tdel p.isolating die } }.machineCheck
        (s.lineOwner p) 3 0x0C line.1 (BitVec.ofNat 64 line.2) (BitVec.ofNat 64 die)))

/-- R346: a write to the second tier puts its lines under the key of the writer's partition: what stands in a line under that key, or under none,
stays, and so does every other line; a line of another key reads, under this one, as a free value that depends on the two keys, the line and what
it holds (how lines and keys are held is deduced, log 38). -/
def Claims.LineKeys : Prop :=
  ∀ (s : State) (ctx a n b : Nat), Inv s →
    let u := s.rekey ctx a n
    let l := b / 128
    let touched : Prop := 128 * l < a + n ∧ a < 128 * l + 128
    (inTier1 a = false ∨ ¬ touched ∨ s.keyOf ctx = none ∨ tget s.keyed l = none ∨ tget s.keyed l = s.keyOf ctx → u.byte b = s.byte b) ∧
    (∀ j k, inTier1 a = true → 0 < n → touched → tget s.keyed l = some j → s.keyOf ctx = some k → j ≠ k → inTier1 (128 * l) = true →
      u.byte b = Config.otherKey j k l (ofBytes (s.getBytes (128 * l) 128)) (b % 128)) ∧
    (∀ k, inTier1 a = true → 0 < n → touched → s.keyOf ctx = some k → tget u.keyed l = some k)

/-- R227, R228, R118: `amo` and `cas` read the old dword and write the new one in one step, in their own cluster's scratchpad as the unit issues
and elsewhere as the answer lands; `cas` writes only where the old value is the expected one; the address is dword-aligned. -/
def Claims.AtomicResults : Prop :=
  ∀ (s : State) (op : AmoOp) (rd : Reg) (ra rb : Src) (sc : Scope), XIn s ra → XIn s rb →
    let a := s.xVal ra.r
    let v := s.xVal rb.r
    let ordered (u w : State) (t : Target) : State :=
      (w.hasRead s.who s.fresh t 8 (inEffect u sc)).hasReleased s.who s.fresh t 8 (inEffect u sc) (underScope u sc).fresh
    (Alone s (.amo op rd ra rb sc) → XOut s rd →
      (a.toNat % 8 ≠ 0 → exec (.amo op rd ra rb sc) s = .next (s.stopUnit s.unit.wh (.trap .align a 8))) ∧
      (∀ u t, a.toNat % 8 = 0 → s.resolve s.unit.core s.unit.ctx (.amo (op == .add)) a 8 = .ok (u, t) →
        (t.ownSpad s.unit.core = true → s.readHeld s.who s.fresh t 8 = false → s.matrixHolds s.who s.fresh t 8 true = false →
          s.orderKept s.who s.fresh true (inEffect u sc) = true →
          ∀ b, t = .mem b →
          let old := BitVec.ofNat 64 ((underScope u sc).readNum s.who t 8)
          exec (.amo op rd ra rb sc) s = .next (s.commit ((ordered u { (underScope u sc).writeTarget s.unit.ctx t
            ((List.range 8).map (byteOf (amoResult op old v).toNat)) with rels := u.rels } t).writeX rd old) .fall)) ∧
        (t.ownSpad s.unit.core = false → SlotFree s →
          exec (.amo op rd ra rb sc) s = .next (s.commit ((underScope u sc).swapOut (.x rd) (.amo t op v) (inEffect u sc) a (inEffect u sc)) .fall)))) ∧
    (Alone s (.cas rd ra rb sc) → XIn s ⟨rd, false⟩ →
      (a.toNat % 8 ≠ 0 → exec (.cas rd ra rb sc) s = .next (s.stopUnit s.unit.wh (.trap .align a 8))) ∧
      (∀ u t, a.toNat % 8 = 0 → s.resolve s.unit.core s.unit.ctx (.amo false) a 8 = .ok (u, t) →
        (t.ownSpad s.unit.core = true → s.readHeld s.who s.fresh t 8 = false → s.matrixHolds s.who s.fresh t 8 true = false →
          s.orderKept s.who s.fresh true (inEffect u sc) = true →
          ∀ b, t = .mem b →
          let old := BitVec.ofNat 64 ((underScope u sc).readNum s.who t 8)
          exec (.cas rd ra rb sc) s = .next (s.commit
            ((ordered u (if old = s.xVal rd then { (underScope u sc).writeTarget s.unit.ctx t ((List.range 8).map (byteOf v.toNat)) with rels := u.rels }
              else underScope u sc) t).writeX rd old) .fall)) ∧
        (t.ownSpad s.unit.core = false → SlotFree s →
          exec (.cas rd ra rb sc) s = .next (s.commit ((underScope u sc).swapOut (.x rd) (.cas t (s.xVal rd) v) (inEffect u sc) a (inEffect u sc)) .fall))))

/-- R227, R228, R104, R223: the answer of an atomic: at a home, the new value is written as the old one lands; at a semaphore the sum saturates. -/
def Claims.AtomicAnswers : Prop :=
  ∀ (s : State) (id : Nat) (f : Flight) (t : Target) (r : Reg), tget s.flights id = some f → f.dst = .x r →
    s.readHeld f.who id t 8 = false → s.matrixHolds f.who id t 8 true = false → s.orderKept f.who id true f.rel = true →
    s.refusedAt f.who.ctx (some (f.who.core / 576)) t = false → (∀ a, t = .mem a → s.admittedBy id a 8 = false) → s.linkPassed id = true →
    let w := f.who
    let fin (u : State) (old : DWord) : State :=
      let u := ({ u with rels := s.rels }.hasRead w id t 8 f.acq).hasReleased w id t 8 f.rel s.fresh
      ({ u with flights := tdel u.flights id }.fillX w r old).landWake w
    (∀ a op v, f.job = .amo t op v → t = .mem a →
      let u := if isHomed a then { s.seenBy true none a with fresh := s.fresh + 1 } else s
      let old := BitVec.ofNat 64 (u.readNum w t 8)
      exec (.answerArrival id .here) s = .next (fin (u.writeTarget w.ctx t ((List.range 8).map (byteOf (amoResult op old v).toNat))) old)) ∧
    (∀ a e v, f.job = .cas t e v → t = .mem a →
      let u := if isHomed a then { s.seenBy true none a with fresh := s.fresh + 1 } else s
      let old := BitVec.ofNat 64 (u.readNum w t 8)
      exec (.answerArrival id .here) s =
        .next (fin (if old = e then u.writeTarget w.ctx t ((List.range 8).map (byteOf v.toNat)) else u) old)) ∧
    (∀ cl i v, f.job = .amo t .add v → t = .sem cl i → (h : i < 16) →
      let old := ((s.cluster cl).hs[i]).toNat
      exec (.answerArrival id .here) s = .next (fin (s.setCluster cl { s.cluster cl with
        hs := (s.cluster cl).hs.set i (BitVec.ofNat 16 (Nat.min 65535 (old + v.toNat % 65536))) }) (BitVec.ofNat 64 old)))

/-- R413, R68: a handler fibre that issues a wait or a block-mode queue form faults with HWAIT, whether or not its condition holds. -/
def Claims.HandlerMayNotWait : Prop :=
  ∀ (s : State) (rd : Reg) (ra rb : Src) (mask : BitVec 8) (q : BitVec 3) (n : BitVec 4),
    ∀ i ∈ handlerWaits rd ra rb mask q n, Alone s i → s.myFibre.kind = 2 →
      exec i s = .next (s.stopUnit s.unit.wh (.trap .hwait 0 0))

/-- R235 to R237: `waitt` idles the complete tokens of its mask where none is pending, and otherwise waits; `waitany` gives and idles the first
complete one in rotating order, gives 2^63 where there is nothing to wait for, and otherwise waits. -/
def Claims.TokenWaits : Prop :=
  ∀ (s : State) (rd : Reg) (mask : BitVec 8), s.myFibre.kind ≠ 2 →
    let f := s.myFibre
    let on (i : Nat) (c : BitVec 2) : Prop := mask.getLsbD i = true ∧ tokenOf f i = c
    (Alone s (.waitt mask) →
      ((∀ i, i < 8 → ¬ on i 1) → ∃ g, SameButTokens f g ∧ (∀ i, i < 8 → tokenOf g i = if on i 2 then 0 else tokenOf f i) ∧
        exec (.waitt mask) s = .next (s.commit (s.setMyFibre g) .fall)) ∧
      (∀ i, i < 8 → on i 1 → exec (.waitt mask) s = .next (s.setMyFibre (f.waits 4 mask.toNat (.tokens mask))))) ∧
    (Alone s (.waitany rd mask) → XIn s ⟨rd, false⟩ →
      (∀ i, FirstFrom ((s.xVal rd).toNat % 8) (fun i => on i 2) i →
        ∃ g, SameButTokens f g ∧ (∀ k, k < 8 → tokenOf g k = if k = i then 0 else tokenOf f k) ∧
          exec (.waitany rd mask) s = .next (s.commit ((s.setMyFibre g).writeX rd (BitVec.ofNat 64 i)) .fall)) ∧
      ((∀ i, i < 8 → ¬ on i 2) →
        ((∀ i, i < 8 → ¬ on i 1) → exec (.waitany rd mask) s = .next (s.commit (s.writeX rd 0x8000000000000000) .fall)) ∧
        (∀ i, i < 8 → on i 1 → exec (.waitany rd mask) s = .next (s.setMyFibre (f.waits 4 mask.toNat (.anyToken mask))))))

/-- R238: `waitany.f` gives the first fill word in rotating order whose generation has changed, with the record of what was seen; a mask
of 0 gives 2^63; otherwise it waits; its address is 128-byte aligned. -/
def Claims.FillWordWaits : Prop :=
  ∀ (s : State) (rd : Reg) (ra : Src) (mask : BitVec 8), Alone s (.waitanyF rd ra mask) → s.myFibre.kind ≠ 2 → XIn s ra → XIn s ⟨rd, false⟩ →
    let f := s.xVal ra.r
    let w := s.xVal rd
    (f.toNat % 128 ≠ 0 → exec (.waitanyF rd ra mask) s = .next (s.stopUnit s.unit.wh (.trap .align f 128))) ∧
    (∀ cl off, f.toNat % 128 = 0 → s.fillWord s.unit.core s.unit.ctx f 8 = .ok (cl, off) →
      let a := spadPlace cl off
      let changed (i : Nat) : Prop := mask.getLsbD i = true ∧ (generation s (a + 16 * i)).setWidth 7 ≠ w.extractLsb' (7 * i) 7
      s.ownStoreBefore s.who s.fresh s.fresh (.mem a) 128 = false →
      (∀ i, FirstFrom (w.extractLsb' 56 3).toNat changed i →
        ∃ v : DWord, v.extractLsb' 59 5 = 0 ∧ v.extractLsb' 56 3 = BitVec.ofNat 3 i ∧
          (∀ k, k < 8 → v.extractLsb' (7 * k) 7 = if k = i then (generation s (a + 16 * i)).setWidth 7 else w.extractLsb' (7 * k) 7) ∧
          exec (.waitanyF rd ra mask) s = .next (s.commit
            (((s.observe s.who (a + 16 * i)).demote s.unit.ctx (jointCl s.unit.core cl)).writeX rd v) .fall)) ∧
      ((∀ i, i < 8 → ¬ changed i) →
        exec (.waitanyF rd ra mask) s = .next (if mask = 0 then s.commit (s.writeX rd 0x8000000000000000) .fall
          else s.setMyFibre (s.myFibre.waits 3 ra.r.toNat (.fills a mask w)))))

/-- R232, R234, R117: `syncinit` issues its target and expected count as a store to the fill word; `syncarr` counts one arrival and gives
the generation that it counts for, in its own cluster as it issues and elsewhere as the answer lands, and publishes the stores before it;
`syncwait` gives a generation that differs from the one it is passed, having taken what arrivals have published, and otherwise waits. -/
def Claims.FillWordInstructions : Prop :=
  ∀ (s : State) (rd : Reg) (ra : Src) (cl off : Nat), XIn s ra →
    s.fillWord s.unit.core s.unit.ctx (s.xVal ra.r) 1 = .ok (cl, off) →
    let a := spadPlace cl off
    let v := s.xVal rd
    let j := jointCl s.unit.core cl
    let d := s.demote s.unit.ctx j
    let rel := some (s.capped s.unit.ctx j)
    (Alone s (.syncinit rd ra) → XIn s ⟨rd, false⟩ →
      exec (.syncinit rd ra) s =
        .next (s.commit (s.issueStore (.mem a) (.init (v.extractLsb' 0 32) (v.extractLsb' 32 16)) .ef none (s.xVal ra.r)) .fall)) ∧
    (Alone s (.syncarr rd ra) → XOut s rd →
      (cl = s.unit.core / 9 → s.orderKept s.who s.fresh false rel = true →
        exec (.syncarr rd ra) s = .next (s.commit (((d.countFill s.unit.ctx cl off 0 1 [s.unit.core]).publish s.who s.fresh a).writeX rd
          ((generation s a).setWidth 64)) .fall)) ∧
      (cl ≠ s.unit.core / 9 → SlotFree s →
        exec (.syncarr rd ra) s = .next (s.commit (d.swapOut (.x rd) (.arrive a) rel) .fall))) ∧
    (Alone s (.syncwait rd ra) → XIn s ⟨rd, false⟩ → s.myFibre.kind ≠ 2 → s.ownStoreBefore s.who s.fresh s.fresh (.mem a) 16 = false →
      (generation s a ≠ v.setWidth 32 → exec (.syncwait rd ra) s =
        .next (s.commit (((s.observe s.who a).demote s.unit.ctx j).writeX rd ((generation s a).setWidth 64)) .fall)) ∧
      (generation s a = v.setWidth 32 →
        exec (.syncwait rd ra) s = .next (s.setMyFibre (s.myFibre.waits 3 ra.r.toNat (.fill a (generation s a).toNat)))))

/-- R231, R233: the update of a fill word: what reached it is counted; a phase whose target and expected count are reached advances once, carries
the surplus, and raises the generation; a surplus carries the update into the next cycle. No other byte of memory changes. -/
def Claims.FillWordUpdates : Prop :=
  ∀ (s : State) (cl off : Nat) (op : FillOp), Inv s →
    ((s.cluster cl).fills.find? (fun f => f.off == off) = some op ∨
      ((s.cluster cl).fills.find? (fun f => f.off == off) = none ∧ off ∈ (s.cluster cl).advanced ∧ op.bytes = 0 ∧ op.arrivals = 0)) →
    let a := spadPlace cl off
    let d := fillWords s a
    let target := d.1.extractLsb' 0 32
    let expected := d.2.extractLsb' 0 16
    let count := d.1.extractLsb' 32 32 + BitVec.ofNat 32 op.bytes
    let arrivals := d.2.extractLsb' 16 16 + BitVec.ofNat 16 op.arrivals
    let adv := target.ule count && expected.ule arrivals
    let count' := if adv then (if target = 0 then 0 else count - target) else count
    let arrivals' := if adv then (if expected = 0 then 0 else arrivals - expected) else arrivals
    let gen' := if adv then d.2.extractLsb' 32 32 + 1 else d.2.extractLsb' 32 32
    ∃ u, exec (.fillWordUpdate cl off) s = .next u ∧
      fillWords u a = (count' ++ target, gen' ++ arrivals' ++ expected) ∧ (∀ b, b < a ∨ a + 16 ≤ b → u.byte b = s.byte b) ∧
      u.imgs = s.imgs ∧ (u.cluster cl).fills = (s.cluster cl).fills.filter (fun f => f.off != off) ∧
      (off ∈ (u.cluster cl).advanced ↔ adv = true ∧ (count' ≠ 0 ∨ arrivals' ≠ 0))

/-- R223, R233, R234, R117: an arrival at another cluster's fill word, when it gets there: one arrival reaches the word, and no byte; the
generation that the word has then lands in the destination, and the fibre's earlier stores are published to those who observe the word. -/
def Claims.FillWordArrivals : Prop :=
  ∀ (s : State) (id : Nat) (f : Flight) (a cl off : Nat) (r : Reg), tget s.flights id = some f → f.job = .arrive a → f.dst = .x r →
    spadOf a = some (cl, off) → s.orderKept f.who id false f.rel = true → s.linkPassed id = true →
    let w := f.who
    let u := s.countFill w.ctx cl off 0 1 [w.core]
    let at' (t : State) (o : Nat) : Option FillOp := (t.cluster cl).fills.find? fun x => x.off == o
    exec (.answerArrival id .here) s =
      .next (({ u.publish w id a with flights := tdel s.flights id }.fillX w r ((generation s a).setWidth 64)).landWake w) ∧
    (∃ op, at' u off = some op ∧ op.arrivals = ((at' s off).getD { off := off }).arrivals + 1 ∧ op.bytes = ((at' s off).getD { off := off }).bytes) ∧
    (∀ o, o ≠ off → at' u o = at' s o) ∧ SameMemory s u ∧ u.imgs = s.imgs

/-- R287 to R289, R117: the holder of a cluster's semaphores waits for a count and lowers it, an acquire, and raises one, a release, which
saturates; any other context faults with WINDOW. -/
def Claims.SemaphoreResults : Prop :=
  ∀ (s : State) (n : BitVec 4) (cnt : BitVec 6),
    let cl := s.unit.core / 9
    let c := s.cluster cl
    let count := c.hs[n.toNat]
    let sc := s.capped s.unit.ctx .cl
    let key := semKey cl n.toNat
    let put (t : State) (v : BitVec 16) : State := (t.demote s.unit.ctx .cl).setCluster cl { c with hs := c.hs.set n.toNat v }
    (s.holder cl = some s.unit.ctx →
      (Alone s (.semwait n) → s.myFibre.kind ≠ 2 →
        (count = 0 → exec (.semwait n) s = .next (s.setMyFibre (s.myFibre.waits 5 n.toNat (.sem n.toNat)))) ∧
        (count ≠ 0 → let t := s.acquireAt s.who key 1 sc none
          exec (.semwait n) s = .next (s.commit (put (if count = 1 then t.endRels key else t) (count - 1)) .fall))) ∧
      (Alone s (.sempost n cnt) → s.orderKept s.who s.fresh false (some sc) = true →
        exec (.sempost n cnt) s = .next (s.commit (put (s.publishAt s.who s.fresh key 1 sc s.fresh) (BitVec.ofNat 16 (Nat.min 65535 (count.toNat + cnt.toNat + 1)))) .fall))) ∧
    (s.holder cl ≠ some s.unit.ctx →
      (Alone s (.semwait n) → s.myFibre.kind ≠ 2 → exec (.semwait n) s = .next (s.stopUnit s.unit.wh (.trap .window 0 0xA03))) ∧
      (Alone s (.sempost n cnt) → exec (.sempost n cnt) s = .next (s.stopUnit s.unit.wh (.trap .window 0 0xA03))))

/-- R241, R242: `sendm`: a malformed destination faults with MSGFMT and one outside the node with NOTARGET; a message that asks for a reply
reserves the lowest free slot and a new link, and is not sent where there is none; a message sent goes out with its header, link and six
arguments, and its sender waits for the outcome. A new link's value is free, but for that it is not 0 and no other link's (log 5); the package
ID in a header is 0 until one is assigned (log 93). -/
def Claims.SendResults : Prop :=
  ∀ (s : State) (rd : Reg) (ra rb : Src), Alone s (.sendm rd ra rb) → (∀ a ∈ ra :: argRegs rb 6, XIn s a) → XOut s rd →
    let dst := s.xVal ra.r
    let core := s.coreInNode s.unit.ctx (dst.toNat % 65536)
    let args := s.args rb 6
    (2 ^ 47 ≤ dst.toNat → exec (.sendm rd ra rb) s = .next (s.stopUnit s.unit.wh (.trap .msgfmt 0 dst))) ∧
    (dst.toNat < 2 ^ 47 →
      (dst.getLsbD 46 = false → core = none → exec (.sendm rd ra rb) s = .next (s.stopUnit s.unit.wh (.trap .notarget 0 dst))) ∧
      ((dst.getLsbD 46 = true ∨ core ≠ none) → SlotFree s →
        (dst.getLsbD 27 = false → exec (.sendm rd ra rb) s = .next (s.commit (s.sendMsg rd dst (core.getD 0) args none 0) .fall)) ∧
        (dst.getLsbD 27 = true → s.me.freeSlot = none →
          exec (.sendm rd ra rb) s = .next (s.commit (s.swapOut (.x rd) (.outcome 4)) .fall)) ∧
        (∀ k, dst.getLsbD 27 = true → s.me.freeSlot = some k →
          let kind := LinkKind.message s.unit.core s.unit.ctx k s.myCtx.gen (dst.extractLsb' 28 8).toNat (dst.extractLsb' 24 2).toNat (dst.getLsbD 46)
          let l : Link := { kind := kind, value := s.linkVal, answerer := s.unit.ctx, answererGen := s.myCtx.gen }
          let t := { s with links := tset s.links s.fresh l, fresh := s.fresh + 1 }.setMe { s.me with ires := s.me.ires ||| BitVec.ofNat 64 (2 ^ k) }
          exec (.sendm rd ra rb) s =
            .next (s.commit (t.sendMsg rd dst (core.getD 0) args (some (k, s.fresh)) s.linkVal) .fall)))) ∧
    (s.links.length < 2 ^ 63 → s.linkVal ≠ 0 ∧ ∀ p ∈ s.links, p.2.value ≠ s.linkVal) ∧
    (∀ core reserve link, ∃ m fl,
      tget (s.sendMsg rd dst core args reserve link).msgs s.fresh = some m ∧
      tget (s.sendMsg rd dst core args reserve link).flights (s.fresh + 1) = some fl ∧
      m.msg.hdr = s.msgHdr s.unit.core (dst.getLsbD 46) (dst.extractLsb' 24 2).toNat (dst.extractLsb' 16 8).toNat ∧ m.msg.link = link ∧
      (∀ k, (h : k < 6) → m.msg.args[k] = args.getD k 0) ∧ m.toCore = core ∧ m.toCtx = s.unit.ctx ∧ m.reserve = reserve ∧
      fl.dst = .x rd ∧ fl.job = .send s.fresh ∧ fl.who = s.who)

/-- R239, R247, R424, R445: `reply` answers a link that its context may answer, once: a link that nothing unanswered has, or that another context
must answer, faults with LINK; the reply to a message goes to the slot reserved for it, with five arguments and status 0. -/
def Claims.ReplyResults : Prop :=
  ∀ (s : State) (ra rb : Src), Alone s (.reply ra rb) → (∀ a ∈ ra :: argRegs rb 5, XIn s a) →
    let v := s.xVal ra.r
    (s.findLink v = none → exec (.reply ra rb) s = .next (s.stopUnit s.unit.wh (.trap .link 0 v))) ∧
    (∀ id l, s.findLink v = some (id, l) →
      (s.linkOk s.unit.ctx id l = false → exec (.reply ra rb) s = .next (s.stopUnit s.unit.wh (.trap .link 0 v))) ∧
      (s.linkOk s.unit.ctx id l = true →
        (l.fences = true → s.fenceDone s.who .pk = false → exec (.reply ra rb) s = .next (s.setMyFibre (s.myFibre.waits 7 4 (.fence .pk)))) ∧
        ((l.fences = true → s.fenceDone s.who .pk = true) →
          exec (.reply ra rb) s = .next (s.commit (s.answerLink s.who id l (s.args rb 5) 0) .fall) ∧
          (∀ core ctx slot gen rtag prio peer, l.kind = .message core ctx slot gen rtag prio peer → (s.ctx ctx).gen = gen → tget s.links id = some l →
            ∃ m, s.answerLink s.who id l (s.args rb 5) 0 =
                ({ s with links := tset s.links id { l with replied := true }, msgs := tset s.msgs s.fresh m, fresh := s.fresh + 1 }.sendFlit
                  (dieLinkFor s.unit.core (some (core / 576))) s.fresh).demote s.unit.ctx (jointScope s.unit.core core) ∧
              m.isReply = true ∧ m.toCore = core ∧ m.toCtx = ctx ∧ m.slot = some slot ∧ m.msg.link = 0 ∧
              m.msg.hdr = s.msgHdr s.unit.core false prio rtag ∧ (∀ k, (h : k < 5) → m.msg.args[k] = (s.args rb 5).getD k 0) ∧ m.msg.args[5] = 0))))

/-- R242 to R245, R40, R74: a message of the package's own, not one of an inbound log, that reaches a core wakes it and is accepted into the lowest
free slot (log 108), or into the cage of a context that is not resident, and its sender's answer is its outcome; one refused is sent again after its back-off
where it asks for that, and is otherwise reported, the slot and the link reserved for its reply freed. When an earlier message of another fibre has left is
deduced (log 55). -/
def Claims.MessageArrivals : Prop :=
  ∀ (s : State) (id fid : Nat) (m : MFlight) (f : Flight), tget s.msgs id = some m → m.flight = some fid → tget s.flights fid = some f →
    m.waitTill = none → s.msgBefore id m = false → s.msgReleased id m = true → m.peer = false → m.isReply = false →
    m.again = false → (∀ p ∈ s.msgs, p.2.again = false) → (s.ctx m.toCtx).st ≠ .created → s.rpoints = [] →
    let tag := (m.msg.hdr.extractLsb' 16 8).toNat
    let code := acceptCode s m.toCore m.toCtx tag
    let outcome (c : Nat) : Flight := { f with job := .outcome (BitVec.ofNat 64 (c + m.resends * 256)) }
    let mine := s.img m.who.core m.who.ctx
    ∃ u, exec (.messageArrival (.flight id)) s = .next u ∧
      (code = 0 → u.msgs = tdel s.msgs id ∧ u.flights = tset s.flights fid (outcome 0) ∧ u.links = s.links ∧
        let i := s.img m.toCore m.toCtx
        let slot (r : Route) : InSlot := { msg := m.msg, tag := tag, route := r, order := s.fresh, die := m.who.core / 576 != m.toCore / 576, link := m.linkId, entry := i.handler tag }
        ((s.core m.toCore).res = some m.toCtx → ∀ k, i.freeSlot = some k →
          u.img m.toCore m.toCtx = { i with inbox := tset i.inbox k (slot (routeFor (i.handler tag))) }) ∧
        ((s.core m.toCore).res ≠ some m.toCtx → u.img m.toCore m.toCtx = i.park ((s.ctx m.toCtx).st == .saved) (slot .held))) ∧
      (u.core m.toCore).power = .active ∧
      (code ≠ 0 →
        (m.dst.getLsbD 26 = true → m.resends < 15 → u = { s.wakeCore m.toCore with msgs := tset s.msgs id { m with
          waitTill := some ((s.dieOf (m.who.core / 576)).cyc + 5 * 64 * 2 ^ (Nat.min m.resends 8)) } }) ∧
        (m.dst.getLsbD 26 = false ∨ 15 ≤ m.resends → u.msgs = tdel s.msgs id ∧ u.flights = tset s.flights fid (outcome code) ∧
          (m.reserve = none → u.imgs = s.imgs ∧ u.links = s.links) ∧
          (∀ k lid, m.reserve = some (k, lid) → u.links = tdel s.links lid ∧
            u.imgs = (s.setImg m.who.core m.who.ctx { mine with ires := mine.ires &&& ~~~(BitVec.ofNat 64 (2 ^ k)) }).imgs)))

/-- R244, R247, R74: a reply goes to the slot reserved for it, which is reserved no longer; it is never refused, and where its context is not resident
it waits in the cage for that slot. -/
def Claims.ReplyArrivals : Prop :=
  ∀ (s : State) (id k : Nat) (m : MFlight), tget s.msgs id = some m → m.waitTill = none → s.msgBefore id m = false →
    s.msgReleased id m = true → m.peer = false → m.isReply = true → m.slot = some k → m.again = false →
    (∀ p ∈ s.msgs, p.2.again = false) → s.rpoints = [] →
    let tag := (m.msg.hdr.extractLsb' 16 8).toNat
    let i := s.img m.toCore m.toCtx
    let slot : InSlot := { msg := m.msg, tag := tag, route := routeFor (i.handler tag), order := s.fresh, die := m.who.core / 576 != m.toCore / 576,
                           entry := i.handler tag }
    ∃ u, exec (.messageArrival (.flight id)) s = .next u ∧ u.msgs = tdel s.msgs id ∧ u.flights = s.flights ∧ u.links = s.links ∧
      (u.core m.toCore).power = .active ∧
      ((s.core m.toCore).res = some m.toCtx →
        u.img m.toCore m.toCtx = { i with ires := i.ires &&& ~~~(BitVec.ofNat 64 (2 ^ k)), inbox := tset i.inbox k slot }) ∧
      ((s.core m.toCore).res ≠ some m.toCtx →
        u.img m.toCore m.toCtx = i.park ((s.ctx m.toCtx).st == .saved) { slot with slot := some k })

/-- R242, R465: a message whose back-off has passed goes out again, marked as sent again, on a port that is up now if it goes to a peer; one to a core of
its sender's die leaves on no link. -/
def Claims.MessageResends : Prop :=
  ∀ (s : State) (id t : Nat) (m : MFlight), tget s.msgs id = some m → m.waitTill = some t → t ≤ (s.dieOf (m.who.core / 576)).cyc →
    let again := { m with waitTill := none, resends := m.resends + 1, msg := { m.msg with hdr := m.msg.hdr ||| ((1 : DWord) <<< 27) },
                          port := if m.peer then s.peerPort (m.dst.extractLsb' 36 10).toNat (m.dst.extractLsb' 0 16).toNat else none }
    let sent := { s with msgs := tset s.msgs id again }
    (m.peer = false → m.toCore / 576 = m.who.core / 576 → exec (.messageResend id) s = .next sent) ∧
    (m.peer = false → m.toCore / 576 ≠ m.who.core / 576 → exec (.messageResend id) s = .next (sent.sendFlit (some (.die (m.who.core / 576))) id)) ∧
    (m.peer = true → exec (.messageResend id) s = .next (sent.sendFlit (again.port.map LinkName.port) id))

/-- R245, R246: `tagctl` loads, enables, disables and reads the issuing core's entry for a tag; enabling a tag delivers the messages held
for it; a value with a reserved bit set is refused. That a load of the entry leaves held messages held is the model's choice (log 91). -/
def Claims.TagControl : Prop :=
  ∀ (s : State) (rd : Reg) (ra : Src) (tag : BitVec 8),
    let e := s.me.handler tag.toNat
    (∀ p ∈ tagRows s ra tag e, Alone s p.1 → (∀ a ∈ p.2.1, XIn s a) →
      ((∀ x, p.1 = .tagctlLd x tag → (s.xVal x.r) &&& 0xE000000000000003 = 0) →
        let t := s.setMe (s.me.setHandler tag.toNat p.2.2)
        exec p.1 s = .next (s.commit (if p.1 = .tagctlEn tag then t.setMe (t.me.deliverHeld tag.toNat) else t) .fall)) ∧
      (∀ x, p.1 = .tagctlLd x tag → (s.xVal x.r) &&& 0xE000000000000003 ≠ 0 →
        exec p.1 s = .next (s.stopUnit s.unit.wh (.trap .msgfmt 0 (s.xVal x.r))))) ∧
    (Alone s (.tagctlRd rd tag) → XOut s rd → exec (.tagctlRd rd tag) s = .next (s.commit (s.writeX rd e) .fall)) ∧
    (tsorted s.me.handlers = true → ∀ v, (s.me.setHandler tag.toNat v).handler tag.toNat = v)

/-- R67, R66, R332: the oldest message or upcall that finds an entry starts a fibre: a handler with the six arguments, the header and the link in
x1 to x8, at the PC and level that its tag had when it was accepted (R246), which acquires what its sender released (log 113); its slot is free. That no two waiters come in one cycle is the
model's choice (log 92). -/
def Claims.HandlerStarts : Prop :=
  ∀ (s : State) (core ctx e : Nat) (w : Waiter), s.issuing core = some ctx → (s.img core ctx).nextWaiter = some (w, e) →
    let i := s.img core ctx
    (∀ m, w.upcall = false → tget i.inbox w.slot = some m →
      let h := m.entry
      let sc := hdrScope m.msg.hdr core
      let who : Who := { core := core, ctx := ctx, gen := (s.ctx ctx).gen, entry := e, uid := s.fresh }
      let t := ((s.demote ctx sc).acquireAt who (msgKey m.order) 1 (s.capped ctx sc) none).endRels (msgKey m.order)
      ∃ f u, exec (.handlerStart core) s = .next u ∧
        u = { t.setImg core ctx ({ i with inbox := tdel i.inbox w.slot }.setFibre e f) with fresh := s.fresh + 1 } ∧ f.uid = s.fresh ∧
        f.pc = h &&& 0x00FFFFFFFFFFFFFC ∧ f.st = .ready ∧ f.kind = 2 ∧ f.level = h.extractLsb' 56 2 ∧ f.fe = 0xFF ∧ f.pred = 0 ∧ f.tok = 0 ∧
        (∀ k, (hk : k < 6) → f.x[k] = m.msg.args[k]) ∧ f.x[6] = m.msg.hdr ∧ f.x[7] = m.msg.link ∧ f.owes = m.link) ∧
    (∀ p, w.upcall = true → i.parkings.find? (fun p => p.entry == w.slot && !p.started) = some p → p.entry ≠ e →
      let h := i.handler 0xFF
      ∃ f u, exec (.upcallStart core) s = .next u ∧ (u.img core ctx).fibre e = f ∧
        f.pc = h &&& 0x00FFFFFFFFFFFFFC ∧ f.st = .ready ∧ f.kind = 2 ∧ f.level = h.extractLsb' 56 2 ∧
        f.x[0] = p.dva ∧ f.x[2] = p.pc ∧ f.x[3] = p.other ++ p.word ∧ f.x[4] = 0 ∧ f.x[5] = 0 ∧ f.x[7] = s.linkVal ∧
        tget u.links s.fresh = some { kind := .upcall core ctx p.entry p.uid, value := s.linkVal, answerer := ctx, answererGen := (s.ctx ctx).gen } ∧
        (u.img core ctx).fibre p.entry = { i.fibre p.entry with wop := 1 })

/-- R248: `qenq`, `qdeq` and `qsteal` need a capability that holds a queue of its generation and their right, and otherwise fault with CAP; each is
a round trip at `.pk`. -/
def Claims.QueueOperations : Prop :=
  ∀ (s : State) (rd : Reg) (ra rb : Src) (pn : BitVec 3), ∀ p ∈ queueRows s rd ra rb pn, Alone s p.1 → (∀ a ∈ p.2.1, XIn s a) → XOut s p.2.2.1 →
    let c := s.xVal ra.r
    ((s.capOf c = none ∨ ∃ k, s.capOf c = some k ∧ p.2.2.2.1 k = false) → exec p.1 s = .next (s.stopUnit s.unit.wh (.trap .cap 0 c))) ∧
    (∀ k, s.capOf c = some k → p.2.2.2.1 k = true → SlotFree s →
      exec p.1 s = .next (s.commit ((s.demote s.unit.ctx .pk).swapOut (.xp p.2.2.1 pn) (p.2.2.2.2 k.qid)
        (match p.1 with | .qenq _ _ _ => some (s.capped s.unit.ctx .pk) | _ => none)) .fall))

/-- R248, R497, R117: the queue controller appends at the tail where the ring has space, and takes the head (`qdeq`) or the tail (`qsteal`) of a queue that is
not empty; what was appended last is what a steal then takes, and an element appended to an empty queue is what a dequeue then takes; an operation waits for
a copy that owns the line of its element (log 112), the predicate of its answer says whether it was done, and an element taken is an acquire of the release
that enqueued it (log 113). -/
def Claims.QueueController : Prop :=
  ∀ (s : State) (qid : Nat) (q : Queue) (v : DWord), Inv s → tget s.queues qid = some q →
    let elem (i : Nat) : DWord := BitVec.ofNat 64 (ofBytes (s.getBytes (q.slot i) 8))
    (q.count < 2 ^ q.cap → ∃ u, s.enqueue qid v = some u ∧ tget u.queues qid = some { q with t := q.t + 1, count := q.count + 1 } ∧
      (∀ b, b < q.slot q.t ∨ q.slot q.t + 8 ≤ b → u.byte b = s.byte b) ∧
      ((u.steal qid).map Prod.fst = some v) ∧ (q.count = 0 → q.h = q.t → (u.dequeue qid).map Prod.fst = some v)) ∧
    (2 ^ q.cap ≤ q.count → s.enqueue qid v = none) ∧ (q.count = 0 → s.dequeue qid = none ∧ s.steal qid = none) ∧
    (q.count ≠ 0 →
      (∃ u, s.dequeue qid = some (elem q.h, u) ∧ tget u.queues qid = some { q with h := q.h + 1, count := q.count - 1 } ∧ u.mem = s.mem) ∧
      (∃ u, s.steal qid = some (elem (q.t - 1), u) ∧ tget u.queues qid = some { q with t := q.t - 1, count := q.count - 1 } ∧ u.mem = s.mem)) ∧
    (∀ id f, tget s.flights id = some f → s.linkPassed id = true → s.orderKept f.who id false f.rel = true →
      let sc := s.capped f.who.ctx .pk
      (f.job = .enq qid v → s.ringOwned qid q.t 1 = false → exec (.answerArrival id .here) s = .next (match s.enqueue qid v with
        | some u => ((u.endRels (elemKey qid q q.t)).publishAt f.who id (elemKey qid q q.t) 1 sc s.fresh).land id f 0 true
        | none => s.land id f 0 false)) ∧
      (∀ st, f.job = .deq qid st → (q.count ≠ 0 → s.ringOwned qid (if st then q.t - 1 else q.h) 1 = false) →
        let k := elemKey qid q (if st then q.t - 1 else q.h)
        exec (.answerArrival id .here) s = .next (match (if st then s.steal qid else s.dequeue qid) with
        | some (x, u) => ((u.acquireAt f.who k 1 sc none).endRels k).land id f x.toNat true
        | none => s.land id f 0 false)))

/-- R249, R408, R124: a binding form binds q2 or q3 to the queue of a capability, or unbinds it, once its old binding can be given up; elements fetched
ahead return to their queue, once no copy owns a line of their places: whether an unbinding can be done is the model's reading (log 13). -/
def Claims.QueueBindings : Prop :=
  ∀ (s : State) (q : BitVec 1) (ra : Src), ∀ p ∈ bindRows q ra, Alone s p.1 → XIn s ra →
    let c := s.xVal ra.r
    let old := s.me.qreg[q.toNat]
    let n := old.buf.length
    let from' := match tget s.queues old.qid with
      | some k => if old.dir = 3 then k.t else (k.h + 2 ^ k.cap - n % 2 ^ k.cap) % 2 ^ k.cap
      | none => 0
    let back := if old.dir = 2 ∨ old.dir = 3 then
        (s.backRels (qregKey s.unit.core s.unit.ctx (q.toNat + 2)) old.qid (old.dir == 3) n).putBack old.qid (old.dir == 3) old.buf else s
    let done (b : QReg) : State :=
      if 2 ≤ old.dir.toNat ∧ s.ringOwned old.qid from' n = true then s
      else s.commit (back.setMe { s.me with qreg := s.me.qreg.set q.toNat b }) .fall
    let waits := if old.dir = 1 then s.setMyFibre (s.myFibre.waits 2 (q.toNat + 2) (.qpush (q.toNat + 2) 4)) else s
    (c.getLsbD 63 = true → exec p.1 s = .next (if s.unbindable old then done {} else waits)) ∧
    (∀ k, c.getLsbD 63 = false → s.capOf c = some k → p.2.2 k = true →
      exec p.1 s = .next (if s.unbindable old then done { cap := c, dir := p.2.1, qid := k.qid } else waits)) ∧
    (c.getLsbD 63 = false → (s.capOf c = none ∨ ∃ k, s.capOf c = some k ∧ p.2.2 k = false) →
      exec p.1 s = .next (s.stopUnit s.unit.wh (.trap .cap 0 c)))

/-- R250, R251, R404, R64, R117: `qpop` and `qpopv` take one element or four, which come to a destination that is empty meanwhile, and `qpush` and `qpushv` add as many; a pop acquires what its elements' senders released, and a push releases (log 113); a trap-mode form that finds too few
elements or spaces faults, and a block-mode one waits. -/
def Claims.QueueRegisters : Prop :=
  ∀ (s : State) (r : Reg) (rb : Src) (q : BitVec 3) (fa : Bool), q.toNat < 6 → (fa = true ∨ s.myFibre.kind ≠ 2) →
    let es := s.qElems s.unit.core s.unit.ctx q.toNat
    let room := s.qSpaces s.unit.core s.unit.ctx q.toNat
    let lacks (i : Instr) (w : WCond) (cls : Cls) (n : Nat) : Prop :=
      exec i s = .next (if fa then s.stopUnit s.unit.wh (.trap cls 0 (BitVec.ofNat 64 (q.toNat + 256 * Nat.min 255 n)))
        else s.setMyFibre (s.myFibre.waits 2 q.toNat w))
    let popped (n : Nat) : State :=
      let t := s.popAcquire q.toNat n
      (t.setMe (t.me.popQ q.toNat n)).demote s.unit.ctx (s.popScope q.toNat)
    let pushing (n : Nat) : State := if 4 ≤ q.toNat then s.pushRelease q.toNat n else s
    let rel : Scope := if 4 ≤ q.toNat then .cl else .pk
    (BoundFor s q false → Alone s (.qpop r q fa) → XOut s r →
      (∀ e l, es = e :: l → exec (.qpop r q fa) s = .next (s.commit ((popped 1).popInto (.x r) (e.setWidth 256)) .fall)) ∧
      (es = [] → lacks (.qpop r q fa) (.qpop q.toNat 1) .qempty 0)) ∧
    (BoundFor s q false → Alone s (.qpopv r q fa) → s.pushGuards [.dv r] = .ok () → (∃ t, s.pushCheck r (2 ^ 32 - 1) = .ok t) → s.settle [.dv r] = .ok () →
      (∀ a b c d l, es = a :: b :: c :: d :: l →
        (s.me.boundTo r = none →
          exec (.qpopv r q fa) s = .next (s.commit ((popped 4).popInto (.v r (2 ^ 32 - 1) none) (d ++ c ++ b ++ a)) .fall)) ∧
        (∀ st n t, s.me.boundTo r = some st → (popped 4).pushV r st none (2 ^ 32 - 1) = .ok (n, t) →
          exec (.qpopv r q fa) s = .next (s.commit (t.popInto (.v r (2 ^ 32 - 1) (some (r.toNat, n))) (d ++ c ++ b ++ a)) .fall))) ∧
      (es.length < 4 → lacks (.qpopv r q fa) (.qpop q.toNat 4) .qempty es.length)) ∧
    (2 ≤ q.toNat → BoundFor s q true → (4 ≤ q.toNat → s.orderKept s.who s.fresh false (some (s.capped s.unit.ctx .cl)) = true) →
      (Alone s (.qpush q fa rb) → XIn s rb →
        (1 ≤ room → exec (.qpush q fa rb) s = .next (s.commit (((pushing 1).pushQ q.toNat [s.xVal rb.r]).demote s.unit.ctx rel) .fall)) ∧
        (room = 0 → lacks (.qpush q fa rb) (.qpush q.toNat 1) .qfull 0)) ∧
      (Alone s (.qpushv q fa rb) → s.ready [.v rb] = .ok () →
        (4 ≤ room → exec (.qpushv q fa rb) s = .next (s.commit ((((pushing 4).popV rb.r 1).pushQ q.toNat
          ((List.range 4).map fun k => (s.vVal rb.r 0).extractLsb' (64 * k) 64)).demote s.unit.ctx rel) .fall)) ∧
        (room < 4 → lacks (.qpushv q fa rb) (.qpush q.toNat 4) .qfull room)))

/-- R249, R427, R124, R117: an enqueue buffer drains its oldest element into its queue while the queue has room, which is a release of its fibre
(log 113); a buffer bound for dequeue or steal takes an element of its queue ahead of the pops, up to four, with what was released with it; both
while no copy owns the element's line. -/
def Claims.QueueRegisterEngines : Prop :=
  ∀ (s u : State) (core ctx : Nat) (q : BitVec 1) (v : DWord),
    let b := (s.img core ctx).qreg[q.toNat]
    let next (w : State) (b' : QReg) : State := w.setImg core ctx { w.img core ctx with qreg := (w.img core ctx).qreg.set q.toNat b' }
    ((s.core core).res = some ctx → s.undoing core ctx = false → b.dir = 1 → ∀ rest, b.buf = v :: rest →
      let who := s.primaryWho core ctx
      let ord := b.ords.headD 0
      s.orderKept who ord false (some (s.capped ctx .pk)) = true → s.tailOwned b.qid = false →
      (∀ k, s.enqueue b.qid v = some u → tget s.queues b.qid = some k →
        let u' := (u.endRels (elemKey b.qid k k.t)).publishAt who ord (elemKey b.qid k k.t) 1 (s.capped ctx .pk) s.fresh
        exec (.qregEnqueueDrain core q) s = .next ((next u' { b with buf := rest, ords := b.ords.drop 1 }).demote ctx .pk)) ∧
      (s.enqueue b.qid v = none → exec (.qregEnqueueDrain core q) s = .next s)) ∧
    (s.issuing core = some ctx → s.undoing core ctx = false →
      (∀ st, b.buf.length < 4 → b.dir = (if st then 3 else 2) → s.headOwned b.qid st = false →
        (if st then s.steal b.qid else s.dequeue b.qid) = some (v, u) →
        exec (.qregFetchAhead core q) s = .next (next (u.moveRels (s.headKey b.qid st) (qregKey core ctx (q.toNat + 2)) b.buf.length)
          { b with buf := b.buf ++ [v] })) ∧
      (4 ≤ b.buf.length ∨ b.dir = 0 ∨ b.dir = 1 → exec (.qregFetchAhead core q) s = .next s))

/-- R271: `scfg` writes a dword of the descriptor of an unbound unit, and dword 0 sets its position to 0; of a bound unit it is a STREAM fault, before its source is waited for (deduced, log 39). -/
def Claims.StreamDescriptors : Prop :=
  ∀ (s : State) (u : BitVec 2) (a : Src) (idx : BitVec 3), Alone s (.scfg u a idx) → XIn s a → idx.toNat < 7 →
    let t := s.stream u
    (t.bind = 0 → exec (.scfg u a idx) s = .next (s.commit (s.setStream u { t with
      dw := t.dw.setIfInBounds idx.toNat (s.xVal a.r), pos := if idx = 0 then 0 else t.pos }) .fall)) ∧
    (t.bind ≠ 0 → exec (.scfg u a idx) s = .next (s.stopUnit s.unit.wh (.trap .stream 0 (u.setWidth 64 + 16))))

/-- R271, R270, R294, R295: `sbind.pop` and `sbind.push` bind a unit at position 0 in their direction, with a copy of the handle that kind 2
names; each condition that fails is a STREAM fault, or an HFMT fault for a handle that is not valid (deduced, log 44). -/
def Claims.StreamBinding : Prop :=
  ∀ (s : State) (u : BitVec 2) (push : Bool),
    let i := if push then Instr.sbindPush u else .sbindPop u
    let t := s.stream u
    let c := t.dw[0]
    let hn := fld c 23 21
    let h := s.view.h.toArray.getD hn 0
    let t' : Stream := { t with
      pos := 0, bind := if push then 2 else 1, held := [], push := [], bindAt := s.fresh,
      handle := if t.kind = 2 then h else t.handle, cnt := if t.kind = 2 then (hview h).count else 0 }
    let stops (n : DWord) : Prop := exec i s = .next (s.stopUnit s.unit.wh (.trap .stream 0 (u.setWidth 64 + 16 * n)))
    Alone s i →
    (t.bind ≠ 0 → stops 1) ∧
    (t.bind = 0 → (c &&& 0xFFFFFFFFFF0EF0F0 ≠ 0 ∨ t.kind = 3 ∨ t.fmt = .f4 → stops 2) ∧
      (c &&& 0xFFFFFFFFFF0EF0F0 = 0 → t.kind ≠ 3 → t.fmt ≠ .f4 →
        (t.kind = 0 → (∃ d ∈ t.dims, d.1 = 0) → stops 3) ∧
        (t.kind = 2 → t.fmt ≠ (hview h).etype → stops 4) ∧
        (t.kind = 2 → t.fmt = (hview h).etype → handleValid h = false →
          exec i s = .next (s.stopUnit s.unit.wh (.trap .hfmt 0 (BitVec.ofNat 64 hn)))) ∧
        ((t.kind = 0 → ∀ d ∈ t.dims, d.1 ≠ 0) → (t.kind = 2 → t.fmt = (hview h).etype ∧ handleValid h = true ∧ (hview h).kind 0 ≠ 1) →
          (2 ^ 48 ≤ t'.items → stops 5) ∧
          (t'.items < 2 ^ 48 → exec i s = .next (s.commit { s.setStream u t' with fresh := s.fresh + 1 } .fall))) ∧
        (∀ q n, t.kind = 2 → t.fmt = (hview h).etype → handleValid h = true → (hview h).kind 0 = 1 → s.compressedCount h hn = .ok (q, n) →
          { t' with cnt := n }.items < 2 ^ 48 →
            exec i s = .next (s.commit { q.setStream u { t' with cnt := n } with fresh := q.fresh + 1 } .fall))))

/-- R272: `sunbind` waits for pending pushes, then leaves its register holding 0 and full; `sstat` gives the five fields of a unit. -/
def Claims.StreamStatus : Prop :=
  ∀ (s : State) (rd : Reg) (u : BitVec 2),
    let t := s.stream u
    let n := if t.bind = 1 then t.held.length else if t.bind = 2 then t.push.length else 0
    (Alone s (.sunbind u) →
      (t.bind = 0 → exec (.sunbind u) s = .next (s.commit s .fall)) ∧
      (t.bind ≠ 0 → t.push ≠ [] → exec (.sunbind u) s = .next s) ∧
      (t.bind ≠ 0 → t.push = [] → exec (.sunbind u) s = .next (s.commit ((s.setStream u { t with bind := 0, held := [] }).setMe
        { (s.setStream u { t with bind := 0, held := [] }).me with
          v := s.me.v.set u.toNat 0, vfull := s.me.vfull ||| ((1 : Word) <<< u.toNat) }) .fall))) ∧
    (Alone s (.sstat rd u) → XOut s rd → n ≤ 8 →
      ∃ v, exec (.sstat rd u) s = .next (s.commit (s.writeX rd v) .fall) ∧ v.getLsbD 63 = (t.bind != 0) ∧ v.getLsbD 62 = (t.bind == 2) ∧
        v.getLsbD 61 = decide (t.items ≤ t.pos.toNat) ∧ v.getLsbD 60 = false ∧ v.extractLsb' 56 4 = BitVec.ofNat 4 n ∧
        v.extractLsb' 48 8 = 0 ∧ v.extractLsb' 0 48 = t.pos)

/-- R273: each v source that names a unit bound for popping takes its own element, and the position goes past it; at the end of the stream,
and of a unit bound for pushing, it is a STREAM fault. -/
def Claims.StreamPops : Prop :=
  ∀ (s : State) (u : BitVec 2) (d : Reg) (v w : VWord) (rest : List VWord),
    let r : Reg := u.setWidth 5
    let t := s.stream u
    (t.bind = 1 → t.held = v :: rest → s.readVs [r] = ([v], s.setStream u { t with
      pos := BitVec.ofNat 48 (min (t.pos.toNat + t.lanes) t.items), held := rest })) ∧
    (t.bind = 1 → t.held = v :: w :: rest → s.readVs [r, r] = ([v, w], s.setStream u { t with
      pos := BitVec.ofNat 48 (min (t.pos.toNat + 2 * t.lanes) t.items), held := rest })) ∧
    (Alone s (.vabs d ⟨r, false⟩ 0 .s32) → t.bind = 1 → t.items ≤ t.pos.toNat →
      exec (.vabs d ⟨r, false⟩ 0 .s32) s = .next (s.stopUnit s.unit.wh (.trap .stream 0 (u.setWidth 64 + 16 * 6)))) ∧
    (Alone s (.vabs d ⟨r, false⟩ 0 .s32) → t.bind = 2 →
      exec (.vabs d ⟨r, false⟩ 0 .s32) s = .next (s.stopUnit s.unit.wh (.trap .stream 0 (u.setWidth 64 + 16 * 7))))

/-- R274, R414: a destination that names a unit bound for pushing takes the element into its buffer, with the items of the lanes that the mask
names and that lie below N, and the position goes past it; at the end of the stream, and of a unit bound for popping, it is a STREAM fault. -/
def Claims.StreamPushes : Prop :=
  ∀ (s : State) (u : BitVec 2) (val : VWord) (w mask : Nat) (a : Src),
    let r : Reg := u.setWidth 5
    let t := s.stream u
    let js := (List.range t.lanes).filter fun j => mask.testBit j && decide (t.pos.toNat + j < t.items)
    (t.bind = 2 → ∀ s' ts, s.itemTargets s.unit.core s.unit.ctx t .push (js.map fun j => t.pos.toNat + j) = .ok (s', ts) →
      let e : PushElem := { items := js.zip ts, width := t.fmt.width, md := t.mode, val := some val, tag := s'.fresh, pc := s'.unit.pc,
                            word := s'.unit.word, adm := s'.lookups }
      s.writeV r val w mask = .ok { s'.setStream u { t with
        pos := BitVec.ofNat 48 (min (t.pos.toNat + t.lanes) t.items), push := t.push ++ [e] } with fresh := s'.fresh + 1 }) ∧
    (Alone s (.vbcast r a .s32) → XIn s a → t.bind = 2 → t.items ≤ t.pos.toNat →
      exec (.vbcast r a .s32) s = .next (s.stopUnit s.unit.wh (.trap .stream 0 (u.setWidth 64 + 16 * 6)))) ∧
    (Alone s (.vbcast r a .s32) → XIn s a → t.bind = 1 →
      exec (.vbcast r a .s32) s = .next (s.stopUnit s.unit.wh (.trap .stream 0 (u.setWidth 64 + 16 * 7))))

/-- R268, R273, R274, R277, R414: the units at work: the next element is fetched ahead of the pops, up to eight, once the accesses before the
`sbind` are done and unless a fault of the primary has stopped it (R403), lane 0 first, with lanes past the last item zero, and a check that fails fetches nothing; the oldest pushed element leaves as stores of its items. -/
def Claims.StreamEngines : Prop :=
  ∀ (s : State) (core ctx : Nat) (u : BitVec 2),
    let i := s.img core ctx
    let t := i.streams[u.toNat]
    let at' := t.pos.toNat + t.held.length * t.lanes
    let who := s.primaryWho core ctx
    (s.issuing core = some ctx → s.undoing core ctx = false → s.allBefore who t.bindAt = true →
      t.bind = 1 → t.held.length < 8 → (i.fibre 0).st ≠ .parked → (i.fibre 0).st ≠ .frozen → i.hush = false → at' < t.items →
      (∀ s' ts, s.itemTargets core ctx t .pop (t.elemItems at') = .ok (s', ts) → (∀ x ∈ ts, s'.readHeld who t.bindAt x t.isize = false ∧ s.lineOwned s.fresh x t.isize = false) →
        (∀ j ∈ t.elemItems at', s.indexHeld core ctx t t.bindAt j = false) →
        ∃ v, (∀ k, k < t.lanes → laneOf t.fmt.width v k = ((ts[k]?).map fun x => BitVec.ofNat t.fmt.width (s'.readNum who x t.isize)).getD 0) ∧
          exec (.streamFetchAhead core u) s = .next { (ts.foldl (fun q x => q.noteRead who t.bindAt x t.isize) s').setImg core ctx { s'.img core ctx with
            streams := (s'.img core ctx).streams.set u.toNat { t with held := t.held ++ [v] } } with lookups := s.lookups }) ∧
      (∀ e, s.itemTargets core ctx t .pop (t.elemItems at') = .error e → exec (.streamFetchAhead core u) s = .next s)) ∧
    (t.bind = 1 → t.held.length = 8 → exec (.streamFetchAhead core u) s = .next s) ∧
    ((s.core core).res = some ctx → s.undoing core ctx = false → ∀ e rest v, t.push = e :: rest → e.val = some v →
      exec (.streamPushStore core u) s = .next (e.items.foldl (fun s x => { { s with lookups := e.adm }.issueStoreAs who x.2
          (.bytes ((List.range (e.width / 8)).map (byteOf (lane v.toNat e.width x.1)))) e.md none x.2.peerDva e.pc e.word e.tag with
            lookups := s.lookups })
        (s.setImg core ctx { i with streams := i.streams.set u.toNat { t with push := rest } })))

/-- R278, R415, R281: `rep` captures the words after it (in ascending order: deduced, log 45) and starts their replay, all of them lone A-class
words outside the stream majors: the first that is none faults; a count of 0 skips them, and one above 65536 is a REP fault. -/
def Claims.RepetitionStarts : Prop :=
  ∀ (s : State) (n : BitVec 5) (cnt : BitVec 16) (ra : Src),
    let body := s.unit.unitEnd
    let after := body + 4 * (n.setWidth 64 + 1)
    (∀ p ∈ [(Instr.repImm n cnt, ([] : List Src), cnt.toNat + 1), (.repReg n ra, [ra], (s.xVal ra.r).toNat)],
      Alone s p.1 → (∀ a ∈ p.2.1, XIn s a) →
      (65536 < p.2.2 → exec p.1 s = .next (s.stopUnit s.unit.wh (.trap .rep 0 (BitVec.ofNat 64 (p.2.2 % 2 ^ 63))))) ∧
      (p.2.2 = 0 → exec p.1 s = .next (s.commit s (.jump after))) ∧
      (0 < p.2.2 → p.2.2 ≤ 65536 → s.unit.wh = 0 →
        (∀ x, s.capture body (n.toNat + 1) 0 = .error x → exec p.1 s = .next (s.stopUnit s.unit.wh x)) ∧
        (∀ t ws, s.capture body (n.toNat + 1) 0 = .ok (t, ws) →
          let fits (w : Word) : Prop := ∃ i, decodeWord w = .ok i ∧ isAClass i = true ∧ w.getLsbD 31 = true ∧ isStreamOp i = false
          ws.length = n.toNat + 1 ∧
          (∀ k, (h : k < ws.length) → (∀ j, (h' : j < k) → fits ws[j]) → ¬ fits ws[k] → exec p.1 s = .next ((s.keepMarks t).stopUnit 0 (match decodeWord ws[k] with
            | .error e => .body .ill (BitVec.ofNat 64 e)
            | .ok _ => .body .rep (BitVec.ofNat 64 (2 ^ 63 + k))))) ∧
          ((∀ w ∈ ws, fits w) →
            ∃ r : Rep, exec p.1 s = .next (s.commit (t.setMe { t.me with rep := r }) (.past (after - 4) after)) ∧
              r.act = true ∧ r.len = n ∧ r.next = 0 ∧ r.left.toNat = p.2.2 ∧ r.repat = s.unit.pc ∧ r.wd = s.unit.word ∧ r.alone = false ∧
              ∀ k, (h : k < 32) → (h' : k < ws.length) → r.body[k] = ws[k]))))

/-- R279, R282, R416, R439, R169: a replay executes its next body word as an instruction of the primary and goes on to the word after it, to the
next execution, or to its end, with which the `rep` unit completes and the counts of the loops that it ends fall; a guard that fails stops the
primary at that word, and a condition that is not met makes it wait there. -/
def Claims.Replays : Prop :=
  ∀ (s : State) (core ctx : Nat) (b : Instr),
    let i := s.img core ctx
    let r := i.rep
    let w := r.body.toArray.getD r.next.toNat 0
    let a := r.repat + 4 + 4 * r.next.setWidth 64
    let t := { s with unit := { core := core, ctx := ctx, entry := 0, pc := a, unitEnd := a + 4, word := w, other := r.wd, wh := 3, body := r.next } }
    s.issuing core = some ctx → r.act = true → r.left ≠ 0 → (i.fibre 0).st = .ready ∨ (i.fibre 0).st = .waiting → decodeWord w = .ok b →
    s.undoing core ctx = false → t.indexWaits b = false →
    (∀ u c, effOf b t = .ok (u, c) → u.me.rep.act = true →
      let q := u.me.rep
      let lc (l : Fin 2) : DWord := if q.ends.getLsbD l then u.me.lc[l] - 1 else u.me.lc[l]
      let v := u.setMe (
        if q.next.toNat < q.len.toNat then { u.me with rep := { q with next := q.next + 1 }, hush := false }
        else if 1 < q.left.toNat then { u.me with rep := { q with next := 0, left := q.left - 1 }, hush := false }
        else { u.me with rep := { q with next := 0, left := 0, act := false, alone := false, ends := 0 }, lc := #v[lc 0, lc 1], hush := false })
      exec (.replayWord core) s = .next { v.setMyFibre v.myFibre.replayed with lookups := s.lookups }) ∧
    (∀ x, effOf b t = .error x → x.isGuard = true → x.awaitsHost t = false → exec (.replayWord core) s = .next (t.stopUnit 3 x)) ∧
    (∀ k o c, effOf b t = .error (.wait k o c) → exec (.replayWord core) s =
      .next (if (i.fibre 0).st = .ready then t.setMyFibre (t.myFibre.waits k o .replay) else s))

/-- R280, R426: behind a replay, an A-class word, one of those that order it, and any word that names a register of the body wait for its
end; a lone word that is none of these completes. -/
def Claims.BehindAReplay : Prop :=
  ∀ (s : State) (rd : Reg) (ra rb : Src) (d : Reg) (a b : Src) (m : BitVec 3) (code : BitVec 13) (sc : Scope),
    s.unit.pair = none → s.unit.entry = 0 → s.me.rep.act = true → s.me.rep.left ≠ 0 →
    (∀ i ∈ [Instr.exit, .ckpt ra, .mts code ra, .fence sc, .fenceW sc, .vadd d a b m .s32], exec i s = .next s) ∧
    ((∃ n ∈ instrNames (.add rd ra rb false), n ∈ s.me.rep.names) → exec (.add rd ra rb false) s = .next s) ∧
    ((∀ n ∈ instrNames (.add rd ra rb false), n ∉ s.me.rep.names) → s.me.rep.alone = false → XIn s ra → XIn s rb → XOut s rd →
      exec (.add rd ra rb false) s = .next (s.commit (s.writeX rd (s.xVal ra.r + s.xVal rb.r)) .fall))

/-- R284, R285, R300 to R302, R305 to R307: each instruction of the matrix unit is accepted from the core that holds the issue right, with FMT
and its handles, once its guards pass, and stays ready while the unit holds eight; `mxfmt` sets the four format fields of FMT. -/
def Claims.MatrixRequests : Prop :=
  ∀ (s : State) (c src : BitVec 4) (ha hb : BitVec 3) (k w : BitVec 5) (ra : Src) (sat : Bool) (fa fb fd : BitVec 4),
    let f := s.view.fmt
    let n := 48 * (k.toNat + 1)
    let A := s.view.h[ha.toNat]
    let B := s.view.h[hb.toNat]
    (Issuer s →
      ((fmtA f, fmtB f) ∈ productPairs → Operand s hb (fmtB f) n →
        (Operand s ha (fmtA f) n → (hview A).kind 0 = 0 →
          (Alone s (.mma c ha hb k) → (hview B).kind 0 = 0 → Requests (.mma c ha hb k) s (.product c.toNat (some A) 0 B n)) ∧
          (Alone s (.mmas c ha hb k) → (hview B).kind 0 = 2 → Requests (.mmas c ha hb k) s (.product c.toNat (some A) 0 B n))) ∧
        (Alone s (.mmac c src hb k) → n ≤ 1024 → src.toNat + (n + 63) / 64 ≤ 16 →
          (c.toNat < src.toNat ∨ src.toNat + (n + 63) / 64 ≤ c.toNat) → fmtD f = fmtA f → ((hview B).kind 0 = 0 ∨ (hview B).kind 0 = 2) →
          Requests (.mmac c src hb k) s (.product c.toNat none src.toNat B n))) ∧
      (Alone s (.accz c) → Requests (.accz c) s (.zero c.toNat)) ∧
      (Alone s (.accrd c ra) → XIn s ra →
        let v := s.xVal ra.r
        let rows := (v.extractLsb' 8 6).toNat + 1
        (v.extractLsb' 14 50 = 0 → v.extractLsb' 6 2 = 0 → (v.extractLsb' 0 6).toNat + rows ≤ 64 →
          Requests (.accrd c ra) s (.read c.toNat (v.extractLsb' 0 6).toNat 0 rows)) ∧
        (v.extractLsb' 14 50 ≠ 0 ∨ v.extractLsb' 6 2 ≠ 0 ∨ 64 < (v.extractLsb' 0 6).toNat + rows →
          exec (.accrd c ra) s = .next (s.stopUnit s.unit.wh (.trap .mxarg 0 v)))) ∧
      (Alone s (.accdc c hb w) →
        let cols := 16 * (w.toNat + 1)
        let v := hview B
        fmtD f ∈ [Fmt.f32, .f16, .bf16, .f8a, .f8b, .f4, .s8, .s16] → c.toNat + (cols + 63) / 64 ≤ 16 →
        (blockScaled (fmtD f) = true → cols % 48 = 0 ∧ v.o0 % 48 = 0) → handleValid B = true → v.etype = fmtD f → v.nlev = 2 → v.kind 0 = 0 →
        v.o1 + 64 ≤ v.ext 1 → v.o0 + cols ≤ v.ext 0 → s.blockChecks B hb.toNat cols true = .ok () →
        Requests (.accdc c hb w) s (.down c.toNat B cols))) ∧
    (Alone s (.mxfmt sat fa fb fd) → ∃ v : DWord,
      exec (.mxfmt sat fa fb fd) s = .next (s.commit (s.setMe { s.me with fmt := v }) .fall) ∧
      v.extractLsb' 12 4 = fa ∧ v.extractLsb' 8 4 = fb ∧ v.extractLsb' 4 4 = fd ∧ v.getLsbD 3 = sat ∧
      v.extractLsb' 0 3 = s.me.fmt.extractLsb' 0 3 ∧ v.extractLsb' 16 48 = s.me.fmt.extractLsb' 16 48)

/-- R283, R290, R301, R302, R307: what the guards of the matrix unit refuse: a core without the issue right, a pair of formats that is not one
of the products', an operand that is not valid, of another format, out of its extents, or of the wrong kind, tiles past the last. The order of an operand's
guards is deduced (log 41). -/
def Claims.MatrixGuards : Prop :=
  ∀ (s : State) (c src : BitVec 4) (ha hb : BitVec 3) (k w : BitVec 5) (ra : Src),
    let f := s.view.fmt
    let n := 48 * (k.toNat + 1)
    let A := s.view.h[ha.toNat]
    let stops (i : Instr) (cls : Cls) (x : DWord) : Prop := exec i s = .next (s.stopUnit s.unit.wh (.trap cls 0 x))
    (¬ Issuer s → ∀ i ∈ [Instr.mma c ha hb k, .mmas c ha hb k, .mmac c src hb k, .accz c, .accrd c ra, .accdc c hb w], Alone s i →
      stops i .mxissue ((s.cluster (s.unit.core / 9)).mxissuer.setWidth 64)) ∧
    (Issuer s →
      ((fmtA f, fmtB f) ∉ productPairs → ∀ i ∈ [Instr.mma c ha hb k, .mmas c ha hb k, .mmac c src hb k], Alone s i → stops i .mxfmt f) ∧
      ((fmtA f, fmtB f) ∈ productPairs → ∀ i ∈ [Instr.mma c ha hb k, .mmas c ha hb k], Alone s i →
        (handleValid A = false → stops i .hfmt (ha.setWidth 64)) ∧
        (handleValid A = true → (hview A).etype ≠ fmtA f → stops i .mxfmt (BitVec.ofNat 64 (hview A).etype.code.toNat)) ∧
        (handleValid A = true → (hview A).etype = fmtA f → (hview A).nlev = 2 →
          ((hview A).o0 % 48 ≠ 0 ∨ (hview A).ext 0 < (hview A).o0 + n ∨ (hview A).ext 1 < (hview A).o1 + 64) → stops i .mxarg (hdw A 2)) ∧
        (Operand s ha (fmtA f) n → (hview A).kind 0 ≠ 0 → stops i .mxarg (hdw A 0))) ∧
      ((fmtA f, fmtB f) ∈ productPairs → Alone s (.mmac c src hb k) →
        (1024 < n → stops (.mmac c src hb k) .mxarg (BitVec.ofNat 64 n)) ∧
        (n ≤ 1024 → 16 < src.toNat + (n + 63) / 64 → stops (.mmac c src hb k) .mxarg (src.setWidth 64)) ∧
        (n ≤ 1024 → src.toNat + (n + 63) / 64 ≤ 16 → src.toNat ≤ c.toNat → c.toNat < src.toNat + (n + 63) / 64 →
          stops (.mmac c src hb k) .mxarg (c.setWidth 64))))

/-- R285, R292, R303: the unit starts its oldest request, unless one of another format waits for the bubble, and ends it with its effect; the
bubble ends. -/
def Claims.MatrixUnit : Prop :=
  ∀ (s : State) (cl : Nat) (r : MReq) (rs : List MReq),
    let c := s.cluster cl
    c.mreqs = r :: rs →
    (r.running = false → (r.op.usesFmt = true → c.bubble = true → c.lastFmt = none ∨ c.lastFmt = some r.fmt) →
      (r.op.isDown = true → s.barsKept r.who r.id = true) → s.rangesHeld r (r.reads cl ++ r.writes cl) = false → (s.img r.who.core r.who.ctx).cuts = [] →
      exec (.matrixRequestStart cl) s = .next (s.setCluster cl { c with mreqs := { r with running := true } :: rs })) ∧
    (r.op.usesFmt = true → c.bubble = true → (∃ x, c.lastFmt = some x ∧ x ≠ r.fmt) → exec (.matrixRequestStart cl) s = .next s) ∧
    (r.running = true → (∀ t row col n, r.op = .read t row col n → n = 0) →
      let u := s.runRequest cl r
      exec (.matrixRequestEnd cl) s = .next (u.setCluster cl { u.cluster cl with
        mreqs := rs, lastFmt := if r.op.usesFmt = true then some r.fmt else (u.cluster cl).lastFmt,
        bubble := (u.cluster cl).bubble || r.op.usesFmt })) ∧
    (c.bubble = true → (∀ x ∈ c.mreqs, x.running = false) →
      exec (.formatBubbleEnd cl) s = .next (s.setCluster cl { c with bubble := false }))

/-- R302, R305, R307, R151 to R154, R143: the effects at the end: `accz` zeroes its tile; a product adds to every element of its tile the
groups of its row of A and its column of B, and merges its flags; no other tile and no scratchpad byte changes. -/
def Claims.MatrixEffects : Prop :=
  ∀ (s : State) (cl : Nat) (r : MReq), Inv s →
    (∀ t, r.op = .zero t → t < 16 →
      let u := s.runRequest cl r
      (∀ i, i < 0x4000 → u.byte (accPlace cl (t * 0x4000) + i) = 0) ∧
      (∀ a, a < accPlace cl (t * 0x4000) ∨ accPlace cl ((t + 1) * 0x4000) ≤ a → u.byte a = s.byte a) ∧ u.imgs = s.imgs) ∧
    (∀ c a src b k, r.op = .product c a src b k → c < 16 →
      let u := s.runRequest cl r
      (∀ i j, i < 64 → j < 64 →
        let row := match a with
          | some h => s.operandRow cl h k i
          | none => (s.convRow cl src i k r.fmt).1
        (u.tileRow cl c i).getD j 0 = (elemSum (fmtA r.fmt) (fmtB r.fmt) ((s.tileRow cl c i).getD j 0) row (s.operandRow cl b k j)).1 % 2 ^ 32) ∧
      (∀ x, x < accPlace cl (c * 0x4000) ∨ accPlace cl ((c + 1) * 0x4000) ≤ x → u.byte x = s.byte x) ∧
      (∀ core ctx, imgKey core ctx ≠ imgKey r.who.core r.who.ctx → u.img core ctx = s.img core ctx) ∧
      ∃ fl, (u.img r.who.core r.who.ctx) = { s.img r.who.core r.who.ctx with fstatus := (s.img r.who.core r.who.ctx).fstatus ||| fl })

/-- R306, R286: one dword of an `accrd` enters q0, the elements of a pair of columns, in row order; a full q0 holds it back; what a stop cut
short is delivered first, with the values that it had at the stop (deduced, log 47), at the lowest core that has such. -/
def Claims.TileReads : Prop :=
  ∀ (s : State) (cl : Nat) (r : MReq) (rs : List MReq) (t row col n : Nat),
    let c := s.cluster cl
    let i := s.img r.who.core r.who.ctx
    let e := s.tileRow cl t row
    let v : DWord := (BitVec.ofNat 32 (e.getD (2 * col + 1) 0)) ++ (BitVec.ofNat 32 (e.getD (2 * col) 0))
    (c.mreqs = r :: rs → r.op = .read t row col n → r.running = true → n ≠ 0 → col < 32 →
      (∀ k ctx, k < 8 → s.issuing (coreAt cl k) = some ctx → (s.img (coreAt cl k) ctx).cuts = []) →
      (i.q0.length < 16 → exec (.accrdDeliver cl) s = .next
        ((s.setCluster cl { c with mreqs := { r with op := if col = 31 then .read t (row + 1) 0 (n - 1) else .read t row (col + 1) n } :: rs }).setImg
          r.who.core r.who.ctx { i with q0 := i.q0 ++ [v] })) ∧
      (16 ≤ i.q0.length → exec (.accrdDeliver cl) s = .next s)) ∧
    (∀ k ctx x rest d ds, k < 8 → (∀ k' ctx', k' < k → s.issuing (coreAt cl k') = some ctx' → (s.img (coreAt cl k') ctx').cuts = []) →
      s.issuing (coreAt cl k) = some ctx →
      let j := s.img (coreAt cl k) ctx
      j.cuts = x :: rest → x.dws = some (d :: ds) → j.q0.length < 16 →
      ∃ cuts, exec (.accrdDeliver cl) s = .next (s.setImg (coreAt cl k) ctx { j with q0 := j.q0 ++ [d], cuts := cuts }) ∧
        (ds = [] → cuts = rest) ∧ (ds ≠ [] → ∃ y, cuts = y :: rest ∧ y.dws = some ds ∧ y.tile = x.tile))

/-- R296, R297: `hld` reads a handle of its own context, and one that is bound to another is an HCTX fault; `hst` stores the 64 bytes of a
handle; both are aligned to 64. `hset` and `hget` write and read a dword, and the region of a handle only narrows. -/
def Claims.HandleRegisters : Prop :=
  ∀ (s : State) (hn idx : BitVec 3) (rd : Reg) (rb : Src) (m : MemOp) (sc : Scope) (md : StMode),
    let a := effAddr s m 64
    let h := s.view.h[hn.toNat]
    (Alone s (.hld hn m sc) → (∀ x ∈ m.srcs, XIn s x) →
      (a.toNat % 64 ≠ 0 → exec (.hld hn m sc) s = .next (s.stopUnit s.unit.wh (.trap .align a 64))) ∧
      (a.toNat % 64 = 0 →
        (∀ e, s.resolve s.unit.core s.unit.ctx .hload a 64 = .error e → exec (.hld hn m sc) s = .next (s.stopUnit s.unit.wh (e.stop 10))) ∧
        (∀ u t, s.resolve s.unit.core s.unit.ctx .hload a 64 = .ok (u, t) →
          let w := underScope u sc
          let v : HWord := BitVec.ofNat 512 (w.readNum s.who t 64)
          (t.ownSpad s.unit.core = true → s.readHeld s.who s.fresh t 64 = false →
            ((hdw v 0).extractLsb' 52 12 = BitVec.ofNat 12 s.unit.ctx → s.unit.ctx < 4096 → (hdw v 0).extractLsb' 36 16 = (s.ctx s.unit.ctx).gen →
              exec (.hld hn m sc) s = .next (s.commit ((w.hasRead s.who s.fresh t 64 (inEffect u sc)).setMe { w.me with h := w.me.h.set hn.toNat v }) .fall)) ∧
            ((hdw v 0).extractLsb' 36 16 ≠ (s.ctx s.unit.ctx).gen →
              exec (.hld hn m sc) s = .next (s.stopUnit s.unit.wh (.trap .hctx 0 (hn.setWidth 64 + (hdw v 0) >>> 32 <<< 32))))) ∧
          (t.ownSpad s.unit.core = false → SlotFree s →
            exec (.hld hn m sc) s = .next (s.commit (w.swapOut (.h hn) (.load t 64 false) none a (inEffect u sc)) .fall))))) ∧
    (Alone s (.hst m hn sc md) → (∀ x ∈ m.srcs, XIn s x) →
      (a.toNat % 64 ≠ 0 → exec (.hst m hn sc md) s = .next (s.stopUnit s.unit.wh (.trap .align a 64))) ∧
      (a.toNat % 64 = 0 → ∀ u t, s.resolve s.unit.core s.unit.ctx .hstore a 64 = .ok (u, t) →
        exec (.hst m hn sc md) s = .next (s.commit ((underScope u sc).issueStore t
          (.bytes ((List.range 64).map (byteOf h.toNat))) md (inEffect u sc) a) .fall))) ∧
    (Alone s (.hset hn idx rb) → XIn s rb →
      let v := s.xVal rb.r
      let old := hdw h idx.toNat
      (idx = 3 → v.toNat < old.toNat → exec (.hset hn idx rb) s = .next (s.stopUnit s.unit.wh (.trap .hregion v (hn.setWidth 64)))) ∧
      (idx = 4 → old.toNat < v.toNat → exec (.hset hn idx rb) s = .next (s.stopUnit s.unit.wh (.trap .hregion old (hn.setWidth 64)))) ∧
      ((idx = 3 → old.toNat ≤ v.toNat) → (idx = 4 → v.toNat ≤ old.toNat) → ∃ new : HWord,
        exec (.hset hn idx rb) s = .next (s.commit (s.setMe { s.me with h := s.me.h.set hn.toNat new }) .fall) ∧
        (∀ k, k < 8 → hdw new k = if k = idx.toNat then (if k = 0 then old &&& 0xFFFFFFF000000000 ||| v &&& 0xFFFFFFFFF else v) else hdw h k))) ∧
    (Alone s (.hget rd hn idx) → XOut s rd → exec (.hget rd hn idx) s = .next (s.commit (s.writeX rd (hdw h idx.toNat)) .fall))

/-- R298, R410: a gather through a valid handle that fits its registers: every lane that the mask names and whose element exists is checked
first; its lanes take the elements, or zero where there is none, and the others stand; from outside the scratchpad it is a round trip. -/
def Claims.Gathers : Prop :=
  ∀ (s u t : State) (rd : Reg) (hs : BitVec 3) (rb : Src) (m : BitVec 3) (cnt : Nat) (ts : List (Nat × Target × DWord)),
    let h := s.view.h[hs.toNat]
    let v := hview h
    let w := v.etype.width
    let idx := s.view.v[rb.r.toNat]
    let ls := gathered w (s.kmask m)
    let i := Instr.hgat rd hs rb m
    Alone s i → s.me.boundTo rd = none → s.me.boundTo rb.r = none → s.view.vfull.getLsbD rb.r.toNat = true →
    (s.view.vfull.getLsbD rd.toNat = true ∨ s.awaitsV s.unit.core s.unit.ctx rd = false) →
    (handleValid h = false ∨ v.etype = .f4 → exec i s = .next (s.stopUnit s.unit.wh (.trap .hfmt 0 (hs.setWidth 64)))) ∧
    (handleValid h = true → v.etype ≠ .f4 → s.handleCount h hs.toNat = .ok (u, cnt) → u.laneChecks v hs.toNat cnt .gather idx.toNat ls = .ok (t, ts) →
      ts.map Prod.fst = ls.filter (fun i => decide ((laneOf 32 idx i).toNat < cnt)) ∧
      ((∀ x ∈ ts, x.2.1.ownSpad s.unit.core = true) → (∀ x ∈ ts, s.readHeld s.who s.fresh x.2.1 (w / 8) = false) →
        ∃ val : VWord,
          (∀ k, k < 256 / w → laneOf w val k = if k ∈ ls then
              ((ts.find? fun x => x.1 == k).map fun x => BitVec.ofNat w (s.readNum s.who x.2.1 (w / 8))).getD 0
            else laneOf w t.me.v[rd.toNat] k) ∧
          exec i s = .next (s.commit (t.setMe { t.me with
            v := t.me.v.set rd.toNat val, vfull := t.me.vfull ||| ((1 : Word) <<< rd.toNat) }) .fall)) ∧
      ((∃ x ∈ ts, x.2.1.ownSpad s.unit.core = false) → SlotFree s → ∃ lanes dva,
        exec i s = .next (s.commit (t.swapOut (.v rd lanes none) (.gather (ts.map fun x => (x.1, x.2.1)) (w / 8)) none dva) .fall) ∧
        ∀ b, b < 32 → lanes.getLsbD b = decide (b / (w / 8) ∈ ls))) ∧
    (∀ x, handleValid h = true → v.etype ≠ .f4 → s.handleCount h hs.toNat = .ok (u, cnt) →
      u.laneChecks v hs.toNat cnt .gather idx.toNat ls = .error x → exec i s = .next ((if x.isGuard then s.keepMarks u else s).stopUnit s.unit.wh x))

/-- R299, R410: a scatter issues a store, or an atomic access, for each lane that the mask names and whose element exists, in ascending
order, once the checks of all have passed; an atomic scatter needs a format that has atomic access, and its lanes are `.ga` stores. -/
def Claims.Scatters : Prop :=
  ∀ (s u t : State) (op : ScatOp) (hd : BitVec 3) (ra rb : Src) (m : BitVec 3) (cnt : Nat) (ts : List (Nat × Target × DWord)),
    let h := s.view.h[hd.toNat]
    let v := hview h
    let w := v.etype.width
    let data := s.view.v[ra.r.toNat]
    let idx := s.view.v[rb.r.toNat]
    let ls := gathered w (s.kmask m)
    let i := Instr.hsca op hd ra rb m
    let bad := handleValid h = false ∨ v.etype = .f4 ∨ (op ≠ .plain ∧ v.etype ∉ [Fmt.f32, .f64, .s32, .s64, .n32, .n64])
    Alone s i → s.me.boundTo ra.r = none → s.me.boundTo rb.r = none → s.view.vfull.getLsbD ra.r.toNat = true →
    s.view.vfull.getLsbD rb.r.toNat = true →
    (bad → exec i s = .next (s.stopUnit s.unit.wh (.trap .hfmt 0 (hd.setWidth 64)))) ∧
    (¬ bad → s.handleCount h hd.toNat = .ok (u, cnt) →
      (u.laneChecks v hd.toNat cnt (if op = .plain then .scatter else .scatterAmo) idx.toNat ls = .ok (t, ts) →
        ts.map Prod.fst = ls.filter (fun i => decide ((laneOf 32 idx i).toNat < cnt)) ∧
        exec i s = .next (s.commit (ts.foldl (fun st x => st.issueStore x.2.1
            (if op = .plain then .bytes ((List.range (w / 8)).map (byteOf (laneOf w data x.1).toNat))
             else .scat op v.etype (BitVec.ofNat 64 (laneOf w data x.1).toNat) t.fresh x.1 (BitVec.ofNat 8 (ts.foldl (fun m y => m + 2 ^ y.1) 0)))
            (if op = .plain then .ef else .ga) none x.2.2)
          { t with fresh := t.fresh + 1 }) .fall)) ∧
      (∀ x, u.laneChecks v hd.toNat cnt (if op = .plain then .scatter else .scatterAmo) idx.toNat ls = .error x →
        exec i s = .next ((if x.isGuard then s.keepMarks u else s).stopUnit s.unit.wh x)))

/-- R309 to R314, R123, R125, R64: a copy of no bytes completes its tokens; one whose guards pass is submitted to its engine, which owns its
destination lines, with its tokens pending and the registers that it covers empty; the two waits of a copy leave it at its unit. That the
wait on tokens names both of them is the model's choice (log 94). -/
def Claims.CopyIssue : Prop :=
  ∀ (s s1 s2 : State) (form : CopyForm) (rd : Reg) (ra rb : Src) (sc : Scope) (sp dp : List (Nat × Nat × Target))
    (h1 h2 : List (Nat × Nat × DWord)),
    let i := copyInstr form rd ra rb sc
    let d := s.xVal rd
    let src := s.xVal ra.r
    let pv := s.xVal rb.r
    let p := copyParam pv
    let n := p.length
    let cl := s.unit.core / 9
    let toks := p.tokens
    let dc := (spadCluster cl d).getD 0
    let dcs := if form = .multi then (List.range (2 ^ p.order)).map fun k => dc / 2 ^ p.order * 2 ^ p.order + k else [dc]
    let pending := ∃ k, k < 8 ∧ toks.getLsbD k = true ∧ tokenOf s.myFibre k = 1
    Alone s i → XIn s ⟨rd, false⟩ → XIn s ra → XIn s rb → pv.extractLsb' 44 3 = 0 →
    (if form = .multi then 2 ^ p.order ≤ 64 * s.dies else p.order = 0) →
    (n = 0 → (¬ pending → exec i s = .next (s.commit ((s.demote s.unit.ctx sc).setMyFibre (marked s.myFibre toks 2)) .fall)) ∧
      (pending → exec i s = .next (s.setMyFibre (s.myFibre.waits 4 toks.toNat (.tokens toks))))) ∧
    (n ≠ 0 → (p.fwen = true → (form = .plain ∧ (spadCluster cl d).isSome = true) ∨ form = .multi) → oneKind src n = true → oneKind d n = true →
      form.srcOk cl src = true → form.dstOk cl d = true →
      (p.fwen = true → ∀ c ∈ dcs, ∃ x, s.fillWord s.unit.core s.unit.ctx (BitVec.ofNat 64 (2 ^ 55 + (c * 128 + 80) * 2 ^ 24 + p.fwoff)) 1 = .ok x) →
      s.rangePieces .copySrc src n (form == .xfer) 0 (n / 128 + 2) = .ok (s1, sp, h1) →
      s1.rangePieces .copyDst d n (form == .xfer) 0 (n / 128 + 2) = .ok (s2, dp, h2) →
      (form = .multi → ∀ c ∈ dcs, nodeHolds s.myCtx c = true ∧ inShare s.myCtx c (d.toNat % 2 ^ 24) n = true) →
      let outs := if form = .multi then dcs.map fun c => dp.map fun x => (x.1, x.2.1, inCluster c x.2.2) else [dp]
      let all := outs.flatten
      (∀ o ∈ outs, overlapAt sp o = none) →
      let engine := if form = .xfer then none else some cl
      let room := s.copiesAt engine < (if form = .xfer then 256 else 16) ∧ s.copyMustWait (sp ++ all) = false
      (pending → exec i s = .next (s.setMyFibre (s.myFibre.waits 4 toks.toNat (.tokens toks)))) ∧
      (¬ pending → ¬ room → exec i s = .next s) ∧
      (¬ pending → room →
        let held := firstOfEach (h1 ++ h2)
        let c : Copy := {
          who := s.who, cl := engine, scope := s.capped s.unit.ctx sc,
          lines := all.map fun x => { src := cutSource sp x.1 (x.1 + x.2.1), dst := x.2.2, len := x.2.1, off := x.1 },
          rtok := if p.ren then some p.rtok else none, vtok := if p.ven then some p.vtok else none,
          fill := if p.fwen then some p.fwoff else none, held := held, dva := d, sva := src,
          adm := s2.lookups }
        let u := held.foldl (fun st h => st.setHost h.1 { st.host h.1 with
            asking := (st.host h.1).asking ++ [{ who := s.who, page := h.2.1, copy := some s2.fresh }] })
          ((s2.demote s.unit.ctx sc).emptyRegs s.unit.ctx (coveredRegs dp))
        exec i s = .next (s.commit { u.setMyFibre (marked u.myFibre toks 1) with
          copies := tset u.copies s2.fresh c, fresh := s2.fresh + 1 } .fall)))

/-- R310 to R312, R443: what the guards of a copy refuse: reserved bits, orders and fill words that the form does not allow, ranges of more than
one kind or window, kinds that the form may not use, destinations of `copym` outside the node or the share, and a source that overlaps its
destination, in the order of R440 (deduced, log 42); what the translations before a refusal have marked stays (R82). -/
def Claims.CopyGuards : Prop :=
  ∀ (s : State) (form : CopyForm) (rd : Reg) (ra rb : Src) (sc : Scope),
    let i := copyInstr form rd ra rb sc
    let d := s.xVal rd
    let src := s.xVal ra.r
    let pv := s.xVal rb.r
    let p := copyParam pv
    let n := p.length
    let cl := s.unit.core / 9
    let stops (c : Cls) (a x : DWord) : Prop := exec i s = .next (s.stopUnit s.unit.wh (.trap c a x))
    let stopsAfter (q : State) (x : Stop) : Prop := exec i s = .next ((s.keepMarks q).stopUnit s.unit.wh x)
    let params := pv.extractLsb' 44 3 = 0 ∧ (if form = .multi then 2 ^ p.order ≤ 64 * s.dies else p.order = 0)
    let fill := p.fwen = true → (form = .plain ∧ (spadCluster cl d).isSome = true) ∨ form = .multi
    Alone s i → XIn s ⟨rd, false⟩ → XIn s ra → XIn s rb →
    (¬ params → stops .copyarg d pv) ∧
    (params → n ≠ 0 → ¬ fill → stops .copyarg d pv) ∧
    (params → n ≠ 0 → fill → oneKind src n = false ∨ oneKind d n = false → stops .copyarg d pv) ∧
    (params → n ≠ 0 → fill → oneKind src n = true → oneKind d n = true →
      (form.srcOk cl src = false → stops .kind src 5) ∧
      (form.srcOk cl src = true →
        (∀ e, s.rangePieces .copySrc src n (form == .xfer) 0 (n / 128 + 2) = .error e → exec i s = .next (s.stopUnit s.unit.wh (e.stop 8))) ∧
        (∀ s1 sp h1, s.rangePieces .copySrc src n (form == .xfer) 0 (n / 128 + 2) = .ok (s1, sp, h1) →
          (form.dstOk cl d = false → stopsAfter s1 (.trap .kind d 5)) ∧
          (form.dstOk cl d = true →
            (∀ e, s1.rangePieces .copyDst d n (form == .xfer) 0 (n / 128 + 2) = .error e → stopsAfter s1 (e.stop 9)) ∧
            (∀ s2 dp h2, s1.rangePieces .copyDst d n (form == .xfer) 0 (n / 128 + 2) = .ok (s2, dp, h2) →
              let off := d.toNat % 2 ^ 24
              let dc := (spadCluster cl d).getD 0
              let dcs := (List.range (2 ^ p.order)).map fun k => dc / 2 ^ p.order * 2 ^ p.order + k
              (∀ c o, form = .multi → copymBad s.myCtx dcs off n = some (c, o) → stopsAfter s2 (.trap .window (spadAddr c o) (3 + 10 * 256))) ∧
              (∀ o, form ≠ .multi → p.fwen = false → overlapAt sp dp = some o → stopsAfter s2 (.trap .overlap (d + BitVec.ofNat 64 o) 0)) ∧
              (∀ e, form = .plain → p.fwen = true → s.fillWord s.unit.core s.unit.ctx (spadAddr dc p.fwoff) 1 = .error e →
                stopsAfter s2 (e.stop 9)) ∧
              (∀ before c after o, form = .multi → p.fwen = false → copymBad s.myCtx dcs off n = none → dcs = before ++ c :: after →
                (∀ b ∈ before, overlapAt sp (dp.map fun x => (x.1, x.2.1, inCluster b x.2.2)) = none) →
                overlapAt sp (dp.map fun x => (x.1, x.2.1, inCluster c x.2.2)) = some o →
                stopsAfter s2 (.trap .overlap (if spadCluster cl d = some c then d + BitVec.ofNat 64 o else spadAddr c (off + o)) 0)))))))

/-- R123, R124, R127, R312: an engine starts its copies in the order of acceptance; a line is written, its bytes and no others, once nothing that
comes before it owns what it reads or writes, and is counted into the fill word; what stands in its lines under another key does not read as it was (R346); a line for a peer leaves on its port, and a peer that no link reaches is a PEER fault. When a line may go
on is deduced (log 56, 77). -/
def Claims.CopyLines : Prop :=
  ∀ (s : State) (id k : Nat) (c : Copy) (l : CLine), tget s.copies id = some c →
    (c.started = false → (∀ q ∈ s.copies, q.1 < id → q.2.cl = c.cl → q.2.started = true) →
      exec (.copyEngineStart id) s = .next { s with copies := tset s.copies id { c with started := true } }) ∧
    (c.started = true → c.lines[k]? = some l → l.done = false → c.holds l = false → s.barsKept c.who id = true →
      s.lineOwned id l.dst l.len = false → s.matrixHolds c.who id l.dst l.len true = false →
      (l.buf = none → ∀ x ∈ l.src, s.lineOwned id x.1 x.2 = false ∧ s.fillPending x.1 x.2 = false) →
      (∀ t ∈ l.dst :: l.src.map Prod.fst, s.refusedAt c.who.ctx (c.cl.map fun cl => cl / 64) t = false) →
      let bs := l.buf.getD (s.sourceBytes c l.src)
      let c' := { c with lines := (shareRead c.lines l.src bs).set k { l with buf := none, done := true } }
      let t := { l.src.foldl (fun q x => q.noteRead c.who id x.1 x.2) s with copies := tset s.copies id c' }
      ((∀ q o, l.dst ≠ .peer q o) →
        let u := t.writeLine c l bs
        exec (.copyLineWrite id k) s = .next u ∧
        (Inv s → ∀ a, l.dst = .mem a → isHomed a = true →
          (∀ j, (h : j < bs.length) → u.byte (a + j) = bs[j]) ∧ (∀ b, b < a ∨ a + bs.length ≤ b → u.byte b = (s.rekey c.who.ctx a bs.length).byte b) ∧ u.imgs = s.imgs) ∧
        (∀ a cl off o, l.dst = .mem a → spadOf a = some (cl, off) → c.fill = some o →
          u = ((t.wakeFor l.dst).writeTarget c.who.ctx l.dst bs).countFill c.who.ctx cl o l.len 0)) ∧
      (∀ q o, l.dst = .peer q o → ∀ port, s.peerPort q (o / 4096) = some port →
        exec (.copyLineWrite id k) s = .next ({ t with copies := tset t.copies id { c' with
          lines := c'.lines.set k { l with buf := none, done := true, port := some port } } }.sendFlit (some (.port port)) id)) ∧
      (∀ q o, l.dst = .peer q o → s.peerPort q (o / 4096) = none → c.peerFault = none →
        exec (.copyLineWrite id k) s = .next ({ s with copies := tset s.copies id { c' with
          lines := c'.lines.set k { l with buf := none, done := true, acked := true }, peerFault := some 1 } }.peerCopyFault
            { c with dva := l.dst.peerDva } 1)))

/-- R125, R313, R206: a copy is released when every byte of its source has been read, and visible when its lines have been performed at its
scope; each
event completes its token, and a token that both use completes at the later; a copy that has had both, and whose pushes to peers have been answered, ends (R453). -/
def Claims.CopyEvents : Prop :=
  ∀ (s : State) (id : Nat) (c : Copy) (f : Fibre), tget s.copies id = some c → tsorted s.copies = true → c.started = true → s.who? c.who = some f →
    let ends (i : Instr) (c' : Copy) (tok other : Option (BitVec 3)) (otherHad : Bool) : Prop :=
      ∃ u g, exec i s = .next u ∧ tget u.copies id =
          (if c'.released = true ∧ c'.visible = true ∧ c'.lines.all (fun l => !l.dst.isPeer || l.acked) = true then none else some c') ∧
        let i := s.img c.who.core c.who.ctx
        let j := u.img c.who.core c.who.ctx
        j = { i with rq := j.rq } ∧ j.fibre c.who.entry = g ∧ (∀ e, e ≠ c.who.entry → j.fibre e = i.fibre e) ∧
        (∀ k, k < 8 → tokenOf g k =
          if tok = some (BitVec.ofNat 3 k) ∧ tokenOf f k = 1 ∧ (other = tok → otherHad = true) then 2 else tokenOf f k)
    (c.released = false → (∀ l ∈ c.lines, l.done = true ∨ l.buf ≠ none) →
      ends (.copyReleased id) { c with released := true } c.rtok c.vtok c.visible) ∧
    (c.visible = false → (∀ l ∈ c.lines, s.lineVisible id c l = true) →
      ends (.copyVisible id) { c with visible := true } c.vtok c.rtok c.released)

/-- R212, R214, R215: the shape of the nine context instructions: the guard of a descriptor comes first; a long form waits until its token is not
pending, all wait until what their fibre did before is performed at `.pk`, and then each writes rd, with its result or with the code of its
refusal. -/
def Claims.ContextOrder : Prop :=
  ∀ (s : State) (rd : Reg) (ra rb : Src) (tk : BitVec 3), ∀ p ∈ contextRows rd ra rb tk, Alone s p.1 → (∀ a ∈ p.2.1, XIn s a) → XOut s rd →
    let t := tk.toNat
    let guard := if p.1 = .ctxnew rd ra then descGuard Desc.newBad (s.xVal ra.r) s
      else if p.1 = .ctxgrant rd ra rb then descGuard Desc.grantBad (s.xVal rb.r) s else .ok ()
    (∀ x, guard = .error (.stop x) → exec p.1 s = .next (s.stopUnit s.unit.wh x)) ∧
    (guard = .ok () → (p.2.2.1 = true → tokenOf s.myFibre t = 1 →
      exec p.1 s = .next (s.setMyFibre (s.myFibre.waits 4 (2 ^ t) (.tokens (1 <<< t))))) ∧
    ((p.2.2.1 = true → tokenOf s.myFibre t ≠ 1) → s.fenceDone s.who .pk = false →
      exec p.1 s = .next (s.setMyFibre (s.myFibre.waits 7 4 (.fence .pk)))) ∧
    ((p.2.2.1 = true → tokenOf s.myFibre t ≠ 1) → s.fenceDone s.who .pk = true →
      (∀ u v, p.2.2.2 s = .ok (u, v) → exec p.1 s = .next (s.commit (u.writeX rd v) .fall)) ∧
      (∀ n, p.2.2.2 s = .error (.code n) →
        exec p.1 s = .next (s.commit (s.writeX rd (0x8000000000000000 + BitVec.ofNat 64 n)) .fall)) ∧
      (∀ x, p.2.2.2 s = .error (.stop x) → exec p.1 s = .next (s.stopUnit s.unit.wh x))))

/-- R213, R214: a value that names no live strict descendant of the issuer is refused with 0x01 by every instruction that takes a target, and
`ctxinfo` of x0 names the issuer itself; an item that is not listed is refused with 0x08. -/
def Claims.ContextTargets : Prop :=
  ∀ (s : State) (rd : Reg) (ra rb : Src) (tk : BitVec 3), XIn s ra → XIn s rb → XOut s rd → s.fenceDone s.who .pk = true →
    tokenOf s.myFibre tk.toNat ≠ 1 →
    let v := s.xVal ra.r
    let item := s.xVal rb.r
    let n := (v.extractLsb' 0 12).toNat
    let target := s.isLive n = true ∧ (s.ctx n).gen = v.extractLsb' 16 16 ∧ s.isBelow n s.unit.ctx = true
    (¬ target → ∀ i ∈ [Instr.ctxstart rd ra, .ctxstop rd ra tk, .ctxsave rd ra rb tk, .ctxload rd ra rb tk, .ctxrevoke rd ra tk,
        .ctxinfo rd ra rb], Alone s i → (i = .ctxinfo rd ra rb → ra.r ≠ 0) →
      exec i s = .next (s.commit (s.writeX rd 0x8000000000000001) .fall)) ∧
    (Alone s (.ctxinfo rd ra rb) → (ra.r = 0 ∨ target) →
      let k := if ra.r = 0 then s.unit.ctx else n
      (∀ p ∈ infoRows s k, item = p.1 → exec (.ctxinfo rd ra rb) s = .next (s.commit (s.writeX rd p.2) .fall)) ∧
      (7 ≤ item.toNat → exec (.ctxinfo rd ra rb) s = .next (s.commit (s.writeX rd 0x8000000000000008) .fall)))

/-- R222, R214, R383: `reflect` sends the eight dwords at an address of the issuer's fault queue on, as a packet reflected once more, to the nearest
ancestor above that accepts its class; 0x09 and 0x07 refuse an address that does not hold one and a class that none accepts; the core keeps
it while the overman holds 64 (R385). That an ancestor without a fault queue is passed over is the model's choice (log 87). -/
def Claims.FaultReflection : Prop :=
  ∀ (s : State) (rd : Reg) (ra : Src), Alone s (.reflect rd ra) → XIn s ra → XOut s rd → s.fenceDone s.who .pk = true →
    let a := s.xVal ra.r
    let above := (s.upFrom s.unit.ctx).drop 1
    (a.toNat % 64 ≠ 0 ∨ s.myCtx.fq = none → exec (.reflect rd ra) s = .next (s.commit (s.writeX rd 0x8000000000000009) .fall)) ∧
    (∀ ds, s.heldPacket a = .ok ds →
      let cls := ((ds.getD 1 0).extractLsb' 30 6).toNat
      ds.length = 8 ∧
      ((∀ n ∈ above, ¬ ((s.ctx n).accept.getLsbD cls = true ∧ (s.ctx n).fq ≠ none)) →
        exec (.reflect rd ra) s = .next (s.commit (s.writeX rd 0x8000000000000007) .fall)) ∧
      (∀ n q, n ∈ above → above.find? (fun n => (s.ctx n).accept.getLsbD cls && (s.ctx n).fq.isSome) = some n → (s.ctx n).fq = some q →
        let p : Packet := {
          ctx := ds.getD 0 0, d1 := ds.getD 1 0, pc := ds.getD 2 0, d3 := ds.getD 3 0, addr := ds.getD 4 0, extra := ds.getD 5 0,
          d6 := ds.getD 6 0, refl := BitVec.ofNat 4 (min 15 (((ds.getD 7 0).extractLsb' 32 4).toNat + 1)), d7 := (ds.getD 7 0).setWidth 32 }
        let k := s.quad (s.unit.core / 144)
        exec (.reflect rd ra) s = .next (s.commit ((s.setQuad (s.unit.core / 144)
          (if k.waiting.length < 64 then { k with waiting := k.waiting ++ [(q, n, p)] } else { k with kept := k.kept ++ [(above, cls, p)] })).writeX
            rd 0) .fall)))

/-- R214, R218: `ctxstart` makes a Created or Stopped target Running, with the descendants that a stop of it took along; `ctxstop` begins the stop
of a Running target and its Running descendants, with its token pending; a state that does not allow it is refused with 0x02, and a
long operation in progress with 0x03; a descendant that a paused `ctxstop` was taking to Stopped stays there (R438). That code 0x02 comes
before 0x03 is the model's choice (log 29), as is the set that a stop takes (log 107); the form of the progress record is deduced (log 35). -/
def Claims.ContextStarts : Prop :=
  ∀ (s : State) (rd : Reg) (ra : Src) (tk : BitVec 3) (t : Nat), XIn s ra → XOut s rd → s.fenceDone s.who .pk = true →
    tokenOf s.myFibre tk.toNat ≠ 1 → s.targetOf (s.xVal ra.r) = .ok t →
    let c := s.ctx t
    let above := ((s.upFrom t).takeWhile fun n => n != s.unit.ctx).drop 1
    let may := (c.st = .created ∨ c.st = .stopped) ∧ (∀ n ∈ above, (s.ctx n).st = .running) ∧ (∀ d ∈ s.partDies t, s.dieFailed d = false)
    let free := c.busy = false
    let refuses (i : Instr) (x : DWord) : Prop := exec i s = .next (s.commit (s.writeX rd (0x8000000000000000 + x)) .fall)
    (Alone s (.ctxstart rd ra) →
      (¬ may → refuses (.ctxstart rd ra) 2) ∧ (may → ¬ free → refuses (.ctxstart rd ra) 3) ∧
      (may → free → ∃ u : State, exec (.ctxstart rd ra) s = .next (s.commit (u.writeX rd 0) .fall) ∧ (u.ctx t).st = .running ∧
        u = { s with ctxs := u.ctxs } ∧ (∀ n, n ≠ t → n ∈ s.subtree t → (s.ctx n).stoppedBy = some t →
          (u.ctx n).st = if s.stopTarget n = none then .running else (s.ctx n).st) ∧
        (∀ n, n ≠ t → n ∉ s.subtree t → u.ctx n = s.ctx n))) ∧
    (Alone s (.ctxstop rd ra tk) →
      (c.st ≠ .running → refuses (.ctxstop rd ra tk) 2) ∧ (c.st = .running → ¬ free → refuses (.ctxstop rd ra tk) 3) ∧
      (c.st = .running → free →
        exec (.ctxstop rd ra tk) s = .next (s.commit (((longAccepted s 1 tk t 0).beginStop t).writeX rd 0) .fall)))

/-- R214, R219, R220: `ctxsave` of a Stopped target, `ctxload` into a Saved one and `ctxrevoke` of any are accepted, with their token pending and
their progress recorded (its form is deduced, log 35); what does not allow the first two is refused with 0x02, 0x03 or 0x05, in this order (the model's
choice, log 29), 0x05 for an address of the image that fails its checks (deduced, log 30), and a host page of the image that does not translate yet parks the fibre. -/
def Claims.ContextImages : Prop :=
  ∀ (s : State) (rd : Reg) (ra rb : Src) (tk : BitVec 3) (t : Nat), XIn s ra → XIn s rb → XOut s rd → s.fenceDone s.who .pk = true →
    tokenOf s.myFibre tk.toNat ≠ 1 → s.targetOf (s.xVal ra.r) = .ok t →
    let a := s.xVal rb.r
    let free := (s.ctx t).busy = false
    (∀ p ∈ [(Instr.ctxsave rd ra rb tk, CState.stopped, false, 2), (.ctxload rd ra rb tk, .saved, true, 3)], Alone s p.1 →
      let i := p.1
      let st := p.2.1
      let load := p.2.2.1
      let refuses (x : DWord) : Prop := exec i s = .next (s.commit (s.writeX rd (0x8000000000000000 + x)) .fall)
      ((s.ctx t).st ≠ st → refuses 2) ∧ ((s.ctx t).st = st → ¬ free → refuses 3) ∧
      ((s.ctx t).st = st → free → s.imageOk a (s.imageBlocks t) load = .error (.code 5) → refuses 5) ∧
      (∀ x, (s.ctx t).st = st → free → s.imageOk a (s.imageBlocks t) load = .error (.stop x) → exec i s = .next (s.stopUnit s.unit.wh x)) ∧
      ((s.ctx t).st = st → free → s.imageOk a (s.imageBlocks t) load = .ok () →
        exec i s = .next (s.commit ((longAccepted s p.2.2.2 tk t a).writeX rd 0) .fall))) ∧
    (Alone s (.ctxrevoke rd ra tk) →
      exec (.ctxrevoke rd ra tk) s = .next (s.commit (((longAccepted s 4 tk t 0).revokeSubtree t).writeX rd 0) .fall) ∧
      ∀ n ∈ s.subtree t, (((longAccepted s 4 tk t 0).revokeSubtree t).ctx n).st = .revoked)

/-- R437, R438, R473: a long operation goes on by one block of the issuing context, which its progress word counts, and ends with its last; one whose
target is gone ends, and one of a block that must wait, or a revocation while a store that its contexts issued is not yet performed everywhere, stands. -/
def Claims.LongOperations : Prop :=
  ∀ (s : State) (core ctx : Nat) (o : LongOp) (rest : List LongOp), s.issuing core = some ctx → (s.img core ctx).ops = o :: rest →
    let t := (o.word.extractLsb' 45 12).toNat
    let live := (s.ctx t).gen = o.word.extractLsb' 29 16 ∧ s.isBelow t ctx = true
    (¬ live → exec (.longOpBlock core) s = .next (s.completeOp core ctx o)) ∧
    let held : Prop := o.word.extractLsb' 60 3 = 4 ∧ s.purging (s.revokedBelow t) = true
    (live → held → rest = [] → exec (.longOpBlock core) s = .next s) ∧
    (live → ¬ held → (o.word.extractLsb' 60 3 = 4 ∨ s.isLive t = true) →
      (∀ u, s.opBlock core ctx o = some (u, .last) → exec (.longOpBlock core) s = .next (u.completeOp core ctx o)) ∧
      (∀ u, s.opBlock core ctx o = some (u, .more) → exec (.longOpBlock core) s = .next u) ∧
      (s.opBlock core ctx o = none → rest = [] → exec (.longOpBlock core) s = .next s) ∧
      (∀ u, s.opBlock core ctx o = some (u, .done) → exec (.longOpBlock core) s = .next (u.setImg core ctx { u.img core ctx with
        ops := (u.img core ctx).ops.map fun x => if x = o then { x with word := x.word + 1 } else x })))

/-- R216, R44, R45, R212, R340: `ctxnew` answers the identity of the child that it makes: the lowest free number, Created, one deeper than the
issuer, with a node, a priority, a scope cap and a deadline that are no more than the issuer's and a share within the issuer's. A reserved field
of the descriptor that is not zero is a CTXFMT fault. The order of the checks, what a reserved field is, and the generation of a queue ID never
used are the model's choices and readings (log 28, 29, 31, 32, 34). -/
def Claims.ContextCreation : Prop :=
  ∀ (s s1 : State) (rd : Reg) (ra : Src) (x : Desc), Alone s (.ctxnew rd ra) → XIn s ra → XOut s rd → s.fenceDone s.who .pk = true →
    s.readDesc (s.xVal ra.r) = .ok (s1, x) →
    (x.newBad = true → exec (.ctxnew rd ra) s = .next ((s.keepMarks s1).stopUnit s.unit.wh (.trap .ctxfmt (s.xVal ra.r) 0))) ∧
    (x.newBad = false →
      (∀ n c s2 mpa gone s3 table gone2 s4 rights s5 s6 s7 s8 s9, s1.newNumber x = .ok n → s1.childOf x = .ok c → x.ranges.length ≤ 48 →
        s1.takeSave x c = .ok (s2, mpa, gone) → s2.newTable x c = .ok (s3, table, gone2) → s3.newRights x = .ok (s4, rights) →
        s4.newBudget x = .ok s5 →
        let c' := { c with
          gen := ((tget s1.gens n).map (· + 1)).getD 0, budget := if x.ovr 6 then x.h 2 else unmetered, svarea := BitVec.ofNat 53 mpa,
          ranges := table, rights := rights, removed := gone ++ gone2 }
        { s5.setCtx n c' with gens := tset s5.gens n c'.gen }.launchQueue x n = .ok s6 → s6.dirtyRing x n = .ok s7 →
        s7.applyCaps n x.caps = .ok s8 → s8.faultQueue x n = .ok s9 →
        exec (.ctxnew rd ra) s = .next (s.commit ((if x.part then s9.fitNode c' else s9).writeX rd (s9.ctxid n)) .fall)) ∧
      (∀ n, s1.newNumber x = .ok n → n < 4096 ∧ tget s1.ctxs n = none ∧ (∀ m, m < n → tget s1.ctxs m ≠ none) ∧ s1.myCtx.depth < 7) ∧
      (∀ c, s1.childOf x = .ok c →
        let p := s1.myCtx
        c.st = .created ∧ c.parent = some (s1.unit.ctx, p.gen) ∧ c.depth = p.depth + 1 ∧ c.prio.toNat ≤ p.prio.toNat ∧
        1 ≤ c.scap.toNat ∧ c.scap.toNat ≤ p.scap.toNat ∧ c.deadline.toNat ≤ p.deadline.toNat ∧ c.order.toNat ≤ p.order.toNat ∧
        c.base.toNat % 2 ^ c.order.toNat = 0 ∧ p.base.toNat ≤ c.base.toNat ∧
        c.base.toNat + 2 ^ c.order.toNat ≤ p.base.toNat + 2 ^ p.order.toNat ∧
        (shareOf p).1 ≤ (shareOf c).1 ∧ (shareOf c).2 ≤ (shareOf p).2))

/-- R217, R212, R214: `ctxgrant` gives the items of its descriptor to a target that is Created, Running or Stopped, and to every context on the
path to it; a Saved target is refused with 0x02, a busy one with 0x03, and a nonzero field that a grant does not use is a CTXFMT fault. How
the budget is drawn is deduced (log 33). -/
def Claims.ContextGrants : Prop :=
  ∀ (s s1 : State) (rd : Reg) (ra rb : Src) (t : Nat) (x : Desc), Alone s (.ctxgrant rd ra rb) → XIn s ra → XIn s rb → XOut s rd →
    s.fenceDone s.who .pk = true → s.readDesc (s.xVal rb.r) = .ok (s1, x) →
    let c := s.ctx t
    let free := s.opBusy t = false
    (x.grantBad = true → exec (.ctxgrant rd ra rb) s = .next ((s.keepMarks s1).stopUnit s.unit.wh (.trap .ctxfmt (s.xVal rb.r) 0))) ∧
    (x.grantBad = false → s.targetOf (s.xVal ra.r) = .ok t →
      (c.st = .saved → exec (.ctxgrant rd ra rb) s = .next (s.commit (s.writeX rd 0x8000000000000002) .fall)) ∧
      (c.st ≠ .saved → ¬ free → exec (.ctxgrant rd ra rb) s = .next (s.commit (s.writeX rd 0x8000000000000003) .fall)) ∧
      (c.st ≠ .saved → free → x.ranges.length ≤ 48 → (∀ d ∈ s1.partDies t, s1.dieFailed d = false) →
        ∀ out s2 s3 s4 s5,
          (if x.ranges = [] then Except.ok [] else compose s1.myCtx.ranges false (channelSet s1.myCtx).length x.ranges) = .ok out →
          s1.grantRanges (s1.path t) out = .ok s2 → s2.grantRights x (s2.path t) = .ok s3 → s3.grantBudget x t = .ok s4 →
          s4.applyCaps t x.caps = .ok s5 →
          exec (.ctxgrant rd ra rb) s = .next (s.commit (s5.writeX rd 0) .fall)))

/-- R320 to R324, R392: a dispatcher reads the heads of the launch queues, and places the first record that can be placed, those of
higher priority first, on the first of its candidate nodes whose cores are all free or may be taken; its hold, once given up, goes to the oldest waiting record
of the highest priority. When the heads are read, which cores may be taken and who holds are deduced (log 19, 20, 57, 81); the order of the waiting status
writes is the model's (log 112). -/
def Claims.Dispatchers : Prop :=
  ∀ (s : State) (quad : Nat),
    let t := (s.putLate quad).readAll
    let ws := t.waitingHeads quad
    (s.dispatches quad = false → exec (.dispatcherStep quad) s = .next s) ∧
    (s.dispatches quad = true →
      let u := ((if (t.quad quad).hold = none then t else t.giveHold quad ws).placeFirst ws).1
      exec (.dispatcherStep quad) s = .next ((u.giveHold quad (u.waitingHeads quad)).yieldAll quad)) ∧
    (∀ p ∈ ws, (t.quad quad).hold = none → (∀ x ∈ ws, x.2.seq < 2 ^ 64) →
      (∀ x ∈ ws, x = p ∨ (t.ctx x.2.ctx).prio.toNat < (t.ctx p.2.ctx).prio.toNat ∨
        ((t.ctx x.2.ctx).prio = (t.ctx p.2.ctx).prio ∧ p.2.seq < x.2.seq)) → ((t.giveHold quad ws).quad quad).hold = some p.1) ∧
    (ws.Pairwise fun p q => (t.ctx q.2.ctx).prio.toNat ≤ (t.ctx p.2.ctx).prio.toNat) ∧
    (∀ p ∈ ws, p.2.quad = quad ∧ p.2.placed = none ∧ (t.ctx p.2.ctx).st = .running) ∧
    (∀ id l b, l.order < 8 →
      (candidates (s.ctx l.ctx) l.order (s.targetCluster l.ctx l.place * 8) l.wide).find?
        (fun b => (nodeCores l.order b).all fun k => s.coreFor id l k != .busy) = some b →
      ∃ u, s.tryPlace id l = (u, true) ∧ tget u.launches id = some { l with placed := some b } ∧
        ∀ k ∈ nodeCores l.order b, (u.core k).reserved = some id)

/-- R325, R54, R55: a placed crew starts at a tick boundary, on every core of its node in one step, once its context is resident and entry 0 free on all of them, and
each member begins with the state of R55; until then none starts. -/
def Claims.CrewStarts : Prop :=
  ∀ (s : State) (id base : Nat) (l : Launch), tget s.launches id = some l → l.placed = some base → l.started = false → l.ctx < 4096 →
    let core (j : Nat) : Nat := (base + j) / 8 * 9 + (base + j) % 8
    (s.edge = false ∨ s.crewReady l base = false → exec (.crewStart id) s = .next s) ∧
    (s.edge = true → s.crewReady l base = true → ∃ u, exec (.crewStart id) s = .next u ∧ ∀ j, j < 2 ^ l.order →
      let i := u.img (core j) l.ctx
      (∃ uid, i.fibre 0 = { pc := l.entry, st := .ready, level := l.level, uid := uid, crew := some id }) ∧
      (∀ r, (h : r < 32) → i.x[r] =
        if r = 1 then BitVec.ofNat 64 j else if r = 2 then BitVec.ofNat 64 (2 ^ l.order) else if r = 3 ∨ r = 28 then l.arg else 0) ∧
      i.xfull = 0xFFFFFFFF ∧ i.vfull = 0xFFFFFFFF ∧ i.v = Vector.replicate 32 0 ∧ i.k = Vector.replicate 8 0 ∧ i.h = Vector.replicate 8 0 ∧
      i.lc = #v[0, 0] ∧ (∀ k, (h : k < 4) → i.streams[k].bind = 0) ∧ i.fmt = 0x7F3330 ∧ i.fctl = 0 ∧ i.fstatus = 0)

/-- R329, R72, R77: a slice that has run its length asks for a pre-emption where a context of equal priority contends, and begins anew where none
does; a deadline that has come stops the context; a context that is next becomes resident, and its slice begins. Which cores it takes is
deduced (log 22). -/
def Claims.Residency : Prop :=
  ∀ (s : State) (cl ctx : Nat),
    let k := s.cluster cl
    let c := s.ctx ctx
    (∀ t, tget k.slices ctx = some t → c.slice ≠ 0 → t + c.slice.toNat ≤ s.tick → s.residentOn cl ctx ≠ [] → s.preempting cl ctx = false →
      let rival := ∃ core ∈ s.cageCores c cl, ∃ m ∈ s.contenders core, m ≠ ctx ∧ (s.ctx m).prio = c.prio
      (rival → exec (.timeSliceExpiry cl ctx) s =
        .next ((s.setCluster cl { k with slices := tdel k.slices ctx }).requestPre cl ctx false)) ∧
      (¬ rival → exec (.timeSliceExpiry cl ctx) s = .next (s.setCluster cl { k with slices := tset k.slices ctx s.tick }))) ∧
    (c.slice = 0 → exec (.timeSliceExpiry cl ctx) s = .next s) ∧
    (∀ t, s.preTick cl ctx = some t → s.closingOn cl ctx = false →
      (t + c.deadline.toNat ≤ s.tick → exec (.checkpointDeadlineExpiry cl ctx) s = .next (s.setCluster cl { k with
        closing := k.closing ++ [{ ctx := ctx, cause := 2, table := 0 }] })) ∧
      (s.tick < t + c.deadline.toNat → exec (.checkpointDeadlineExpiry cl ctx) s = .next s)) ∧
    (s.takeable cl ctx ≠ [] → s.closingOn cl ctx = false →
      ∃ u, exec (.contextResume cl ctx) s = .next u ∧ (∀ n ∈ s.takeable cl ctx, (u.core n).res = some ctx) ∧
        (tget k.slices ctx = none → tget (u.cluster cl).slices ctx = some s.tick)) ∧
    (s.takeable cl ctx = [] → exec (.contextResume cl ctx) s = .next s)

/-- R10, R40, R175, R330, R344, R481: a tick passes once what must come about within it has: TICK rises by one, each die's clock goes on by
60 − 3 × level fifths of a period, or as far as CYCLE has shown, a die above level 0 counts the tick, each resident context is charged, and a core that
something calls gets its wake time; nothing else changes. What must come about, and which contexts are charged, are the model's (log 84, 21). -/
def Claims.TimeBase : Prop :=
  ∀ (s : State),
    (s.tickHeld = true → exec .timeBaseTick s = .next s) ∧
    (s.tickHeld = false → ∃ u, exec .timeBaseTick s = .next u ∧ u.tick = s.tick + 1 ∧
      (∀ d, d < s.dies → u.dieOf d = { s.dieOf d with
        cyc := (s.dieOf d).cyc + max (60 - 3 * (s.dieOf d).level.toNat) (s.dieOf d).phase, phase := 0,
        thtick := if (s.dieOf d).level = 0 then (s.dieOf d).thtick else (s.dieOf d).thtick + 1 }) ∧
      (∀ k, u.core k = if s.called k = true ∧ (s.core k).wakeBy = none then { s.core k with wakeBy := some (s.tick + s.wakeTicks k) } else s.core k) ∧
      u = { s with tick := u.tick, die := u.die, ctxs := u.ctxs, cores := u.cores, edge := true } ∧
      (∀ n, (u.ctx n) = { s.ctx n with thr := (u.ctx n).thr, budget := (u.ctx n).budget })) ∧
    (∀ core ctx m, s.charged ctx = some m → (s.dieOf (core / 576)).level = 0 → (s.dieOf (core / 576)).cyc % 5 = 0 →
      s.chargeTick core ctx = if (s.ctx m).budget = 0 then s else s.setCtx m { s.ctx m with budget := (s.ctx m).budget - 1 })

/-- R39 to R41: a part whose work is idle, and whose tolerance allows it, enters the state that its size gives, and a quadrant's instruction caches
are then empty; a wake makes the part and those that hold it Active. The tolerance that holds for a cluster is deduced (log 25). -/
def Claims.PowerStates : Prop :=
  ∀ (s : State) (n : Nat),
    ((s.core n).power = .active → s.coreBusy n = false → 2 ≤ s.tolerance (n / 9) →
      exec (.powerStateEntry (.core n)) s = .next (s.setCore n { s.core n with power := .gated })) ∧
    ((s.cluster n).power = .active → s.clusterIdle n = true → 200 ≤ s.tolerance n →
      exec (.powerStateEntry (.cluster n)) s = .next (s.setCluster n { s.cluster n with power := .retention })) ∧
    ((s.quad n).power = .active → (∀ i, i < 16 → (s.cluster (n * 16 + i)).power = .retention ∧ 5000 ≤ s.tolerance (n * 16 + i) ∧ s.ingressTo (n * 16 + i) = false) →
      ∃ u, exec (.powerStateEntry (.quad n)) s = .next u ∧ (u.quad n).power = .deep ∧
        ∀ i, i < 16 → (u.cluster (n * 16 + i)).icache = []) ∧
    ((s.dieOf n).power = .active → s.dieIdle n = true →
      exec (.powerStateEntry (.die n)) s = .next (s.setDie n { s.dieOf n with power := .parked })) ∧
    (s.coreBusy n = true → exec (.powerStateEntry (.core n)) s = .next s) ∧
    ((s.quad n).power ≠ .active → exec (.wakeEvent (.quad n)) s =
      .next ((s.setQuad n { s.quad n with power := .active }).setDie (n / 4) { s.dieOf (n / 4) with power := .active })) ∧
    ((s.dieOf n).power ≠ .active → exec (.wakeEvent (.die n)) s = .next (s.setDie n { s.dieOf n with power := .active })) ∧
    ((s.cluster n).power ≠ .active → ∃ u, exec (.wakeEvent (.cluster n)) s = .next u ∧ (u.cluster n).power = .active ∧
      (u.quad (n / 16)).power = .active ∧ (u.dieOf (n / 64)).power = .active ∧ SameMemory s u ∧ u.imgs = s.imgs) ∧
    ((s.core n).power ≠ .active → ∃ u, exec (.wakeEvent (.core n)) s = .next u ∧ (u.core n).power = .active ∧ (u.core n).wakeBy = none ∧
      (u.cluster (n / 9)).power = .active ∧ (u.quad (n / 9 / 16)).power = .active ∧ (u.dieOf (n / 9 / 64)).power = .active ∧
      SameMemory s u ∧ u.imgs = s.imgs)

/-- R38, R481: the module's controller names a step for a die and its cause, and the die's clock moves there one step at a time; a rise from step 0
is recorded, at most once in 1 000 000 ticks. -/
def Claims.Throttling : Prop :=
  ∀ (s : State) (die : Nat) (cause : BitVec 8) (target : BitVec 4), die < s.dies →
    let d := s.dieOf die
    (cause.toNat ≤ 3 → exec (.throttleSignal die cause target) s = .next (s.setDie die { d with cause := cause, target := target })) ∧
    (d.level = d.target → exec (.throttleStep die) s = .next s) ∧
    (d.target.toNat < d.level.toNat → exec (.throttleStep die) s = .next (s.setDie die { d with level := d.level - 1 })) ∧
    (d.level.toNat < d.target.toNat →
      let due := d.level = 0 ∧ (∀ t, d.lastRec = some t → t + 1000000 ≤ s.tick)
      (¬ due → exec (.throttleStep die) s = .next (s.setDie die { d with level := d.level + 1 })) ∧
      (due → exec (.throttleStep die) s =
        .next (((s.setDie die { d with lastRec := some s.tick }).logRec 0 0x13 die 0 0 0 0).setDie die
          { d with lastRec := some s.tick, level := d.level + 1 })))

/-- R385: an overman enqueues the oldest of its packets that waits for a queue with room for eight elements, whole and in dword order; packets for
queues that are full, or whose lines a copy owns (R124), stay (which is first is deduced, log 80), and it then takes the packets that
cores have kept. -/
def Claims.FaultPackets : Prop :=
  ∀ (s : State) (quad qid ctx : Nat) (p : Packet) (before after : List (Nat × Nat × Packet)) (q : Queue),
    let room (k : Nat) : Prop := ∃ b, tget s.queues k = some b ∧ b.count + 8 ≤ 2 ^ b.cap ∧ s.ringOwned k b.t 8 = false
    ((∀ w ∈ (s.quad quad).waiting, ¬ room w.1) → exec (.faultPacketEnqueue quad) s = .next s) ∧
    ((s.quad quad).waiting = before ++ (qid, ctx, p) :: after → (∀ w ∈ before, ¬ room w.1) → tget s.queues qid = some q →
      q.count + 8 ≤ 2 ^ q.cap → s.ringOwned qid q.t 8 = false →
      ∃ u, exec (.faultPacketEnqueue quad) s = .next (u.takeKept quad) ∧
        enqueueAll (s.setQuad quad { s.quad quad with waiting := before ++ after }) qid
          [p.ctx, p.d1, p.pc, p.d3, p.addr, p.extra, p.d6,
           BitVec.ofNat 64 (ctx * 2 ^ 52 + (s.ctx ctx).gen.toNat * 2 ^ 36 + p.refl.toNat * 2 ^ 32 + p.d7.toNat)] = some u ∧
        (tget u.queues qid).map (fun b => (b.count, b.h)) = some (q.count + 8, q.h))

/-- R384, R388: a dword store to an accept table sets the mask of the context that its offset names. -/
def Claims.AcceptTable : Prop :=
  ∀ (s : State) (id : Nat) (p : PStore) (quad off : Nat) (bs : Bytes), tget s.stores id = some p → p.t = .overman quad off →
    p.op = .bytes bs → p.granted = false → s.storeHeld id p = false → off < 0x8000 →
    let u : State := { s with stores := tset s.stores id { p with granted := true, gord := s.fresh }, fresh := s.fresh + 1 }
    let n := off / 8
    (s.isLive n = true → exec (.acceptTableWrite id) s = .next (u.setCtx n { s.ctx n with accept := BitVec.ofNat 64 (ofBytes bs) })) ∧
    (s.isLive n = false → exec (.acceptTableWrite id) s = .next u)

/-- R389, R390, R206: through a debug area a resolver releases or retires a frozen fibre of a context that SEL names, and which it may
resolve; a retired entry frees at once, or when the last producer of its registers has landed; any other command sets the refused bit (what else the area takes is deduced, log 75). -/
def Claims.DebugCommands : Prop :=
  ∀ (s : State) (id : Nat) (p : PStore) (quad off : Nat) (bs : Bytes), tget s.stores id = some p → p.t = .overman quad off →
    p.op = .bytes bs → p.granted = false → s.storeHeld id p = false → 0x400000 ≤ off →
    let u : State := { s with stores := tset s.stores id { p with granted := true, gord := s.fresh }, fresh := s.fresh + 1 }
    let v := BitVec.ofNat 64 (ofBytes bs)
    let core := quad * 144 + (off - 0x400000) / 0x10000
    let o := (off - 0x400000) % 0x10000
    let e := (v.extractLsb' 0 8).toNat
    let op := v.extractLsb' 8 2
    let refused (b : Bool) : State := u.setCore core { s.core core with refused := b }
    let frozen (n : Nat) : Prop := ((s.img core n).fibre e).st = .frozen ∧ ((s.img core n).fibre e).retiring = false
    (o = 0x8808 → op = 1 →
      (∀ n, s.debugView core p.who.ctx = some n → frozen n → exec (.debugRelease id) s = .next ((refused false).release core n e)) ∧
      ((∀ n, s.debugView core p.who.ctx = some n → ¬ frozen n) → exec (.debugRelease id) s = .next (refused true))) ∧
    (o = 0x8808 → op = 2 →
      (∀ n, s.debugView core p.who.ctx = some n → frozen n →
        ((refused false).producer core n e = none → exec (.debugRetire id) s = .next ((refused false).retireEntry core n e)) ∧
        (∀ r, (refused false).producer core n e = some r →
          let i := s.img core n
          exec (.debugRetire id) s = .next ((refused false).setImg core n
            (i.setFibre e { i.fibre e with retiring := true, wait := 1, wop := BitVec.ofNat 8 r })))) ∧
      ((∀ n, s.debugView core p.who.ctx = some n → ¬ frozen n) → exec (.debugRetire id) s = .next (refused true))) ∧
    (o ≠ 0x8808 ∨ (op ≠ 1 ∧ op ≠ 2) →
      (o < 0x8800 → s.debugView core p.who.ctx = none ∨ mirrorRule o = none → exec (.debugMirrorWrite id) s = .next (refused true)) ∧
      (∀ n k mask, o < 0x8800 → s.debugView core p.who.ctx = some n → mirrorRule o = some (k, mask) →
        (((s.img core n).fibre k).st ≠ .frozen ∨ mask = 0 → exec (.debugMirrorWrite id) s = .next (refused true)) ∧
        (((s.img core n).fibre k).st = .frozen → mask ≠ 0 →
          exec (.debugMirrorWrite id) s = .next (u.mirrorWrite p.who.ctx core o v))) ∧
      (o = 0x8800 → exec (.debugMirrorWrite id) s = .next (u.setCore core { s.core core with sel := v.setWidth 32 &&& 0xFFFF0FFF })) ∧
      (0x8800 < o → exec (.debugMirrorWrite id) s = .next u))

/-- R206, R389: an entry that awaits its last producer frees once none is in flight. -/
def Claims.RetiredEntries : Prop :=
  ∀ (s : State) (core e : Nat),
    let mine (p : Nat × Img) : Prop := p.1 / 4096 = core ∧ (p.2.fibre e).st = .frozen ∧ (p.2.fibre e).retiring = true ∧
      s.producer core (p.1 % 4096) e = none
    ((∀ p ∈ s.imgs, ¬ mine p) → exec (.retiredEntryFree core e) s = .next s) ∧
    (∀ before p after, s.imgs = before ++ p :: after → (∀ x ∈ before, ¬ mine x) → mine p →
      exec (.retiredEntryFree core e) s = .next (s.retireEntry core (p.1 % 4096) e))

/-- R397: records held while the log was full are written, oldest first, as space frees, and the counts of lost records are read and cleared at once. -/
def Claims.ErrorLog : Prop :=
  ∀ (s : State) (r : ErrRec) (rest : List ErrRec),
    (s.log.held = r :: rest → s.log.unread < 1023 → exec .heldRecordFlush s = .next { s with
      log := { s.log with held := rest, recs := tset s.log.recs (s.log.total % 1024) r, total := s.log.total + 1 } }) ∧
    (s.log.held = [] ∨ 1023 ≤ s.log.unread → exec .heldRecordFlush s = .next s) ∧
    (s.boot.mode = 0 → exec .ellostRead s = .next { s with
      hostOut := [s.log.lostOther ++ s.log.lostCorrected], log := { s.log with lostCorrected := 0, lostOther := 0 } })

/-- R13, R348, R349, R395, R397, R448, R477: the registers that a host writes take the bits that they have; those that are read only ignore a write.
Which modes answer, and that a partition's interval and restart area are so set, are deduced (log 62, 69). -/
def Claims.HostRegisters : Prop :=
  ∀ (s : State) (v : DWord) (n : Nat),
    exec (.registerWrite .raddr v) s = .next { s with boot := { s.boot with raddr := v &&& 0xFFFFFFFFFFFFF000 } } ∧
    exec (.registerWrite .rlen v) s = .next { s with boot := { s.boot with rlen := v &&& 0x3FFFFFF } } ∧
    exec (.registerWrite (.rctl n) v) s = .next s ∧ exec (.registerWrite (.other n) v) s = .next s ∧
    (s.boot.mode = 0 →
      ((s.bound n).isSome = true →
        exec (.registerWrite (.winbase n) v) s = .next (s.setVf n { s.vf n with winbase := v &&& 0x00FFFFF000000000 })) ∧
      exec (.registerWrite .eltail v) s = .next { s with log := { s.log with tail := v.extractLsb' 0 10 } } ∧
      (n < 2 → exec (.registerWrite (.prtime n) v) s = .next (s.setHost n { s.host n with prtime := v.extractLsb' 0 32 })) ∧
      (n < 2 → exec (.registerWrite (.priAlloc n) v) s = .next (s.setHost n { s.host n with alloc := (v.extractLsb' 0 32).toNat })) ∧
      (s.isLive n = true → (s.ctx n).part = true →
        let area := (tget s.rareas n).getD (2 ^ 52, 0)
        exec (.registerWrite (.interval n) v) s = .next { s with rintervals := tset s.rintervals n v.toNat } ∧
        exec (.registerWrite (.areaBase n) v) s = .next { s with
          rareas := tset s.rareas n (2 ^ 52 + (v &&& 0x1FFFFFF0000).toNat, area.2) } ∧
        exec (.registerWrite (.areaLen n) v) s = .next { s with rareas := tset s.rareas n (area.1, (v &&& 0x1FFFFFFFFFF).toNat) }))

/-- R347, R348: the host binds a virtual function to a context that no other is bound to, launches on the bound context's queue, once no copy
owns the line of its tail (R124), reads and clears LSTAT, and sets a partition's tolerance, whose clusters leave the states that it no longer allows (R39). -/
def Claims.VirtualFunctions : Prop :=
  ∀ (s : State) (n : Nat) (v : DWord), s.boot.mode = 0 →
    let new := v &&& 0x80000000FFFF0FFF
    let twice : Prop := new.getLsbD 63 = true ∧ ∃ p ∈ s.vfs, p.1 ≠ n ∧ p.2.bind = new
    (n < 1024 → ¬ twice → exec (.vfBindingWrite n v) s = .next (s.setVf n { s.vf n with bind := new })) ∧
    (n < 1024 → twice → exec (.vfBindingWrite n v) s = .next s) ∧
    (s.bound n = none → exec (.lstatRead n) s = .next { s with hostOut := [0] } ∧ exec (.hostLaunchWrite n v) s = .next s) ∧
    (∀ c, s.bound n = some c →
      (s.tailOwned (s.ctx c).lq = true → exec (.hostLaunchWrite n v) s = .next s) ∧
      (s.tailOwned (s.ctx c).lq = false →
        (∀ u, s.enqueue (s.ctx c).lq v = some u → exec (.hostLaunchWrite n v) s = .next u) ∧
        (s.enqueue (s.ctx c).lq v = none → exec (.hostLaunchWrite n v) s = .next (s.setVf n { s.vf n with lstat := true }))) ∧
      exec (.lstatRead n) s = .next { s.setVf n { s.vf n with lstat := false } with hostOut := [if (s.vf n).lstat then 1 else 0] } ∧
      ((s.ctx c).part = true → exec (.ltolWrite n v) s = .next ((nodeClusters (s.ctx c)).foldl State.fitTolerance { s with
        ctxs := s.ctxs.map fun x => (x.1, if s.partitionOf x.1 = c then { x.2 with ltol := v.extractLsb' 0 32 } else x.2) })))

/-- R348, R134, R469, R496: a host reads and writes the bound context's memory, at WINBASE plus the offset, where every byte passes that context's
checks, and no copy owns its line (R124); an access that does not pass leaves an error record and no effect but the entries that its
translations have marked (R82), and one that is poisoned a record alone (deduced, log 67, 68). What it reads is read as the context reads
(R346). -/
def Claims.HostWindow : Prop :=
  ∀ (s : State) (n off size c : Nat) (data : Bytes) (relaxed : Bool), s.boot.mode = 0 → s.bound n = some c →
    let a := (s.vf n).winbase + BitVec.ofNat 64 off
    let refused (u : State) : State := u.logRec 0 0x12 (0x100 + n / 512) 0 0 0 0
    (off + size ≤ 2 ^ 36 →
      let u := (s.barTargets c .load a size).1
      ((s.barTargets c .load a size).2 = none → exec (.hostBar2Read n off size) s = .next (refused u)) ∧
      (∀ ts, (s.barTargets c .load a size).2 = some ts →
        (u.anyOwned ts = true → exec (.hostBar2Read n off size) s = .next s) ∧
        (u.anyOwned ts = false → ∃ out, exec (.hostBar2Read n off size) s = .next { ts.foldl State.wakeFor u with hostOut := out } ∧
          out.length = (size + 7) / 8 ∧
          ∀ i t, ts[i]? = some t → [(out.getD (i / 8) 0).extractLsb' (8 * (i % 8)) 8] = u.clear c t.place [u.byteFor (some hostDie) t.place]))) ∧
    (off + data.length ≤ 2 ^ 36 →
      let u := (s.barTargets c .store a data.length).1
      exec (.hostBar2Write n off data relaxed true) s = .next (refused s) ∧
      ((s.barTargets c .store a data.length).2 = none → exec (.hostBar2Write n off data relaxed false) s = .next (refused u)) ∧
      (∀ ts, (s.barTargets c .store a data.length).2 = some ts →
        (u.anyOwned ts = true ∨ u.pushAdmits ts = true → exec (.hostBar2Write n off data relaxed false) s = .next s) ∧
        (u.anyOwned ts = false → u.pushAdmits ts = false → exec (.hostBar2Write n off data relaxed false) s = .next (u.putEach c (ts.zip data)))))

/-- R349, R446 to R448: a port sends its oldest record that some fibre or copy has joined, with the lowest free group index, while the host's
allocation and the 512 records let it; a record whose time has
run out fails with reason 2; a response succeeds, fails that record with 1, or stops the function and fails its records with 3; one that
matches no record is counted. A fourth Success in a row keeps what has joined for the translation that is asked for again. Records that end fail their fibres in the order
of R390, and then their copies. -/
def Claims.PageRequests : Prop :=
  ∀ (s : State) (port : Nat) (before after : List PageRec) (r : PageRec),
    let h := s.host port
    let waits (x : PageRec) : Prop := x.sent = none ∧ (x.joined ≠ [] ∨ x.copies ≠ []) ∧ x.successes < 4
    let out := (h.recs.filter fun x => x.sent.isSome).length
    let late (x : PageRec) : Prop := ∃ t, x.sent = some t ∧ h.prtime ≠ 0 ∧ t + h.prtime.toNat < s.tick
    (h.recs = before ++ r :: after → (∀ x ∈ before, ¬ waits x) → waits r →
      (∀ g, h.up = true → out < min h.alloc 512 → (∀ x ∈ h.recs, x.sent ≠ none → x.group ≠ g) →
        (∀ j, j < g → ∃ x ∈ h.recs, x.sent ≠ none ∧ x.group = j) → g < 512 → exec (.pageRequestSend port) s =
        .next (s.setHost port { h with recs := h.recs.map fun x => if x = r then { r with sent := some s.tick, group := g } else x })) ∧
      (h.up = false ∨ min h.alloc 512 ≤ out → exec (.pageRequestSend port) s = .next s)) ∧
    (h.recs = before ++ r :: after → (∀ x ∈ before, ¬ (x.group = r.group ∧ late x)) → late r →
      exec (.pageRequestTimeout port r.group) s = .next (s.failRec port r 2)) ∧
    (h.recs = before ++ r :: after → r.sent ≠ none → ¬ late r → (∀ x ∈ before, x.group ≠ r.group) →
      (s.recLive r = true →
        exec (.pageResponse port r.group r.rid .success) s = .next (s.pageSuccess port r) ∧
        (∀ rs k, s.failAll port rs k =
          let u := s.setHost port { h with recs := h.recs.filter fun x => !rs.contains x }
          let all := rs.flatMap fun x => x.joined.map fun w => (w, x.page)
          let v := (sortBy (fun x => x.1.core * 256 + x.1.entry) all).foldl (fun t x => t.failFibre x.1 k x.2) u
          rs.foldl (fun t x => x.copies.foldl (fun t id => t.failCopy port id k x.page) t) v) ∧
        (3 ≤ r.successes → s.pageSuccess port r = s.setHost port { h with
          recs := h.recs.map fun x => if x = r then { r with sent := none, successes := r.successes + 1 } else x }) ∧
        (r.successes < 3 → s.pageSuccess port r = r.joined.foldl (fun t w => t.readyFibre w) (s.setHost port { h with
          recs := h.recs.map fun x => if x = r then { r with sent := none, joined := [], copies := [], successes := r.successes + 1 } else x,
          asking := h.asking ++ r.copies.filterMap fun id => (tget s.copies id).map fun k => { who := k.who, page := r.page, copy := some id } })) ∧
        exec (.pageResponse port r.group r.rid .invalid) s = .next (s.failRec port r 1) ∧
        exec (.pageResponse port r.group r.rid .failure) s = .next (
          (s.setHost port { h with stopped := r.rid :: h.stopped.filter (· != r.rid) }).failAll port (h.recs.filter fun x => x.rid == r.rid) 3)) ∧
      (∀ k, s.failRec port r k = s.failAll port [r] k) ∧
      (s.recLive r = false → ∀ code, exec (.pageResponse port r.group r.rid code) s = .next (s.setHost port { h with
        recs := h.recs.filter (· != r), prdrop := if h.prdrop = 0xFFFFFFFF then h.prdrop else h.prdrop + 1 }))) ∧
    (∀ g rid code, port < 2 → (∀ x ∈ h.recs, x.group = g → x.rid = rid → x.sent = none) → exec (.pageResponse port g rid code) s =
      .next (s.setHost port { h with prdrop := if h.prdrop = 0xFFFFFFFF then h.prdrop else h.prdrop + 1 }))

/-- R349, R448: a translation that a host gives lets what asked for the page, or joined its record, go on; one that is absent parks the
fibres that asked, if they are still at their units, and makes them and the copies join a record, or fail with reason 3, and after a fourth
Success ends the record with 6, the fibres that it freezes in the order of R390; an invalidation completes when no access to the page is under
way; a function's stop mark is cleared, and the count of dropped responses is read and cleared. That each port holds 4096 translations, and
the requester of a page, are the model's (log 100, 70). -/
def Claims.HostPages : Prop :=
  ∀ (s : State) (port page rid : Nat) (a : Ask),
    let h := s.host port
    let asks := h.asking.filter fun x => x.page == page
    let rest := h.asking.filter fun x => x.page != page
    let ends := h.recs.filter fun r => r.page == page && decide (4 ≤ r.successes)
    (asks = [] → ends = [] → ∀ b, exec (.atsTranslationCompletion port page b) s = .next s) ∧
    (asks ≠ [] ∨ ends ≠ [] →
      exec (.atsTranslationCompletion port page true) s = .next (
        (asks.filterMap fun x => x.copy).foldl (fun t id => t.freeCopy port id page)
          (ends.foldl (fun t r => r.copies.foldl (fun t id => t.freeCopy port id r.page) (r.joined.foldl (fun t w => t.readyFibre w) t))
            (s.setHost port { h with
              asking := rest, ats := (page :: h.ats.filter (· != page)).take 4096,
              recs := h.recs.filter fun r => !(r.page == page && (decide (4 ≤ r.successes) || (r.joined.isEmpty && r.copies.isEmpty))) }))) ∧
      (let all := (ends.flatMap fun r => r.joined.map fun w => Ending.page w r.page 6) ++ asks.map Ending.ask
       let u := (sortBy (fun e => e.who.core * 256 + e.who.entry) all).foldl (fun t e => match e with
         | .page w p k => t.failFibre w k p
         | .ask x => t.pageAbsent port x
         | .flight _ _ => t) (s.setHost port { h with asking := rest, recs := h.recs.filter fun r => !ends.contains r })
       exec (.atsTranslationCompletion port page false) s =
         .next (ends.foldl (fun t r => r.copies.foldl (fun t id => t.failCopy port id 6 r.page) t) u))) ∧
    (let q := s.requester a.who.ctx port
     (∀ p, a.parking = some p → s.parkAsk a.who p = none → s.pageAbsent port a = s) ∧
     (∀ u, (a.parking = none ∧ u = s) ∨ (∃ p, a.parking = some p ∧ s.parkAsk a.who p = some u) →
       (q ∈ h.stopped → s.pageAbsent port a = u.failAsk port a 3) ∧
       (q ∉ h.stopped → s.pageAbsent port a = u.setHost port (h.join q a))) ∧
     (a.copy = none →
       ((∀ x ∈ h.recs, ¬ (x.rid = q ∧ x.page = a.page)) → (h.join q a).recs =
         h.recs ++ [{ group := 0, rid := q, page := a.page, sent := none, joined := [a.who], copies := [] }]) ∧
       ((∃ x ∈ h.recs, x.rid = q ∧ x.page = a.page) → (h.join q a).recs =
         h.recs.map fun x => if x.rid = q ∧ x.page = a.page then { x with joined := x.joined ++ [a.who] } else x))) ∧
    (port < 2 → s.usesPage port page = false →
      exec (.atsInvalidateRequest port page) s = .next (s.setHost port { h with ats := h.ats.filter (· != page) })) ∧
    (s.usesPage port page = true → exec (.atsInvalidateRequest port page) s = .next s) ∧
    exec (.priEnableToggle rid) s = .next { s with
      hosts := s.hosts.map fun x => (x.1, { x.2 with stopped := x.2.stopped.filter (· != rid) }) } ∧
    (port < 2 → s.boot.mode = 0 → exec (.prdropRead port) s = .next { s.setHost port { h with prdrop := 0 } with
      hostOut := [h.prdrop.setWidth 64] })

/-- R469: when a host port's link goes down, its records, its copies' requests and its round trips fail with reason 4, the fibres that they freeze
in the order of R390, its translations go, and stores and pushed items that it had not accepted are dropped, each with a record; it comes up as
it is (deduced, log 71). -/
def Claims.HostLink : Prop :=
  ∀ (s : State) (port : Nat), port < 2 →
    let h := s.host port
    (h.up = true →
      let u : State := s.setHost port { h with up := false, ats := [], asking := [], recs := [] }
      let ends : List Ending := (h.recs.flatMap fun r => r.joined.map fun w => Ending.page w r.page 4) ++
        s.flights.map fun x => Ending.flight x.1 x.2
      let v : State := (sortBy (fun e => e.who.core * 256 + e.who.entry) ends).foldl (fun t e => match e with
        | .page w page k => t.failFibre w k page
        | .ask _ => t
        | .flight id f => t.failHostFlight port (id, f)) u
      let w : State := h.recs.foldl (fun t r => r.copies.foldl (fun t c => t.failCopy port c 4 r.page) t) v
      let x : State := h.asking.foldl (fun t a => match a.copy with
        | some id => t.failCopy port id 4 a.page
        | none => t) w
      let y : State := (x.dropHostPushes port).stores.foldl (fun t y => t.dropHostStore port y) (x.dropHostPushes port)
      exec (.hostLinkDown port) s = .next (y.copies.foldl (fun t z => t.failHostCopy port z) y)) ∧
    (h.up = false → exec (.hostLinkDown port) s = .next s ∧ exec (.hostLinkUp port) s = .next (s.setHost port { h with up := true })) ∧
    (h.up = true → exec (.hostLinkUp port) s = .next s) ∧
    (∀ i ∈ (s.dropHostPushes port).imgs, ∀ k, k < 5 → ∀ e ∈ (i.2.streams.toArray.getD k {}).push, ∀ y ∈ e.items, y.2.atPort port = false) ∧
    (∀ id p a, p.t = .host port a →
      (p.granted = true → s.dropHostStore port (id, p) = s) ∧
      (p.granted = false → p.laneOf = none →
        s.dropHostStore port (id, p) = ({ s with stores := tdel s.stores id }.pruneBars).logRec 0 0x12 (0x100 + port) 0 0 0 0))

/-- R498, R43, R47, R97: the management interface creates a depth-0 context at the lowest free number, with the next generation, the lowest free
partition number and the queues of its request, and the parts of its node leave the states that its tolerance does not allow (R39); a request
that breaks a rule has no effect, and neither has one for a channel that
another partition holds. What a request holds, and what its second-tier ranges then read, are the model's reading (log 73, 85, 38). -/
def Claims.ManagementCreates : Prop :=
  ∀ (s : State) (r : MgmtCreate),
    let c := mgmtCtx r
    (c.depth = 0 ∧ c.parent = none ∧ c.part = true ∧ c.st = if r.running then .running else .created) ∧
    (s.boot.mode ≠ 0 ∨ s.mgmtOk c = false → exec (.mgmtCreateContext r) s = .next s) ∧
    (c.order.toNat < 6 ∨ c.base.toNat % 2 ^ c.order.toNat ≠ 0 ∨ 512 * s.dies < c.base.toNat + 2 ^ c.order.toNat ∨ 64 ≤ s.partitions.length →
      exec (.mgmtCreateContext r) s = .next s) ∧
    (∀ m ∈ s.partitions, ∀ ch, ch < 512 → c.chmap.getLsbD ch = true → (s.ctx m).chmap.getLsbD ch = true → exec (.mgmtCreateContext r) s = .next s) ∧
    (s.boot.mode = 0 → s.mgmtOk c = true → ∀ n k, n < 4096 → tget s.ctxs n = none → (∀ m, m < n → tget s.ctxs m ≠ none) →
      k < 64 → (∀ m ∈ s.partitions, (s.ctx m).pno.toNat ≠ k) → (∀ j, j < k → ∃ m ∈ s.partitions, (s.ctx m).pno.toNat = j) →
      let g := match tget s.gens n with
        | some x => x + 1
        | none => 0
      ∀ u d, s.mgmtQueues n { c with gen := g, pno := BitVec.ofNat 6 k } r = some (u, d) →
        exec (.mgmtCreateContext r) s = .next ({ (u.newKey (d.ranges.filter u.unshared)).setCtx n d with
          gens := tset u.gens n g, rintervals := tdel u.rintervals n, rareas := tdel u.rareas n }.fitNode d))

/-- R351, R352, R479, R498: the other requests of the management interface: bits of a depth-0 context's accept mask, the package number, the ports of
a route, an export, and an entry of the services context's table. -/
def Claims.Management : Prop :=
  ∀ (s : State) (n : Nat) (mask d0 d1 d2 d3 : DWord) (id : BitVec 10) (ports : BitVec 128) (e : Range),
    (s.boot.mode = 0 →
      (s.isLive n = true → (s.ctx n).depth = 0 →
        exec (.mgmtSetAccept n mask true) s = .next (s.setCtx n { s.ctx n with accept := (s.ctx n).accept ||| mask }) ∧
        exec (.mgmtSetAccept n mask false) s = .next (s.setCtx n { s.ctx n with accept := (s.ctx n).accept &&& ~~~mask })) ∧
      (s.isLive n = false ∨ (s.ctx n).depth ≠ 0 → ∀ b, exec (.mgmtSetAccept n mask b) s = .next s) ∧
      exec (.packageIdAssign id) s = .next { s with pkg := some id } ∧
      (n < 1024 → exec (.routeTableWrite n ports) s = .next { s with routes := tset s.routes n ports }) ∧
      (n < 256 → exec (.exportTableWrite n d0 d1 d2 d3) s = .next { s with exports := tset s.exports n {
        d0 := d0 &&& 0xE000FFFFFFFF0FFF, d1 := d1 &&& 0xFFFFFFFFFFF, d2 := d2 &&& 0xFFFFFFFFFFF, d3 := d3 } }) ∧
      (let rs := sortBy (fun r => r.base.toNat) (e :: (s.ctx 0).ranges)
       (s.isLive 0 = true → tableOk (s.ctx 0) rs = true →
         exec (.mgmtRangeGrant e.base e.limit e.target e.rights e.dt e.scrub) s = .next (s.setCtx 0 { s.ctx 0 with ranges := rs })) ∧
       (s.isLive 0 = false ∨ tableOk (s.ctx 0) rs = false →
         exec (.mgmtRangeGrant e.base e.limit e.target e.rights e.dt e.scrub) s = .next s))) ∧
    (s.boot.mode ≠ 0 → ∀ i ∈ [Instr.mgmtSetAccept n mask true, .packageIdAssign id, .routeTableWrite n ports, .exportTableWrite n d0 d1 d2 d3,
        .mgmtRangeGrant e.base e.limit e.target e.rights e.dt e.scrub], exec i s = .next s)

/-- R462, R463: a link passes flits on in sequence order only, and asks for a replay after a bad CRC or a gap; an acknowledgement drops what was
received from the replay buffer of 512; a replay sends again what the buffer holds, and the sixteenth of one flit within 100 000 ticks begins a
retrain. One flit for each packet is the model's choice (log 17). -/
def Claims.LinkFlits : Prop :=
  ∀ (s : State) (n : LinkName) (seq : BitVec 12), s.hasLink n = true →
    let l := s.link n
    let more (w : Word) (k : Nat) : Word := BitVec.ofNat 32 (min (w.toNat + k) 0xFFFFFFFF)
    let retrained (x : PLink) : PLink := { x with
      state := 1, retrains := BitVec.ofNat 16 (min (x.retrains.toNat + 1) 0xFFFF), buffer := x.buffer.map fun f => { f with replays := [] },
      asks := [], wantReplay := false, askReplay := false }
    (l.state ≠ 2 → l.state ≠ 3 → l.state ≠ 4 → (∀ f, exec (.flitReceive n f) s = .next s) ∧ exec (.flitReplay n) s = .next s) ∧
    (l.state = 2 ∨ l.state = 3 ∨ l.state = 4 →
      (seq = l.rxSeq →
        exec (.flitReceive n (.data seq true)) s = .next (s.setLink n { l with rxSeq := l.rxSeq + 1, askReplay := false, asks := [] })) ∧
      (seq ≠ l.rxSeq → exec (.flitReceive n (.data seq true)) s = .next (s.setLink n { l with askReplay := true })) ∧
      (let asks := (l.asks.filter fun t => decide (s.tick < t + 100000)) ++ [s.tick]
       let bad : PLink := { l with crcerr := more l.crcerr 1, askReplay := true, asks := asks }
       exec (.flitReceive n (.data seq false)) s = .next (s.setLink n (if asks.length < 16 then bad else retrained bad))) ∧
      (∀ old f rest, l.buffer = old ++ f :: rest → f.seq = seq → (∀ x ∈ old, x.seq ≠ seq) → old.length < 512 →
        exec (.flitReceive n (.ack seq)) s = .next (s.setLink n { l with buffer := rest })) ∧
      ((∀ x ∈ l.buffer.take 512, x.seq ≠ seq) → exec (.flitReceive n (.ack seq)) s = .next (s.setLink n l)) ∧
      exec (.flitReceive n .replay) s = .next (s.setLink n { l with wantReplay := true }) ∧
      (l.wantReplay = false → exec (.flitReplay n) s = .next s) ∧
      (∀ p, n = .port p → s.linkBuffer n = l.buffer) ∧
      (∀ d, n = .die d → s.linkBuffer n = l.buffer.filter fun f => s.underWay f.pkt) ∧
      (l.wantReplay = true →
        let all := s.linkBuffer n
        let sent : List HeldFlit := (all.take 512).map fun f =>
          { f with replays := (f.replays.filter fun t => decide (s.tick < t + 100000)) ++ [s.tick] }
        let l' : PLink := { l with wantReplay := false, replays := more l.replays sent.length, buffer := sent ++ all.drop 512 }
        ((∀ f ∈ sent, f.replays.length < 16) → exec (.flitReplay n) s = .next (s.setLink n l')) ∧
        ((∃ f ∈ sent, 16 ≤ f.replays.length) → exec (.flitReplay n) s = .next (s.setLink n (retrained l')))))

/-- R463 to R466: a retrain leaves its link on the lanes that it has, at full or reduced width or carrying raw frames, or, at its fourth failure or
with no spare lane, down; a link that comes to state 0 or 3 leaves a record, and one that comes out of training sends what its replay buffer
holds; a die link that fails, and had not failed before, resets every partition on its die. The counts of failures are deduced (log 66). -/
def Claims.LinkRetrains : Prop :=
  ∀ (s : State) (n : LinkName), s.hasLink n = true →
    let l := s.link n
    let up (l' : PLink) : State := s.linkState n { l' with failures := 0 } (match n with
      | .port p => if (s.port p).ing[0].getLsbD 63 then 4 else if l'.lanes < 2 then 3 else 2
      | .die _ => if l'.spareUsed then 3 else 2)
    (l.state ≠ 1 → ∀ r, exec (.retrainComplete n r) s = .next s) ∧
    (l.state = 1 →
      exec (.retrainComplete n .full) s = .next (up l) ∧
      (l.failures < 3 → exec (.retrainComplete n .failed) s = .next (s.setLink n { l with
        retrains := BitVec.ofNat 16 (min (l.retrains.toNat + 1) 0xFFFF), buffer := l.buffer.map fun f => { f with replays := [] }, asks := [],
        wantReplay := false, askReplay := false, failures := l.failures + 1 })) ∧
      (3 ≤ l.failures → exec (.retrainComplete n .failed) s = .next (s.linkLost n l)) ∧
      (∀ p, n = .port p → 2 ≤ l.lanes → exec (.retrainComplete n .laneLost) s = .next (up { l with lanes := 1 })) ∧
      (∀ p, n = .port p → l.lanes < 2 → exec (.retrainComplete n .laneLost) s = .next (s.portDown p { l with lanes := 0 })) ∧
      (∀ d, n = .die d → l.spareUsed = false → exec (.retrainComplete n .laneLost) s = .next (up { l with spareUsed := true })) ∧
      (∀ d, n = .die d → l.spareUsed = true → exec (.retrainComplete n .laneLost) s = .next (s.dieLinkFails d l))) ∧
    (∀ l' st,
      let u := s.setLink n { l' with
        state := st, failed := st == 0, downtick := if st = 0 ∧ l'.state ≠ 0 then BitVec.ofNat 32 s.tick else l'.downtick,
        buffer := l'.buffer.map fun f => { f with out := true } }
      let unit := match n with
        | .port _ => 0x12
        | .die _ => 0x11
      let loc := match n with
        | .port p => p
        | .die d => d
      ((st = 0 ∨ st = 3) → l'.state ≠ st → s.linkState n l' st = u.logRec 1 unit loc 0 0 0 0) ∧
      (st ≠ 0 → st ≠ 3 → s.linkState n l' st = u) ∧ (l'.state = st → s.linkState n l' st = u)) ∧
    (∀ d l', let u := s.linkState (.die d) { l' with failures := 0, buffer := [] } 0
      s.dieLinkFails d l' = if l'.failed then u else (u.onDie d).foldl (fun t k => t.machineCheck k 3 0x11 d 0 0) u)

/-- R464: a read of a link's status block clears the counters of its dword, and a retrain command acts on a link that is down, on all its lanes
(deduced, log 66). -/
def Claims.LinkStatus : Prop :=
  ∀ (s : State) (n : LinkName), s.hasLink n = true → s.boot.mode = 0 →
    let l := s.link n
    let reads (k : Nat) (v : DWord) (l' : PLink) : Prop :=
      exec (.linkCounterRead n k) s = .next ({ s with hostOut := [v] }.setLink n l')
    exec (.linkCounterRead n 0) s = .next { s with hostOut := [l.state ++ 0#29 ++ l.downtick] } ∧
    reads 1 (l.replays ++ l.crcerr) { l with replays := 0, crcerr := 0 } ∧
    reads 2 (l.retrains ++ l.badframes ++ 0#32) { l with retrains := 0, badframes := 0 } ∧
    exec (.linkCounterRead n 3) s = .next { s with hostOut := [0] } ∧
    (l.state = 0 → exec (.linkRetrainCommand n) s = .next (s.setLink n { l with
      state := 1, retrains := BitVec.ofNat 16 (min (l.retrains.toNat + 1) 0xFFFF), buffer := l.buffer.map fun f => { f with replays := [] },
      asks := [], wantReplay := false, askReplay := false, failures := 0, lanes := 2, spareUsed := false })) ∧
    (l.state ≠ 0 → exec (.linkRetrainCommand n) s = .next s)

/-- R354, R355, R467, R472, R500: a frame that reaches a switched port whose owner runs is numbered, and 38 ticks later its bytes are in its slot, with
its number, its marks and its tick, and its fill word counts it, and the tick does not end before that; one of an owner that does not run is
counted only; at a port that is not switched it is bad flits; one that its link's loss cuts ends in that tick, marked bad. That a copy's lines do
not hold it back is deduced (log 115). -/
def Claims.Frames : Prop :=
  ∀ (s : State) (port : Nat) (data : Bytes) (bad : Bool), port < 16 * s.dies →
    let p := s.port port
    let v := p.ing
    let owner := s.named (BitVec.ofNat 64 (v[3].extractLsb' 0 32).toNat)
    let runs : Prop := ∃ c, owner = some c ∧ (s.ctx c).st = .running
    let next : Word := v[3].extractLsb' 32 32
    let following : Word := next + 1
    let counted : Vector DWord 4 := v.set 3 (following ++ v[3].extractLsb' 0 32)
    (v[0].getLsbD 63 = false →
      (p.link.carries = true → exec (.frameArrival port data bad) s = .next (s.setPort port { p with link := p.link.badFlit s.tick })) ∧
      (p.link.carries = false → exec (.frameArrival port data bad) s = .next s)) ∧
    (v[0].getLsbD 63 = true → p.link.state ≠ 4 → p.cut ≠ some s.tick → exec (.frameArrival port data bad) s = .next s) ∧
    (v[0].getLsbD 63 = true → p.link.state = 4 ∨ p.cut = some s.tick →
      (¬ runs → exec (.frameArrival port data bad) s = .next (s.setPort port { p with ing := counted, cut := none })) ∧
      (runs → exec (.frameArrival port data bad) s = .next (s.setPort port { p with
        frames := p.frames ++ [{ seq := next + BitVec.ofNat 32 p.frames.length, data := data, bad := bad || decide (p.cut = some s.tick), tick := s.tick }],
        cut := none }))) ∧
    (p.frames = [] → exec (.frameDelivery port) s = .next s) ∧
    (∀ f rest, (port, p) ∈ s.ports → p.frames = f :: rest → f.tick + 38 ≤ s.tick → exec .timeBaseTick s = .next s) ∧
    (∀ cl, (s.cluster cl).fills ≠ [] → exec .timeBaseTick s = .next s) ∧
    (∀ f rest, p.frames = f :: rest →
      let q : Port := { p with frames := rest, ing := counted }
      let size := 2 ^ (v[0].extractLsb' 48 4).toNat
      let short := f.data.take (size - 16)
      let cut := decide (size - 16 < f.data.length)
      let cl := (v[0].extractLsb' 39 9).toNat
      let slot := spadPlace cl ((v[1].extractLsb' 32 20).toNat + f.seq.toNat % (v[1].extractLsb' 0 16).toNat * size)
      let head : DWord := f.seq ++ BitVec.ofBool f.bad ++ BitVec.ofBool cut ++ BitVec.ofNat 30 f.data.length
      let marked : PLink := { p.link with badframes := BitVec.ofNat 16 (min (p.link.badframes.toNat + 1) 0xFFFF) }
      (s.tick < f.tick + 38 → exec (.frameDelivery port) s = .next s) ∧
      (f.tick + 38 ≤ s.tick → ¬ runs → exec (.frameDelivery port) s = .next (s.setPort port q)) ∧
      (f.tick + 38 ≤ s.tick → ∀ c, owner = some c → (s.ctx c).st = .running →
        exec (.frameDelivery port) s = .next
          ((((s.setPort port { q with link := if f.bad ∨ cut then marked else p.link }).wakeFor (.mem slot)).writeBytes slot
            (toBytes 8 head.toNat ++ toBytes 8 (BitVec.ofNat 64 f.tick).toNat ++ short)).countFill c cl
              (16 * (v[2].extractLsb' 0 16).toNat) (if v[0].getLsbD 62 then 1 else 16 + short.length) 0)))

/-- R353: an ingest block is written while its switch is off, and switched on when its ring and its fill word lie in the owner's share; a reserved bit,
or a block that does not pass, leaves a record and no effect. When a switched port's dword 0 is written again is deduced (log 76); that bits which the table does not list are reserved (log 111), the
link's state after ingress, and the step of a port's reset, are the model's choices (log 97, 103). The bits [15:12] of the owner's identity stay zero (R45). -/
def Claims.IngestBlocks : Prop :=
  ∀ (s : State) (port : Nat) (v : DWord), port < 16 * s.dies → s.boot.mode = 0 →
    let p := s.port port
    let on := p.ing[0].getLsbD 63
    let refused : State := s.logRec 0 0x12 port 0 0 0 0
    let bad0 := (v &&& 0x3FF00000FFFFFFFF) ≠ 0
    (bad0 → exec (.ingestConfigWrite port 0 v) s = .next refused) ∧
    ((v &&& 0xFFF00000FFFF0000) ≠ 0 → exec (.ingestConfigWrite port 1 v) s = .next refused) ∧
    ((v &&& 0xFFFFFFFFFFFF0000) ≠ 0 → exec (.ingestConfigWrite port 2 v) s = .next refused) ∧
    (on = true → ∀ k, 1 ≤ k → k < 4 → exec (.ingestConfigWrite port k v) s = .next refused) ∧
    (on = false →
      ((v &&& 0xFFF00000FFFF0000) = 0 → exec (.ingestConfigWrite port 1 v) s = .next (s.setPort port { p with ing := p.ing.set 1 v })) ∧
      ((v &&& 0xFFFFFFFFFFFF0000) = 0 → exec (.ingestConfigWrite port 2 v) s = .next (s.setPort port { p with ing := p.ing.set 2 v })) ∧
      exec (.ingestConfigWrite port 3 v) s = .next (s.setPort port { p with
        ing := p.ing.set 3 (p.ing[3].extractLsb' 32 32 ++ (v.extractLsb' 0 32 &&& 0xFFFF0FFF)) })) ∧
    (¬ bad0 → v.getLsbD 63 = true →
      let new := p.ing.set 0 v
      (s.ingestOk port new = false → exec (.ingestConfigWrite port 0 v) s = .next refused) ∧
      (s.ingestOk port new = true → exec (.ingestConfigWrite port 0 v) s = .next ((s.setPort port { p with
        ing := if on then new else new.set 3 (0#32 ++ p.ing[3].extractLsb' 0 32), cut := none,
        link := { p.link with state := 4, failed := false } }).wakeCluster
          (v.extractLsb' 39 9).toNat))) ∧
    (¬ bad0 → v.getLsbD 63 = false → on = false → exec (.ingestConfigWrite port 0 v) s = .next (s.setPort port { p with ing := p.ing.set 0 v })) ∧
    (¬ bad0 → v.getLsbD 63 = false → on = true →
      let u := s.leaveIngress port
      exec (.ingestConfigWrite port 0 v) s = .next (u.setPort port { u.port port with ing := (u.port port).ing.set 0 v })) ∧
    (let q : Port := { p with
       ing := #v[p.ing[0] &&& 0x7FFFFFFFFFFFFFFF, p.ing[1], p.ing[2],
         (p.ing[3].extractLsb' 32 32 + BitVec.ofNat 32 p.frames.length) ++ p.ing[3].extractLsb' 0 32],
       frames := [], cut := none,
       link := if p.link.state = 4 then { p.link with state := if p.link.lanes < 2 then 3 else 2 } else p.link }
     s.leaveIngress port = if p.link.state = 4 ∧ p.link.lanes < 2 then (s.setPort port q).logRec 1 0x12 port 0 0 0 0 else s.setPort port q) ∧
    (let t : State := s.leaveIngress port
     let u : State := t.portDown port (t.port port).link
     exec (.registerWrite (.portReset port) v) s = .next (u.setPort port { u.port port with
       ing := #v[0x0007000000000000, 1, 0, 0], link := { (u.port port).link with state := 1, lanes := 2, asks := [] } }))

/-- R393, R455, R459, R450, R474, R479: the reset of a partition, in order: its cores halt and its packets are dropped, its clusters are replaced
where they failed, its ranges with scrub are zeroed, the contexts of its restart points return to them and the others are created anew, and each
leaves a record; the services context runs again; the partition's creator hears of it, and torn operations of others are recorded (the model's
readings are logs 50, 51, 58, 59, 61, 63 and 106). -/
def Claims.PartitionResetSteps : Prop :=
  ∀ (s : State) (n p : Nat) (failed : List Nat),
    (n ∉ s.resetting → exec (.partitionReset { part := n, failed := failed }) s = .next s) ∧
    (n ∈ s.resetting → s.partitions.find? (fun k => (s.ctx k).pno.toNat == n) = some p →
      let ns := (s.ctxs.map Prod.fst).filter fun k => s.isLive k && s.partitionOf k == p
      let t : State := { s with resetting := s.resetting.filter (· != n), flrs := s.flrs.filter fun f => !ns.contains f.ctx }
      let halted : State := (((ns.foldl (fun t k => t.releaseClaims k) (t.rewriteSites p)).haltCores ns).purge ns).dropFrames p ns
      let a : State := ((((nodeClusters (halted.ctx p)).foldl State.remap (halted.selfTest p failed)).repairRows p).scrubRanges ns).resetRegs p
      let points := ns.filterMap a.restartOf
      let again := ns.filter fun k => points.any fun r => r.states.any fun x => x.1 == k
      let out := ns.filter fun k => !again.contains k
      let b : State := a.endOps ns out
      let keep := (a.subtree p).filter fun n => !ns.contains n
      let e : State := points.foldl State.restore ((out.foldl (fun u k => u.toCreated k (s.heldBy ns) keep) b).endRecords out)
      let c : State := (if p = 0 ∧ ∀ d ∈ e.partDies 0, e.dieFailed d = false then e.setCtx 0 { e.ctx 0 with st := .running } else e).resetVfs p ns
      let d : State := (c.resetRecords ns again).presetNotice p 0
      exec (.partitionReset { part := n, failed := failed }) s = .next ((d.unisolate (d.ctx p).pno.toNat).recordTorn (s.torn ns))) ∧
    (n ∈ s.resetting → s.partitions.find? (fun k => (s.ctx k).pno.toNat == n) = none →
      exec (.partitionReset { part := n, failed := failed }) s = .next { s with resetting := s.resetting.filter (· != n) })

/-- R393: what the reset of a partition leaves, where none of its contexts has a restart point to return to, a long operation under way or a record
with status code 1: no core holds a context of it; each is Created, with no fibres, saved cages, counts of semaphores or claims; no request, copy
or store not yet performed of it is left; queues keep their contents; a byte of a range with scrub or of a share that no other partition has reads
zero, and every byte outside its scrubbed ranges, shares and tiles is unchanged, as is every context of another partition; and the reset is no
longer due. The services context runs again (log 58). -/
def Claims.PartitionResetLeaves : Prop :=
  ∀ (s : State) (n p : Nat) (failed : List Nat),
    let ns := (s.ctxs.map Prod.fst).filter fun k => s.isLive k && s.partitionOf k == p
    n ∈ s.resetting → s.partitions.find? (fun k => (s.ctx k).pno.toNat == n) = some p → Inv s →
    (∀ k ∈ ns, (s.ctx k).trest = false) → (∀ x ∈ s.imgs, x.1 % 4096 ∈ ns → x.2.ops = []) →
    (∀ l ∈ s.launches, l.2.ctx ∈ ns → l.2.started = false) →
    let scrubbed (k a : Nat) : Prop := ∃ r ∈ (s.ctx k).ranges, r.scrub = true ∧
      let t := r.target.toNat
      let e := t + (r.limit.toNat - r.base.toNat)
      if t.testBit 52 then t.testBit 51 = false ∧ t % 2 ^ 52 ≤ a ∧ a < e - t + t % 2 ^ 52
      else a < 2 ^ 52 ∧ ∃ m, mpaAt (s.ctx k) a = some m ∧ t ≤ m ∧ m < e
    let shared (k a : Nat) : Prop := ∃ cl ∈ nodeClusters (s.ctx k),
      spadPlace cl ((s.ctx k).shoff.toNat * 4096) ≤ a ∧ a < spadPlace cl (((s.ctx k).shoff.toNat + (s.ctx k).shlen.toNat) * 4096)
    let tiled (a : Nat) : Prop := ∃ cl ∈ s.heldBy ns, accPlace cl 0 ≤ a ∧ a < accPlace cl 0x40000
    ∃ u, exec (.partitionReset { part := n, failed := failed }) s = .next u ∧
      u.resetting = s.resetting.filter (· != n) ∧ u.queues = s.queues ∧
      (∀ c k, (s.core c).res = some k → k ∈ ns → (u.core c).res = none) ∧
      (∀ c, (∀ k, (s.core c).res = some k → k ∉ ns) → (u.core c).res = (s.core c).res) ∧
      (∀ k ∈ ns, k ≠ 0 → (u.ctx k).st = .created) ∧
      (∀ k ∈ ns, (u.ctx k).busy = false ∧ (u.ctx k).stopping = false ∧ (u.ctx k).pausing = false) ∧
      (∀ x ∈ u.imgs, x.1 % 4096 ∉ ns) ∧ (∀ x ∈ u.saves, x.1 / 512 ∉ ns) ∧ (∀ x ∈ u.sems, x.1 / 512 ∉ ns) ∧
      (∀ l ∈ u.launches, l.2.ctx ∈ ns → l.2.started = false ∧ l.2.placed = none) ∧
      (∀ x ∈ u.flights, x.2.who.ctx ∉ ns) ∧ (∀ x ∈ u.copies, x.2.who.ctx ∉ ns) ∧ (∀ x ∈ u.stores, x.2.who.ctx ∈ ns → x.2.granted = true) ∧
      (∀ m, s.isLive m = true → m ∉ ns → u.ctx m = s.ctx m) ∧
      (∀ a, lostAt s a = none →
        ((∃ k ∈ ns, scrubbed k a) → u.byte a = 0) ∧
        ((∃ k ∈ ns, shared k a) → (∀ m cl, s.isLive m = true → m ∉ ns → nodeTouches (s.ctx m) cl = true →
          ¬ (spadPlace cl ((s.ctx m).shoff.toNat * 4096) ≤ a ∧ a < spadPlace cl (((s.ctx m).shoff.toNat + (s.ctx m).shlen.toNat) * 4096))) →
          u.byte a = 0) ∧
        ((∀ k ∈ ns, ¬ scrubbed k a ∧ ¬ shared k a) → ¬ tiled a → u.byte a = s.byte a))

/-- R395, R396, R460: a restart point of a subtree for whose image the host has reserved room begins once its interval has passed, or its inbound
log is full, while services run: its running contexts are asked to stop, as `ctxstop` would; when they are off their cores and nothing of theirs
is in flight the point is written, in the place of the one before, and they go on (the model's two moves, and the bytes of the reserved area,
which are open afterwards, are its reading, log 62). -/
def Claims.RestartPoints : Prop :=
  ∀ (s : State) (n : Nat),
    let ns := s.restartSet n
    let old := s.rpoints.find? fun r => r.ctx == n && r.gen == (s.ctx n).gen
    let due := match old with
      | some r => r.tick + s.interval (s.partitionOf n) ≤ s.tick ∨ 4096 ≤ r.inbound.length
      | none => s.interval (s.partitionOf n) ≤ s.tick
    let may := s.restartRoot n = true ∧ due ∧ (s.ctx 0).st = .running ∧ ∀ k ∈ ns, (s.ctx k).busy = false ∧ (s.ctx k).stopping = false
    let runs := ∃ k ∈ ns, (s.ctx k).st = .running ∧ (s.ctx k).pausing = false
    let room := 4096 * s.imageBlocks n
    ((tget s.rareas (s.partitionOf n) = none → exec (.restartPoint n) s = .next s) ∧
     (∀ a len, tget s.rareas (s.partitionOf n) = some (a, len) → len < room → exec (.restartPoint n) s = .next s)) ∧
    (∀ a len, tget s.rareas (s.partitionOf n) = some (a, len) → room ≤ len →
      (may → runs → exec (.restartPoint n) s = .next (s.pauseAll ns)) ∧
      (may → ¬ runs → s.offCores ns = true → s.settled ns = true → exec (.restartPoint n) s =
        .next ({ s.lose (a % 2 ^ 52) len with
          rpoints := s.rpoints.filter (fun (r : RPoint) => r.ctx != n) ++ [s.pointOf n ns] }.unpause ns)) ∧
      (may → ¬ runs → s.offCores ns = false ∨ s.settled ns = false → exec (.restartPoint n) s = .next s) ∧
      (¬ may → exec (.restartPoint n) s = .next s)) ∧
    ((s.pointOf n ns).ctx = n ∧ (s.pointOf n ns).tick = s.tick ∧ (s.pointOf n ns).inbound = [] ∧
      (s.pointOf n ns).states = ns.map fun k => (k, (s.ctx k).st))

/-- R471, R474: a function-level reset of a virtual function stops its context and that context's descendants at once, and sets its registers but
for its binding to their reset values; when its tick has ended, unless a revocation came in it, each context is Created, with a record, and the
creator hears of it; an unbound one takes the registers' step alone, and a physical function's reset is that of each bound function of its port
(the model's readings are logs 60 and 61). -/
def Claims.FunctionResets : Prop :=
  ∀ (s : State) (v port : Nat),
    let bar0 (t : State) : State :=
      let x := t.setVf v { t.vf v with lstat := false, winbase := 0 }
      match t.bound v with
      | some c => if (t.ctx c).part then x.setLtol c 0 else x
      | none => x
    (v < 1024 → (∀ f ∈ s.flrs, f.vf ≠ v) →
      (s.bound v = none → exec (.functionLevelReset (.vf v)) s = .next (s.setVf v { s.vf v with lstat := false, winbase := 0 })) ∧
      (∀ c, s.bound v = some c →
        ((s.ctx (s.partitionOf c)).pno.toNat ∈ s.resetting → exec (.functionLevelReset (.vf v)) s = .next (bar0 s)) ∧
        ((s.ctx (s.partitionOf c)).pno.toNat ∉ s.resetting →
          let ns := s.subtree c
          let a : State := ns.foldl (fun t n => t.setCtx n { t.ctx n with pausing := true }) (bar0 ((s.haltSet ns).endOps ns ns))
          exec (.functionLevelReset (.vf v)) s = .next { a with
            flrs := a.flrs ++ [{ vf := v, ctx := c, gen := (s.ctx c).gen, tick := s.tick, held := s.heldBy ns, torn := s.torn ns }] } ∧
          ((∀ x ∈ s.imgs, x.1 % 4096 ∈ ns → x.2.ops = []) → ∀ n k, (s.core n).res = some k → k ∈ ns → (a.core n).res = none)))) ∧
    (v < 1024 → (∃ f ∈ s.flrs, f.vf = v) → (∀ f ∈ s.flrs, f.vf = v → s.tick ≤ f.tick) →
      exec (.functionLevelReset (.vf v)) s = .next s) ∧
    (∀ before f after, v < 1024 → s.flrs = before ++ f :: after → f.vf = v → f.tick < s.tick →
      (∀ g ∈ before, g.vf = v → s.tick ≤ g.tick) →
      let t : State := { s with flrs := s.flrs.filter (· != f) }
      let ns := s.subtree f.ctx
      (s.isLive f.ctx = false ∨ (s.ctx f.ctx).gen ≠ f.gen → exec (.functionLevelReset (.vf v)) s = .next t) ∧
      (s.isLive f.ctx = true → (s.ctx f.ctx).gen = f.gen →
        let b : State := (ns.foldl (fun t n => t.toCreated n f.held []) t).endRecords ns
        let d : State := ns.foldl (fun t n => t.logRec 0 0 0 5 0 (t.ctxid n) 0) b
        exec (.functionLevelReset (.vf v)) s = .next ((d.presetNotice f.ctx 1).recordTorn f.torn) ∧
        ∀ k ∈ ns, (((d.presetNotice f.ctx 1).recordTorn f.torn).ctx k).st = .created)) ∧
    (1024 ≤ v → exec (.functionLevelReset (.vf v)) s = .next s) ∧
    (port < 2 → exec (.functionLevelReset (.pf port)) s = .next ((s.vfs.map Prod.fst).foldl
      (fun t k => if k / 512 = port ∧ (t.bound k).isSome then t.flr k else t) s)) ∧
    (2 ≤ port → exec (.functionLevelReset (.pf port)) s = .next s)

/-- R357, R476 to R478, R480, R482: a start-up takes its steps in order and stops at the first that fails, with its mode and cause; recovery checks an
image as steps 2 and 3 do, and goes on from there; a loss of power while an image is written leaves none in flash; nothing but flash, fuses and the saved log survives. What the services context
and its queues are, and what a die, a link or a number is where no input says it, are the model's choices (log 3, 83, 85): the clause on
bootServices is theirs. -/
def Claims.StartUp : Prop :=
  ∀ (s : State) (b : BootInput) (port : Nat),
    let lost (t : State) (x : Boot) : State := { State.reset with
      ctxs := [], queues := [], qgens := [], saved := t.saved, log := { seq := match t.saved.getLast? with
        | some r => r.seq + 1
        | none => 0 },
      fresh := t.fresh, agenda := t.agenda, boot := { x with minSvn := t.boot.minSvn, flash := t.boot.flash } }
    let stops (step : BitVec 4) (mode : BitVec 4) (cause : Byte) : Prop :=
      exec (.moduleReset b) s = .next (lost s { step := step, mode := mode, cause := cause })
    let image (svn : Word) : Option (BitVec 4 × Byte) :=
      if b.sigOk = false then some (1, 1) else if svn.toNat < s.boot.minSvn.toNat then some (1, 2)
      else if b.measureOk = false then some (2, 3) else none
    let dead := ~~~(b.selfOk &&& b.hbmOk)
    let passed := (List.range 8).countP fun i => (b.selfOk &&& b.hbmOk).getLsbD i
    let n := if 8 ≤ passed then 8 else if 4 ≤ passed then 4 else if 2 ≤ passed then 2 else passed
    let later (t : State) (svn : Word) (version : DWord) : State :=
      let known : Boot := { svn := svn, version := version, dead := dead }
      if passed = 0 then lost t { known with step := 3, mode := 2, cause := if b.selfOk = 0 then 5 else 6 }
      else if b.timeOk = false then lost t { known with step := 4, mode := 2, cause := 8 }
      else if b.zeroOk = false then lost t { known with step := 5, mode := 2, cause := 4 }
      else ({ lost t known with dies := n }.bootSpares n b.spares).bootServices b.fq
    let flash := s.boot.flash
    let flashed : State := { s with boot := { s.boot with flash := { valid := true, svn := b.svn, version := b.version } } }
    (b.rootOk = false → stops 0 2 7) ∧
    (b.rootOk = true → b.flashOk = false ∨ flash.valid = false → stops 1 1 4) ∧
    (b.rootOk = true → b.flashOk = true → flash.valid = true →
      (∀ step cause, image flash.svn = some (step, cause) → stops step 1 cause) ∧
      (image flash.svn = none → exec (.moduleReset b) s = .next (later s flash.svn flash.version))) ∧
    (∀ u : State, let v := u.bootServices none
      v.ctxs = State.reset.ctxs ∧ v.queues = State.reset.queues ∧ v.qgens = State.reset.qgens ∧ v.mem = u.mem ∧ v.imgs = u.imgs) ∧
    (∀ q ∈ b.spares, q < 4 * n → ((later s flash.svn flash.version).boot.mode = 0 →
      ((later s flash.svn flash.version).quad q).spareUsed = true)) ∧
    (s.boot.mode ≠ 1 → exec (.recoveryGo port b) s = .next s ∧ exec (.recoveryProg port b) s = .next s) ∧
    (s.boot.mode = 1 → port < 2 →
      (∀ step cause, image b.svn = some (step, cause) →
        exec (.recoveryGo port b) s = .next { s with boot := { s.boot with cause := cause } } ∧
        exec (.recoveryProg port b) s = .next { s with boot := { s.boot with cause := cause } }) ∧
      (image b.svn = none → exec (.recoveryGo port b) s = .next (later s b.svn b.version) ∧
        (b.cut = false → exec (.recoveryProg port b) s = .next (later flashed b.svn b.version)) ∧
        (b.cut = true → ∃ u, exec (.recoveryProg port b) s = .next u ∧ u.boot.flash.valid = false ∧ u.boot.mode = 2 ∧
          exec .powerLoss { s with boot := { s.boot with flash := { flash with valid := false, svn := b.svn, version := b.version } } } = .next u)))

/-- R478, R480, R482: the fused minimum rises to the running image's version; an error of the trust die halts the part, and both host ports report it; a power loss saves the log
with a last record, and no other state. -/
def Claims.TrustDie : Prop :=
  ∀ (s : State),
    (s.boot.mode = 0 → s.boot.step = 7 →
      ∃ m, exec .svnRaise s = .next { s with boot := { s.boot with minSvn := m } } ∧ m.toNat = max s.boot.minSvn.toNat s.boot.svn.toNat) ∧
    (s.boot.mode ≠ 0 ∨ s.boot.step ≠ 7 → exec .svnRaise s = .next s) ∧
    (let u := s.setHost 0 { s.host 0 with aer := true }
     exec .trustDieError s = .next { u.setHost 1 { u.host 1 with aer := true } with boot := { s.boot with mode := 2, cause := 9 } }) ∧
    ∃ u, exec .powerLoss s = .next u ∧ u.boot.mode = 2 ∧ u.boot.minSvn = s.boot.minSvn ∧ u.boot.flash = s.boot.flash ∧ u.mem = [] ∧
      u.ctxs = [] ∧ u.imgs = [] ∧ u.tick = 0 ∧
      (s.log.unread < 1023 → ∃ r ∈ u.saved, r.sev = 3 ∧ r.unit = 0x13 ∧ r.seq = s.log.seq)

/-- R14, R60, R175, R357: what the spec says of the part after start-up: TICK 0, the services context created as context 0 at depth 0,
and the reset columns of the special registers; and, of the model's own choice (DESIGN CHOICE, log 3), that context is Running and no core holds it; the
free fibres and the full registers are log 82's (DEDUCED), and that all eight dies are live is log 83's (DESIGN CHOICE). -/
def Claims.ResetValues : Prop :=
  let s := State.reset
  s.tick = 0 ∧ s.dies = 8 ∧ s.boot.mode = 0 ∧ s.boot.step = 7 ∧ s.isLive 0 = true ∧ (s.ctx 0).depth = 0 ∧ (s.ctx 0).parent = none ∧
  (s.ctx 0).st = .running ∧ (∀ n, n ≠ 0 → s.isLive n = false) ∧ (∀ n, (s.core n).res = none) ∧ (∀ cl, (s.cluster cl).mxissuer = 7) ∧
  s.mem = [] ∧ s.log.total = 0 ∧
  ∀ core ctx, (s.img core ctx).fmt = 0x7F3330 ∧ (s.img core ctx).fctl = 0 ∧ (s.img core ctx).fstatus = 0 ∧
    (∀ e, ((s.img core ctx).fibre e).st = .free) ∧ (s.img core ctx).xfull = 0xFFFFFFFF ∧ (s.img core ctx).vfull = 0xFFFFFFFF

/-- Log 2: after reset the memory lists no byte, so that it is in its canonical form. -/
def Claims.ResetInvariant : Prop := Inv State.reset

/-! ### The statements -/

/-- Integer register-3 operations: results and frame. -/
def Obligations.IntegerOperations : Prop := Claims.IntegerResults ∧ Claims.RegisterFrame

/-- Immediates, lea, prd, csel and cseln write their results. -/
def Obligations.ImmediatesAndSelects : Prop := Claims.ImmediateResults ∧ Claims.SelectResults

/-- R193 to R195: compares and predicate logic write one of p0 to p7; `pwr` writes all eight; no other part of the state changes
but what the end of the unit changes. -/
def Obligations.Predicates : Prop :=
  ∀ (s : State) (pd : BitVec 3) (c : CmpCond) (cb : Combine) (ra rb : Src) (imm : BitVec 9) (pa pb : BitVec 4),
    (∀ p ∈ predicateRows s pd c cb ra rb imm pa pb, Alone s p.1 → (∀ a ∈ p.2.1, XIn s a) →
      exec p.1 s = .next (s.commit (s.setMyFibre { s.myFibre with
        pred := (s.myFibre.pred &&& ~~~((1 : Byte) <<< pd.toNat)) ||| (if p.2.2 then (1 : Byte) <<< pd.toNat else 0) }) .fall)) ∧
    (Alone s (.pwr ra) → XIn s ra →
      exec (.pwr ra) s = .next (s.commit (s.setMyFibre { s.myFibre with pred := (s.xVal ra.r).setWidth 8 }) .fall))

/-- Transfers of control, their links, misaligned targets, and where a unit ends. -/
def Obligations.Transfers : Prop := Claims.TransferResults ∧ Claims.MisalignedTarget ∧ Claims.UnitEnd

/-- R200: the four loop instructions set the three registers of their level, or skip the body where the count is 0; a body that
does not lie after the unit is a LOOP fault. -/
def Obligations.Loops : Prop :=
  ∀ (s : State) (count disp : BitVec 12) (rc : Src),
    ∀ p ∈ loopRows s count disp rc, Alone s p.1 → (∀ a ∈ p.2.1, XIn s a) →
      let l := p.2.2.1
      let n := p.2.2.2
      let e := s.unit.pc + 4 * disp.setWidth 64
      (s.unit.unitEnd.toNat ≤ e.toNat → exec p.1 s = .next (s.commit (s.setMe { s.me with
          lb := s.me.lb.set l s.unit.unitEnd, le := s.me.le.set l e, lc := s.me.lc.set l n, rep := s.me.rep.settled l })
          (if n = 0 then .jump (e + 4) else .fall))) ∧
      (e.toNat < s.unit.unitEnd.toNat → exec p.1 s = .next (s.stopUnit s.unit.wh (.trap .loop e n)))

/-- spawn and exit. -/
def Obligations.FibresStartAndEnd : Prop := Claims.SpawnResults ∧ Claims.ExitResults

/-- yield, sys, brk, ifence, ckpt and wfe. -/
def Obligations.SystemInstructions : Prop := Claims.SystemResults ∧ Claims.CheckpointResults ∧ Claims.WaitForCondition

/-- mfs and mts, register by register, and the SPR fault. -/
def Obligations.SpecialRegisters : Prop := Claims.ReadSpecialRegisters ∧ Claims.WriteSpecialRegisters

/-- What taking a fault leaves, and the fields of its packet. -/
def Obligations.TakingFaults : Prop := Claims.TakingAFault ∧ Claims.PacketLayout

/-- Empty operands, light fibres, and units that cannot run. -/
def Obligations.OperandFaults : Prop := Claims.EmptySources ∧ Claims.LightFibres ∧ Claims.UnitsThatCannotRun

/-- Both words of a pair read before it, and a guard that fails stops it whole. -/
def Obligations.Pairs : Prop := Claims.PairReadsBefore ∧ Claims.PairGuards

/-- Plain v operands, broadcast and extract, compares and masks. -/
def Obligations.VectorOperands : Prop := Claims.PlainVectors ∧ Claims.BroadcastAndExtract ∧ Claims.MaskResults

/-- Lane-wise integer operations, lane moves and integer reductions. -/
def Obligations.IntegerVectors : Prop := Claims.IntegerLanes ∧ Claims.LaneMoves ∧ Claims.IntegerReductions

/-- Lane-wise floating point, its reductions, conversions and vdot. -/
def Obligations.FloatVectors : Prop := Claims.FloatLanes ∧ Claims.FloatReductions ∧ Claims.ConversionsAndDot

/-- Scalar loads and their answers. -/
def Obligations.Loads : Prop := Claims.LoadResults ∧ Claims.LoadAnswers

/-- Scalar stores, and the bytes of memory that they change. -/
def Obligations.Stores : Prop := Claims.StoreResults ∧ Claims.StoreFrame

/-- A grant performs a store; its invalidations land; it completes. -/
def Obligations.StoresPerformed : Prop := Claims.HomeGrantPerforms ∧ Claims.StoreEnds ∧ Claims.Isolation ∧ Claims.LineKeys

/-- R226, R223, R273, R274: `ldv` writes its v register, or pushes to the stream that it is bound to; `stv` stores its v register, or the element
that it pops; both fault on an address that is not a multiple of 32. All 32 bytes are read or written at one moment (the model's choice, log 89). -/
def Obligations.VectorMemoryAccesses : Prop :=
  ∀ (s : State) (vt : Reg) (rt : Src) (m : MemOp) (sc : Scope) (md : StMode),
    let a := effAddr s m 32
    (∀ u t, Alone s (.ldv vt m sc) → (∀ x ∈ m.srcs, XIn s x) → s.pushGuards [.dv vt] = .ok () → s.settle [.dv vt] = .ok () →
      a.toNat % 32 = 0 → s.resolve s.unit.core s.unit.ctx .vload a 32 = .ok (u, t) →
      let v := underScope u sc
      (t.ownSpad s.unit.core = true → s.readHeld s.who s.fresh t 32 = false →
        ∀ x, (v.hasRead s.who s.fresh t 32 (inEffect u sc)).writeV vt (BitVec.ofNat 256 (v.readNum s.who t 32)) 8 (2 ^ 32 - 1) = .ok x →
          exec (.ldv vt m sc) s = .next (s.commit x .fall)) ∧
      (t.ownSpad s.unit.core = false → SlotFree s →
        (s.me.boundTo vt = none →
          exec (.ldv vt m sc) s = .next (s.commit (v.swapOut (.v vt (2 ^ 32 - 1) none) (.load t 32 false) none a (inEffect u sc)) .fall)) ∧
        (∀ st tag x, s.me.boundTo vt = some st → v.pushV vt st none (2 ^ 32 - 1) = .ok (tag, x) →
          exec (.ldv vt m sc) s = .next (s.commit (x.swapOut (.v vt (2 ^ 32 - 1) (some (vt.toNat, tag))) (.load t 32 false) none a (inEffect u sc)) .fall)))) ∧
    (∀ u t, Alone s (.stv m rt sc md) → s.ready (.v rt :: memOps m) = .ok () → a.toNat % 32 = 0 →
      s.resolve s.unit.core s.unit.ctx .vstore a 32 = .ok (u, t) →
      exec (.stv m rt sc md) s = .next (s.commit (((underScope u sc).popV rt.r 1).issueStore t
        (.bytes ((List.range 32).map (byteOf (s.vVal rt.r 0).toNat))) md (inEffect u sc) a) .fall)) ∧
    (a.toNat % 32 ≠ 0 →
      (Alone s (.ldv vt m sc) → (∀ x ∈ m.srcs, XIn s x) → s.pushGuards [.dv vt] = .ok () →
        exec (.ldv vt m sc) s = .next (s.stopUnit s.unit.wh (.trap .align a 32))) ∧
      (Alone s (.stv m rt sc md) → s.ready (.v rt :: memOps m) = .ok () →
        exec (.stv m rt sc md) s = .next (s.stopUnit s.unit.wh (.trap .align a 32))))

/-- amo and cas, at home and away. -/
def Obligations.Atomics : Prop := Claims.AtomicResults ∧ Claims.AtomicAnswers

/-- R229, R230, R253: `fence` goes on where every access of its fibre is performed at the scope in effect, and otherwise waits with that scope;
`fence.w` never waits; a prefetch changes nothing, whether or not a trap-mode source is empty (deduced, log 14). -/
def Obligations.Ordering : Prop :=
  ∀ (s : State) (sc : Scope) (m : MemOp),
    (Alone s (.fence sc) →
      let e := s.capped s.unit.ctx sc
      (s.fenceDone s.who e = true → exec (.fence sc) s = .next (s.commit (s.demote s.unit.ctx sc) .fall)) ∧
      (s.fenceDone s.who e = false → exec (.fence sc) s = .next (s.setMyFibre (s.myFibre.waits 7 (scopeNum e) (.fence e))))) ∧
    (Alone s (.fenceW sc) →
      let b : WBar := { who := s.who, id := s.fresh, sc := s.capped s.unit.ctx sc }
      exec (.fenceW sc) s =
        .next (s.commit ({ s.demote s.unit.ctx sc with wbars := s.wbars ++ [b], fresh := s.fresh + 1 }.pruneBars) .fall)) ∧
    (∀ i ∈ [Instr.pf m, .pfL2 m], Alone s i → (∀ a ∈ m.srcs, a.t = false → s.xFull a.r = true) → exec i s = .next (s.commit s .fall))

/-- Waits on tokens, fill words and conditions, and the handlers that may not wait. -/
def Obligations.Waits : Prop := Claims.HandlerMayNotWait ∧ Claims.TokenWaits ∧ Claims.FillWordWaits

/-- Fill words, their updates, and semaphores. -/
def Obligations.FillWordsAndSemaphores : Prop := Claims.FillWordInstructions ∧ Claims.FillWordUpdates ∧ Claims.FillWordArrivals ∧ Claims.SemaphoreResults

/-- sendm and reply. -/
def Obligations.Sends : Prop := Claims.SendResults ∧ Claims.ReplyResults

/-- Messages that arrive and that are sent again. -/
def Obligations.Messages : Prop := Claims.MessageArrivals ∧ Claims.ReplyArrivals ∧ Claims.MessageResends

/-- tagctl, and the starts of handlers and upcalls. -/
def Obligations.Handlers : Prop := Claims.TagControl ∧ Claims.HandlerStarts

/-- Queue operations and the queue controller. -/
def Obligations.Queues : Prop := Claims.QueueOperations ∧ Claims.QueueController

/-- Queue registers: bindings, pops, pushes, and their engines. -/
def Obligations.QueueRegisterUse : Prop := Claims.QueueBindings ∧ Claims.QueueRegisters ∧ Claims.QueueRegisterEngines

/-- R69, R77, R223, R64, R63: a fibre whose age has reached 4095 is boosted; the first message in the parked buffer that finds a slot, its own if one is reserved
for it, leaves the buffer for that slot and takes its way by the entry of its tag; the outcome of a message, and a popped element, are written to their register, which
is full, their round trip is over, and the fibre that waits for no other is ready. -/
def Obligations.FibreEvents : Prop :=
  ∀ (s : State) (core ctx : Nat),
    (∀ e, s.issuing core = some ctx → ((s.img core ctx).fibre e).st = .ready → ((s.img core ctx).fibre e).age = 4095 →
      ((s.img core ctx).fibre e).boost = false →
      exec (.ageBoost core e) s = .next (s.setImg core ctx ((s.img core ctx).setFibre e { (s.img core ctx).fibre e with boost := true }))) ∧
    (∀ n k m, (s.core core).res = some ctx → (s.img core ctx).parked[n]? = some m →
      (∀ n' < n, ∀ x, (s.img core ctx).parked[n']? = some x → x.slot = none ∧ (s.img core ctx).freeSlot = none) →
      (m.slot = some k ∨ m.slot = none ∧ (s.img core ctx).freeSlot = some k) →
      let i := s.img core ctx
      exec (.parkedMessageMoveIn core) s = .next (s.setImg core ctx
        { i with inbox := tset i.inbox k { m with slot := none, route := routeFor (i.handler m.tag), entry := i.handler m.tag },
                 parked := i.parked.take n ++ i.parked.drop (n + 1),
                 ires := if m.slot = some k then i.ires &&& ~~~(BitVec.ofNat 64 (2 ^ k)) else i.ires })) ∧
    (∀ id f fb n, tget s.flights id = some f → s.linkPassed id = true → s.who? f.who = some fb →
      ((∃ v, f.job = .outcome v ∧ n = v.toNat) ∨ ∃ v, f.job = .value v ∧ n = v.toNat) →
      let w := f.who
      let i := s.img w.core w.ctx
      ∃ u, exec (.answerArrival id .here) s = .next u ∧ u.flights = tdel s.flights id ∧
        let j := u.img w.core w.ctx
        let now := j.fibre w.entry
        (∀ r, f.dst = .x r → r ≠ 0 → w.entry = 0 →
          j.x = i.x.setIfInBounds r.toNat (BitVec.ofNat 64 n) ∧ j.xfull = i.xfull ||| BitVec.ofNat 32 (2 ^ r.toNat) ∧ j.v = i.v ∧ j.vfull = i.vfull) ∧
        (∀ r, f.dst = .x r → r ≠ 0 → w.entry ≠ 0 →
          now.x = fb.x.setIfInBounds (r.toNat - 1) (BitVec.ofNat 64 n) ∧ now.fe = fb.fe ||| BitVec.ofNat 8 (2 ^ (r.toNat - 1)) ∧
          j.x = i.x ∧ j.xfull = i.xfull ∧ j.v = i.v ∧ j.vfull = i.vfull) ∧
        (∀ r l, f.dst = .v r l none → j.vfull = i.vfull ||| BitVec.ofNat 32 (2 ^ r.toNat) ∧ j.x = i.x ∧ j.xfull = i.xfull ∧
          (∀ k, k < 32 → laneOf 8 j.v[r.toNat] k = if l.getLsbD k then laneOf 8 (BitVec.ofNat 256 n) k else laneOf 8 i.v[r.toNat] k) ∧
          ∀ q : Reg, q ≠ r → j.v[q.toNat] = i.v[q.toNat]) ∧
        now.pc = fb.pc ∧ now.pred = fb.pred ∧
        (if fb.st = .waiting ∧ fb.cond = .none ∧ (u.flights.any fun p => p.2.who == w && !p.2.isPop) = false
         then now.st = .ready ∧ now.wait = 0 ∧ now.wop = 0 else now.st = fb.st))

/-- scfg, sbind, sunbind and sstat. -/
def Obligations.StreamControl : Prop := Claims.StreamDescriptors ∧ Claims.StreamBinding ∧ Claims.StreamStatus

/-- Stream pops, pushes and engines. -/
def Obligations.StreamUse : Prop := Claims.StreamPops ∧ Claims.StreamPushes ∧ Claims.StreamEngines

/-- rep, its replays, and what may run behind one. -/
def Obligations.Repetition : Prop := Claims.RepetitionStarts ∧ Claims.Replays ∧ Claims.BehindAReplay

/-- Requests of the matrix unit and their guards. -/
def Obligations.MatrixInstructions : Prop := Claims.MatrixRequests ∧ Claims.MatrixGuards

/-- The matrix unit at work, its effects and its reads. -/
def Obligations.MatrixWork : Prop := Claims.MatrixUnit ∧ Claims.MatrixEffects ∧ Claims.TileReads

/-- Handle registers, gathers and scatters. -/
def Obligations.Handles : Prop := Claims.HandleRegisters ∧ Claims.Gathers ∧ Claims.Scatters

/-- The issue of copies and their guards. -/
def Obligations.Copies : Prop := Claims.CopyIssue ∧ Claims.CopyGuards

/-- Lines and events of copies. -/
def Obligations.CopyWork : Prop := Claims.CopyLines ∧ Claims.CopyEvents

/-- The shape of the context instructions, their targets, ctxinfo and reflect. -/
def Obligations.ContextForms : Prop := Claims.ContextOrder ∧ Claims.ContextTargets ∧ Claims.FaultReflection

/-- ctxstart, ctxstop, ctxsave, ctxload, ctxrevoke, and long operations. -/
def Obligations.ContextLife : Prop := Claims.ContextStarts ∧ Claims.ContextImages ∧ Claims.LongOperations

/-- ctxnew and ctxgrant. -/
def Obligations.ContextCreationAndGrants : Prop := Claims.ContextCreation ∧ Claims.ContextGrants

/-- Dispatchers, crews, slices and residency. -/
def Obligations.Scheduling : Prop := Claims.Dispatchers ∧ Claims.CrewStarts ∧ Claims.Residency

/-- The time base, power states and throttling. -/
def Obligations.TimeAndPower : Prop := Claims.TimeBase ∧ Claims.PowerStates ∧ Claims.Throttling

/-- Fault packets enter their queues; the accept table is written. -/
def Obligations.FaultQueues : Prop := Claims.FaultPackets ∧ Claims.AcceptTable

/-- Debug areas: release, retire and mirror writes. -/
def Obligations.DebugAreas : Prop := Claims.DebugCommands ∧ Claims.RetiredEntries

/-- The error log and the registers that a host writes. -/
def Obligations.LogAndRegisters : Prop := Claims.ErrorLog ∧ Claims.HostRegisters

/-- Virtual functions and the host window. -/
def Obligations.VirtualFunctionsAndWindows : Prop := Claims.VirtualFunctions ∧ Claims.HostWindow

/-- Page requests, translations and the host link. -/
def Obligations.HostBackedPages : Prop := Claims.PageRequests ∧ Claims.HostPages ∧ Claims.HostLink

/-- The management interface. -/
def Obligations.ManagementRequests : Prop := Claims.ManagementCreates ∧ Claims.Management

/-- Flits, retrains and status blocks of links. -/
def Obligations.Links : Prop := Claims.LinkFlits ∧ Claims.LinkRetrains ∧ Claims.LinkStatus

/-- Raw-frame ingress: frames and ingest blocks. -/
def Obligations.Ingress : Prop := Claims.Frames ∧ Claims.IngestBlocks

/-- R352, R452, R124: a push from a peer package acts under the lowest-numbered export that takes its offset and allows it: its bytes, or what an
atomic leaves, are stored at the export's base plus the offset, once no copy owns the line, and an atomic is answered with the old value; one that
no export takes, or whose context is Created or being reset, is refused with 1 or 4, and one that the exporting context's checks stop with 2 or 3
and a record. That a push for a Created context is refused and not kept is the model's choice (log 72; R472 allows both). -/
def Obligations.Peers : Prop :=
  ∀ (s : State) (p : PeerPush),
    let off := p.offset.toNat
    let answer (u : State) (k : Nat) : State := { u with peerOut := some k }
    (s.pushExport off = none → exec (.peerPushArrival p) s = .next (answer s 1)) ∧
    (∀ e c, s.pushExport off = some (e, c) →
      let a := e.d3 + BitVec.ofNat 64 (off - (e.d1.extractLsb' 0 44).toNat)
      let n := if p.amo.isSome || p.cas.isSome then 8 else p.body.length
      let away : Prop := (s.ctx c).st = .created ∨ (s.ctx (s.partitionOf c)).pno.toNat ∈ s.resetting
      ((e.d1.extractLsb' 0 44).toNat ≤ off ∧ off < (e.d2.extractLsb' 0 44).toNat ∧ e.d0.getLsbD 63 = true ∧ e.d0.getLsbD 62 = true) ∧
      (away → exec (.peerPushArrival p) s = .next (answer s 4)) ∧
      (¬ away →
        (let u := (s.pushPlaces c a n).1
         (∀ k, (s.pushPlaces c a n).2 = .error k →
           (k = 2 ∨ k = 3) ∧ exec (.peerPushArrival p) s = .next (answer (u.logRec 0 0 0 0 0 (u.ctxid c) 0) k)) ∧
         (∀ ts, (s.pushPlaces c a n).2 = .ok ts →
           let t := ts.headD (.mem 0)
           let old := BitVec.ofNat 64 (u.readAs c none t.place 8)
           (u.anyOwned ts = true ∨ u.pushAdmits ts = true → exec (.peerPushArrival p) s = .next s) ∧
           (u.anyOwned ts = false → u.pushAdmits ts = false →
             (p.amo = none → p.cas = none → exec (.peerPushArrival p) s = .next (answer (u.putEach c (ts.zip p.body)) 0)) ∧
             (∀ op v, p.amo = some (op, v) → exec (.peerPushArrival p) s =
               .next (answer ({ u with hostOut := [old] }.putEach c (ts.zip (toBytes 8 (amoAt t op old v).toNat))) 0)) ∧
             (∀ x v, p.amo = none → p.cas = some (x, v) → exec (.peerPushArrival p) s =
               .next (answer ({ u with hostOut := [old] }.putEach c (ts.zip (toBytes 8 (if old = x then v else old).toNat))) 0))))))
    )

/-- R376 to R379, R398: an error that its code corrects changes no value, counts at its location, which sixteen within 2^30 ticks make hard, and is
recorded; one that it cannot correct resets every owner of the state, and state of no owner is rewritten with zero; the scrubber does as an
access would (the model's readings, logs 64 and 65, are in it). -/
def Obligations.SoftErrorHandling : Prop :=
  ∀ (s : State) (x : Site) (c : Bool) (y : DWord),
    let h := s.hardLoc x
    let ticks := (h.ticks.filter fun t => decide (s.tick < t + 2 ^ 30)) ++ [s.tick]
    let sram := siteUnit x ≠ 0x0E ∧ siteUnit x ≠ 0x0F
    let hard := h.hard = true ∨ (sram ∧ 16 ≤ ticks.length)
    let refetch := siteUnit x = 0x05 ∨ siteUnit x = 0x07
    let scrubs := siteUnit x ∈ [0x08, 0x09, 0x0B, 0x0E, 0x0F]
    exec (.softErrorDetect { site := x, good := true, corrected := c, syn := y }) s = .next s ∧
    exec (.scrubRead { site := x, good := true, corrected := c, syn := y }) s = .next s ∧
    (scrubs → exec (.scrubRead { site := x, good := false, corrected := c, syn := y }) s =
      exec (.softErrorDetect { site := x, good := false, corrected := c, syn := y }) s) ∧
    (siteOk x = true →
      (∃ u, exec (.softErrorDetect { site := x, good := false, corrected := true, syn := y }) s = .next u ∧
        (u.hardLoc x).ticks = ticks ∧ (u.hardLoc x).count = h.count + 1 ∧ ((u.hardLoc x).hard = true ↔ hard) ∧
        (hard → h.hard = false → ∀ cl, siteCluster x = some cl → (u.cluster cl).failed = true) ∧
        (∃ sev wh ctx, u.log = s.log.add {
          sev := sev, unit := BitVec.ofNat 8 (siteUnit x), loc := BitVec.ofNat 16 (siteLoc x), seq := 0, tick := BitVec.ofNat 64 s.tick,
          wh := wh, ctx := ctx, syn := y, fclass := 0, action := if refetch then 2 else 1, count := BitVec.ofNat 64 (h.count.toNat + 1) } ∧
          (sev = 1 ↔ hard ∧ h.hard = false)) ∧
        u = { s with hard := u.hard, clusters := u.clusters, log := u.log }) ∧
      (refetch → exec (.softErrorDetect { site := x, good := false, corrected := false, syn := y }) s = .next s) ∧
      (¬ refetch → ∃ u, exec (.softErrorDetect { site := x, good := false, corrected := false, syn := y }) s = .next u ∧
        (h.failed = true → s.rewrittenAt h = true → (u.hardLoc x).hard = true ∧
          (h.hard = false → ∀ cl, siteCluster x = some cl → (u.cluster cl).failed = true)) ∧
        (s.owners x ≠ [] → ∀ p ∈ s.owners x, (s.ctx p).pno.toNat ∈ u.resetting) ∧
        (s.owners x = [] → Inv s → u.resetting = s.resetting ∧ (∀ a n, sitePlace x = some (a, n) →
          (∀ i, i < n → u.byte (a + i) = 0) ∧ (∀ b, ¬ (a ≤ b ∧ b < a + n) → u.byte b = s.byte b))) ∧
        (∀ p, s.owners x = [p] → (s.ctx p).pno.toNat ∉ s.resetting → ∃ sev unit loc wh, u.log = s.log.add {
          sev := sev, unit := unit, loc := loc, seq := 0, tick := BitVec.ofNat 64 s.tick, wh := wh, ctx := s.ctxid p, syn := y,
          fclass := 0, action := 3, count := BitVec.ofNat 64 h.count.toNat } ∧ sev = 2)))

/-- The reset of a partition: its steps, and what it leaves. -/
def Obligations.PartitionResets : Prop := Claims.PartitionResetSteps ∧ Claims.PartitionResetLeaves

/-- Restart points and function-level resets. -/
def Obligations.Resets : Prop := Claims.RestartPoints ∧ Claims.FunctionResets

/-- Start-up, recovery, and the end of power. -/
def Obligations.StartUpAndRecovery : Prop := Claims.StartUp ∧ Claims.TrustDie

/-- R159, R400, R401, R402: a step at a core whose selected fibre has the words of an instruction at its PC is that instruction's `exec`, in the state that
names the unit: a lone word, or a pair whose A word is named beside the C word; and the turn passes on. Words in the wrong place
stop the unit with PLACE: its reason, and the address of the offending word. A step that the agenda names, and that
has no encoding, is that step's `exec` (DESIGN CHOICE, log 1), as is, at a tick boundary, the start of a crew that is ready (R325). R480: out of normal mode nothing runs but what starts the part. -/
def Obligations.StepRunsDecoded : Prop :=
  ∀ (s : State) (n ctx e : Nat) (rest : List Move),
    (s.boot.mode ≠ 0 →
      (s.agenda = [] → step s = .fault .halted) ∧ (s.agenda = .core n :: rest → step s = .next { s with edge := false, agenda := rest }) ∧
      (∀ i, s.agenda = .event i :: rest → startsUp i = false → step s = .next { s with edge := false, agenda := rest })) ∧
    (s.boot.mode = 0 → ∀ i, s.atEdge = some i → step s = exec i s) ∧
    (s.boot.mode = 0 → s.atEdge = none →
    (∀ i, s.agenda = .event i :: rest → Instr.namedStep i = true → step s = exec i { s with edge := false, agenda := rest }) ∧
    (s.agenda = .core n :: rest → (s.core n).res = some ctx → (s.core n).power = .active → s.closingOn (n / 9) ctx = false →
      s.issuing n = some ctx → ∀ es,
      let t : State := { s with edge := false, agenda := rest }.wake n ctx
      let pc := ((t.img n ctx).fibre e).pc
      let u : UnitCtx := { core := n, ctx := ctx, entry := e, pc := pc, unitEnd := pc + 4 }
      let runs (i : Instr) (v : State) : Prop := v.heldBack i = false →
        let r : State := { v with lull := false }
        step s = exec i (if r.unitWaits i then r else { r with turn := n + 1 }.ageOthers n ctx e)
      t.selectOrder n ctx = e :: es →
      (∀ v w i, t.fetchWord n ctx pc = .ok (v, w) → w.getLsbD 31 = true → decodeWord w = .ok i →
        runs i { v with unit := { u with word := w } }) ∧
      (∀ v v2 w w2 i j, t.fetchWord n ctx pc = .ok (v, w) → pc.toNat % 8 = 0 → w.getLsbD 31 = false → w.getLsbD 30 = false →
        v.fetchWord n ctx (pc + 4) = .ok (v2, w2) → w2.getLsbD 31 = false → w2.getLsbD 30 = true →
        decodeWord w = .ok i → decodeWord w2 = .ok j →
        runs i { v2 with unit := { u with word := w, other := w2, unitEnd := pc + 8, pair := some j } }) ∧
      (∀ v w r, t.fetchWord n ctx pc = .ok (v, w) → w.getLsbD 31 = true → decodeWord w = .error r →
        step s = exec (.notAnInstruction r 0) (({ { v with unit := { u with word := w } } with turn := n + 1 }).ageOthers n ctx e)) ∧
      (let place (v : State) (x : UnitCtx) (reason : Nat) (a : DWord) : Prop :=
         step s = .next (({ v with unit := x, turn := n + 1 }.stopUnit x.wh (.trap .place a (BitVec.ofNat 64 reason))).ageOthers n ctx e)
       (∀ v w, t.fetchWord n ctx pc = .ok (v, w) → w.getLsbD 31 = false → w.getLsbD 30 = true → place v { u with word := w } 1 pc) ∧
       (∀ v w, t.fetchWord n ctx pc = .ok (v, w) → w ≠ 0 → w.getLsbD 31 = false → w.getLsbD 30 = false → pc.toNat % 8 ≠ 0 →
         place v { u with word := w } 2 pc) ∧
       (∀ v v2 w w2, t.fetchWord n ctx pc = .ok (v, w) → w ≠ 0 → w.getLsbD 31 = false → w.getLsbD 30 = false → pc.toNat % 8 = 0 →
         v.fetchWord n ctx (pc + 4) = .ok (v2, w2) → w2 ≠ 0 → w2 ≠ 0xFFFFFFFF → (w2.getLsbD 31 = true ∨ w2.getLsbD 30 = false) →
         place v2 { u with word := w, other := w2, unitEnd := pc + 8, wh := 1 } 3 (pc + 4))) ∧
      (∀ x, t.fetchWord n ctx pc = .error x →
        step s = exec .instructionFetchFault (({ t with unit := u, turn := n + 1 }).ageOthers n ctx e))))

/-- R159, R163 to R168, R401: the worked examples of the encoding chapters: words, and the instructions that they stand for; words that stand for
none, two of them with their reasons. -/
def Obligations.SampleWords : Prop :=
  (∀ p ∈ sampleWords, decodeTableWord 32 p.1 = some p.2) ∧
  (∀ w ∈ [0xA62B_0500, 0xB700_4501, 0xC408_830A], decodeTableWord 32 w = none) ∧
  decodeWord 0#32 = .error 1 ∧ decodeWord 0xFFFFFFFF#32 = .error 2

/-- R159 to R168: the decoder reads back every well-formed instruction from its word, with every operand. -/
def Obligations.EncodeDecode : Prop := ∀ (l : Bool) (i : Instr), i.wf = true → decodeWord (encode l i) = .ok i ∧ wLone (encode l i) = l

/-- R159, R168, R401: each word that stands for an instruction is the one word of that instruction, which is well formed: no bit of it is ignored. -/
def Obligations.DecodeEncode : Prop := ∀ (w : Word) (i : Instr), decodeWord w = .ok i → i.wf = true ∧ encode (wLone w) i = w

/-- The state after start-up, with its memory in canonical form. -/
def Obligations.ResetState : Prop := Claims.ResetValues ∧ Claims.ResetInvariant

/-- Log 2: every step leaves the memory in its canonical form, in any state that has it so. -/
def Obligations.StepKeepsInvariant : Prop := ∀ (s t : State), Inv s → step s = .next t → Inv t
end

