-- ==== Sys2Proof/Laws/Encoding.lean ====
section
/-! SUPPORT. The fields of an encoded word: what the decoder's field reads give on the encoder's formats, and what the codes
of the named operands give back. -/
namespace Sys2Proof

/-! ### Fields of joined bit vectors -/

theorem ext_hi {m n : Nat} (a : BitVec m) (b : BitVec n) (lo len : Nat) (h : n ≤ lo) :
    (a ++ b).extractLsb' lo len = a.extractLsb' (lo - n) len := by
  apply BitVec.eq_of_getLsbD_eq
  intro i hi
  simp only [BitVec.getLsbD_extractLsb', BitVec.getLsbD_append, show ¬ (lo + i < n) by omega, hi, decide_true, Bool.true_and,
    if_false]
  simp [show lo + i - n = lo - n + i by omega]

theorem ext_lo {m n : Nat} (a : BitVec m) (b : BitVec n) (lo len : Nat) (h : lo + len ≤ n) :
    (a ++ b).extractLsb' lo len = b.extractLsb' lo len := by
  apply BitVec.eq_of_getLsbD_eq
  intro i hi
  simp only [BitVec.getLsbD_extractLsb', BitVec.getLsbD_append, show lo + i < n by omega, hi, decide_true, Bool.true_and, if_true]

theorem get_hi {m n : Nat} (a : BitVec m) (b : BitVec n) (i : Nat) (h : n ≤ i) : (a ++ b).getLsbD i = a.getLsbD (i - n) := by
  simp [BitVec.getLsbD_append, show ¬ (i < n) by omega]

theorem get_lo {m n : Nat} (a : BitVec m) (b : BitVec n) (i : Nat) (h : i < n) : (a ++ b).getLsbD i = b.getLsbD i := by
  simp [BitVec.getLsbD_append, h]

theorem ext_all {n : Nat} (a : BitVec n) : a.extractLsb' 0 n = a := by simp

theorem get_bool (b : Bool) : (BitVec.ofBool b).getLsbD 0 = b := by cases b <;> rfl

/-! ### The top byte of every format (R159) -/

section Top
variable (l k : Bool) (maj : BitVec 6)

theorem lone_CX (rd : Reg) (a b : BitVec 6) (fn : BitVec 7) : wLone (encCX (encTop l k maj) rd a b fn) = l := by
  simp only [encCX, encTop, wLone]; simp (disch := decide) only [get_hi]; exact get_bool _
theorem class_CX (rd : Reg) (a b : BitVec 6) (fn : BitVec 7) : wClass (encCX (encTop l k maj) rd a b fn) = k := by
  simp only [encCX, encTop, wClass]; simp (disch := decide) only [get_hi, get_lo]; exact get_bool _
theorem major_CX (rd : Reg) (a b : BitVec 6) (fn : BitVec 7) : wMajor (encCX (encTop l k maj) rd a b fn) = maj := by
  simp only [encCX, encTop, wMajor]; simp (disch := decide) only [ext_hi, ext_lo]; exact ext_all _
theorem lone_CI (rd : Reg) (a : BitVec 6) (i : BitVec 13) : wLone (encCI (encTop l k maj) rd a i) = l := by
  simp only [encCI, encTop, wLone]; simp (disch := decide) only [get_hi]; exact get_bool _
theorem class_CI (rd : Reg) (a : BitVec 6) (i : BitVec 13) : wClass (encCI (encTop l k maj) rd a i) = k := by
  simp only [encCI, encTop, wClass]; simp (disch := decide) only [get_hi, get_lo]; exact get_bool _
theorem major_CI (rd : Reg) (a : BitVec 6) (i : BitVec 13) : wMajor (encCI (encTop l k maj) rd a i) = maj := by
  simp only [encCI, encTop, wMajor]; simp (disch := decide) only [ext_hi, ext_lo]; exact ext_all _
theorem lone_CB (a : Reg) (d : BitVec 19) : wLone (encCB (encTop l k maj) a d) = l := by
  simp only [encCB, encTop, wLone]; simp (disch := decide) only [get_hi]; exact get_bool _
theorem class_CB (a : Reg) (d : BitVec 19) : wClass (encCB (encTop l k maj) a d) = k := by
  simp only [encCB, encTop, wClass]; simp (disch := decide) only [get_hi, get_lo]; exact get_bool _
theorem major_CB (a : Reg) (d : BitVec 19) : wMajor (encCB (encTop l k maj) a d) = maj := by
  simp only [encCB, encTop, wMajor]; simp (disch := decide) only [ext_hi, ext_lo]; exact ext_all _
theorem lone_CL (c d : BitVec 12) : wLone (encCL (encTop l k maj) c d) = l := by
  simp only [encCL, encTop, wLone]; simp (disch := decide) only [get_hi]; exact get_bool _
theorem class_CL (c d : BitVec 12) : wClass (encCL (encTop l k maj) c d) = k := by
  simp only [encCL, encTop, wClass]; simp (disch := decide) only [get_hi, get_lo]; exact get_bool _
theorem major_CL (c d : BitVec 12) : wMajor (encCL (encTop l k maj) c d) = maj := by
  simp only [encCL, encTop, wMajor]; simp (disch := decide) only [ext_hi, ext_lo]; exact ext_all _
theorem lone_CM (rt : Reg) (m : MemOp) (ft : Bool) (sc : BitVec 3) (ga : Bool) :
    wLone (encCM (encTop l k maj) rt m ft sc ga) = l := by
  cases m <;> simp only [encCM, encTop, wLone] <;> simp (disch := decide) only [get_hi] <;> exact get_bool _
theorem class_CM (rt : Reg) (m : MemOp) (ft : Bool) (sc : BitVec 3) (ga : Bool) :
    wClass (encCM (encTop l k maj) rt m ft sc ga) = k := by
  cases m <;> simp only [encCM, encTop, wClass] <;> simp (disch := decide) only [get_hi, get_lo] <;> exact get_bool _
theorem major_CM (rt : Reg) (m : MemOp) (ft : Bool) (sc : BitVec 3) (ga : Bool) :
    wMajor (encCM (encTop l k maj) rt m ft sc ga) = maj := by
  cases m <;> simp only [encCM, encTop, wMajor] <;> simp (disch := decide) only [ext_hi, ext_lo] <;> exact ext_all _

end Top

/-! ### The fields of each format (R163, R164) -/

section Fields
variable (t : BitVec 8)

theorem rd_CX (rd : Reg) (a b : BitVec 6) (fn : BitVec 7) : wRd (encCX t rd a b fn) = rd := by
  simp only [encCX, wRd]; simp (disch := decide) only [ext_hi, ext_lo]; exact ext_all _
theorem sa_CX (rd : Reg) (a : Src) (b : BitVec 6) (fn : BitVec 7) : wSa (encCX t rd (encSrc a) b fn) = a := by
  simp only [encCX, encSrc, wSa]; simp (disch := decide) only [ext_hi, ext_lo, get_hi, get_lo]; simp
theorem sb_CX (rd : Reg) (a : BitVec 6) (b : Src) (fn : BitVec 7) : wSb (encCX t rd a (encSrc b) fn) = b := by
  simp only [encCX, encSrc, wSb]; simp (disch := decide) only [ext_hi, ext_lo, get_hi, get_lo]; simp
theorem fn_CX (rd : Reg) (a b : BitVec 6) (fn : BitVec 7) : wFn (encCX t rd a b fn) = fn := by
  simp only [encCX, wFn]; simp (disch := decide) only [ext_hi, ext_lo]; exact ext_all _
theorem rd_CI (rd : Reg) (a : BitVec 6) (i : BitVec 13) : wRd (encCI t rd a i) = rd := by
  simp only [encCI, wRd]; simp (disch := decide) only [ext_hi, ext_lo]; exact ext_all _
theorem sa_CI (rd : Reg) (a : Src) (i : BitVec 13) : wSa (encCI t rd (encSrc a) i) = a := by
  simp only [encCI, encSrc, wSa]; simp (disch := decide) only [ext_hi, ext_lo, get_hi, get_lo]; simp
theorem imm_CI (rd : Reg) (a : BitVec 6) (i : BitVec 13) : wImm13 (encCI t rd a i) = i := by
  simp only [encCI, wImm13]; simp (disch := decide) only [ext_hi, ext_lo]; exact ext_all _
theorem rd_CB (a : Reg) (d : BitVec 19) : wRd (encCB t a d) = a := by
  simp only [encCB, wRd]; simp (disch := decide) only [ext_hi, ext_lo]; exact ext_all _
theorem disp_CB (a : Reg) (d : BitVec 19) : wDisp19 (encCB t a d) = d := by
  simp only [encCB, wDisp19]; simp (disch := decide) only [ext_hi, ext_lo]; exact ext_all _
theorem count_CL (c d : BitVec 12) : (encCL t c d).extractLsb' 12 12 = c := by
  simp only [encCL]; simp (disch := decide) only [ext_hi, ext_lo]; exact ext_all _
theorem disp_CL (c d : BitVec 12) : (encCL t c d).extractLsb' 0 12 = d := by
  simp only [encCL]; simp (disch := decide) only [ext_hi, ext_lo]; exact ext_all _

variable (rt : Reg) (m : MemOp) (ft ga : Bool) (sc : BitVec 3)

theorem rd_CM : wRd (encCM t rt m ft sc ga) = rt := by
  cases m <;> simp only [encCM, wRd] <;> simp (disch := decide) only [ext_hi, ext_lo] <;> exact ext_all _
/-- R163: the memory operand. -/
theorem mem_CM : wMem (encCM t rt m ft sc ga) = m := by
  cases m <;> simp only [encCM, encSrc, wMem, wSa] <;>
    simp (disch := decide) only [ext_hi, ext_lo, ext_all, get_hi, get_lo, get_bool] <;> simp
theorem ft_CM : (encCM t rt m ft sc ga).getLsbD 12 = ft := by
  cases m <;> simp only [encCM] <;> simp (disch := decide) only [get_hi, get_lo] <;> exact get_bool _
theorem sc_CM : (encCM t rt m ft sc ga).extractLsb' 9 3 = sc := by
  cases m <;> simp only [encCM] <;> simp (disch := decide) only [ext_hi, ext_lo] <;> exact ext_all _
theorem ga_CM : (encCM t rt m ft sc ga).getLsbD 8 = ga := by
  cases m <;> simp only [encCM] <;> simp (disch := decide) only [get_hi, get_lo] <;> exact get_bool _

end Fields

/-! ### The codes of the named operands -/

@[simp] theorem Scope.ofCode_code (x : Scope) : Scope.ofCode x.code = some x := by cases x <;> rfl
@[simp] theorem StMode.ofCode_code (x : StMode) : StMode.ofCode x.code = x := by cases x <;> rfl
@[simp] theorem Fmt.ofCode_code (x : Fmt) : Fmt.ofCode x.code = x := by cases x <;> rfl
@[simp] theorem CmpCond.ofCode_code (x : CmpCond) : CmpCond.ofCode (0#1 ++ x.code) = some x := by cases x <;> rfl
@[simp] theorem Combine.ofCode_code (x : Combine) : Combine.ofCode x.code = some x := by cases x <;> rfl
@[simp] theorem AmoOp.ofCode_code (x : AmoOp) : AmoOp.ofCode x.code = some x := by cases x <;> rfl
@[simp] theorem VCond.ofCode_code (x : VCond) : VCond.ofCode x.code = x := by cases x <;> rfl
@[simp] theorem ScatOp.ofCode_code (x : ScatOp) : ScatOp.ofCode x.code = x := by cases x <;> rfl

/-- A scope that a code names has that code. -/
theorem Scope.code_ofCode {c : BitVec 3} {x : Scope} (h : Scope.ofCode c = some x) : x.code = c := by
  revert h; revert c; cases x <;> decide

/-! ### The end of decoding (R401) -/

theorem decFin_ok {bad res : Bool} {i j : Instr} : decFin bad res i = .ok j ↔
    bad = false ∧ res = false ∧ i.valOk = true ∧ i.resOk = true ∧ i.modeOk = true ∧ i = j := by
  simp only [decFin]
  cases bad <;> cases res <;> cases i.valOk <;> cases i.resOk <;> cases i.modeOk <;> simp

end Sys2Proof
end

