-- ==== Sys2Proof/Laws/Tab.lean ====
section
/-! SUPPORT. Tables: what a read after an update gives. -/
namespace Sys2Proof.Machine

variable {α : Type}

@[simp] theorem tget_tset_self (t : Tab α) (n : Nat) (x : α) : tget (tset t n x) n = some x := by
  induction t with
  | nil => simp [tset, tget]
  | cons p t ih =>
    obtain ⟨k, v⟩ := p
    simp only [tset]
    split
    · simp [tget]
    · split
      · simp [tget]
      · next h1 h2 => simp [tget, h1, h2, ih]

/-- A table's other entries stand. -/
@[simp] theorem tget_tset_ne (t : Tab α) {n m : Nat} (x : α) (h : m ≠ n) : tget (tset t n x) m = tget t m := by
  induction t with
  | nil => simp only [tset, tget]; split <;> simp_all
  | cons p t ih =>
    obtain ⟨k, v⟩ := p
    simp only [tset]
    split
    · next e => subst e; simp only [tget, if_neg h]
    · split
      · next h1 h2 =>
        simp only [tget]
        (repeat' split) <;> first | rfl | omega
      · next h1 h2 => simp only [tget, ih]

end Sys2Proof.Machine
end

