-- ==== Sys2Proof/Laws/State.lean ====
section
/-! SUPPORT. One lemma for each field under each update of a table of the state, and what a read after the update gives. -/
namespace Sys2Proof.Machine

variable (s : State)

@[simp] theorem State.setCore_agenda (n : Nat) (c : Core) : (s.setCore n c).agenda = s.agenda := rfl
@[simp] theorem State.setCore_fresh (n : Nat) (c : Core) : (s.setCore n c).fresh = s.fresh := rfl
@[simp] theorem State.setCore_turn (n : Nat) (c : Core) : (s.setCore n c).turn = s.turn := rfl
@[simp] theorem State.setCore_cycle (n : Nat) (c : Core) : (s.setCore n c).cycle = s.cycle := rfl
@[simp] theorem State.setCore_lull (n : Nat) (c : Core) : (s.setCore n c).lull = s.lull := rfl
@[simp] theorem State.setCore_edge (n : Nat) (c : Core) : (s.setCore n c).edge = s.edge := rfl
@[simp] theorem State.setCore_unit (n : Nat) (c : Core) : (s.setCore n c).unit = s.unit := rfl
@[simp] theorem State.setCore_lookups (n : Nat) (c : Core) : (s.setCore n c).lookups = s.lookups := rfl
@[simp] theorem State.setCore_tick (n : Nat) (c : Core) : (s.setCore n c).tick = s.tick := rfl
@[simp] theorem State.setCore_dies (n : Nat) (c : Core) : (s.setCore n c).dies = s.dies := rfl
@[simp] theorem State.setCore_mem (n : Nat) (c : Core) : (s.setCore n c).mem = s.mem := rfl
@[simp] theorem State.setCore_lost (n : Nat) (c : Core) : (s.setCore n c).lost = s.lost := rfl
@[simp] theorem State.setCore_keyed (n : Nat) (c : Core) : (s.setCore n c).keyed = s.keyed := rfl
@[simp] theorem State.setCore_imgs (n : Nat) (c : Core) : (s.setCore n c).imgs = s.imgs := rfl
@[simp] theorem State.setCore_clusters (n : Nat) (c : Core) : (s.setCore n c).clusters = s.clusters := rfl
@[simp] theorem State.setCore_quads (n : Nat) (c : Core) : (s.setCore n c).quads = s.quads := rfl
@[simp] theorem State.setCore_die (n : Nat) (c : Core) : (s.setCore n c).die = s.die := rfl
@[simp] theorem State.setCore_ctxs (n : Nat) (c : Core) : (s.setCore n c).ctxs = s.ctxs := rfl
@[simp] theorem State.setCore_gens (n : Nat) (c : Core) : (s.setCore n c).gens = s.gens := rfl
@[simp] theorem State.setCore_queues (n : Nat) (c : Core) : (s.setCore n c).queues = s.queues := rfl
@[simp] theorem State.setCore_qgens (n : Nat) (c : Core) : (s.setCore n c).qgens = s.qgens := rfl
@[simp] theorem State.setCore_sems (n : Nat) (c : Core) : (s.setCore n c).sems = s.sems := rfl
@[simp] theorem State.setCore_saves (n : Nat) (c : Core) : (s.setCore n c).saves = s.saves := rfl
@[simp] theorem State.setCore_flights (n : Nat) (c : Core) : (s.setCore n c).flights = s.flights := rfl
@[simp] theorem State.setCore_stores (n : Nat) (c : Core) : (s.setCore n c).stores = s.stores := rfl
@[simp] theorem State.setCore_undone (n : Nat) (c : Core) : (s.setCore n c).undone = s.undone := rfl
@[simp] theorem State.setCore_rels (n : Nat) (c : Core) : (s.setCore n c).rels = s.rels := rfl
@[simp] theorem State.setCore_wbars (n : Nat) (c : Core) : (s.setCore n c).wbars = s.wbars := rfl
@[simp] theorem State.setCore_copies (n : Nat) (c : Core) : (s.setCore n c).copies = s.copies := rfl
@[simp] theorem State.setCore_launches (n : Nat) (c : Core) : (s.setCore n c).launches = s.launches := rfl
@[simp] theorem State.setCore_late (n : Nat) (c : Core) : (s.setCore n c).late = s.late := rfl
@[simp] theorem State.setCore_launchFifo (n : Nat) (c : Core) : (s.setCore n c).launchFifo = s.launchFifo := rfl
@[simp] theorem State.setCore_msgs (n : Nat) (c : Core) : (s.setCore n c).msgs = s.msgs := rfl
@[simp] theorem State.setCore_links (n : Nat) (c : Core) : (s.setCore n c).links = s.links := rfl
@[simp] theorem State.setCore_ports (n : Nat) (c : Core) : (s.setCore n c).ports = s.ports := rfl
@[simp] theorem State.setCore_hosts (n : Nat) (c : Core) : (s.setCore n c).hosts = s.hosts := rfl
@[simp] theorem State.setCore_vfs (n : Nat) (c : Core) : (s.setCore n c).vfs = s.vfs := rfl
@[simp] theorem State.setCore_routes (n : Nat) (c : Core) : (s.setCore n c).routes = s.routes := rfl
@[simp] theorem State.setCore_exports (n : Nat) (c : Core) : (s.setCore n c).exports = s.exports := rfl
@[simp] theorem State.setCore_pkg (n : Nat) (c : Core) : (s.setCore n c).pkg = s.pkg := rfl
@[simp] theorem State.setCore_log (n : Nat) (c : Core) : (s.setCore n c).log = s.log := rfl
@[simp] theorem State.setCore_saved (n : Nat) (c : Core) : (s.setCore n c).saved = s.saved := rfl
@[simp] theorem State.setCore_boot (n : Nat) (c : Core) : (s.setCore n c).boot = s.boot := rfl
@[simp] theorem State.setCore_hard (n : Nat) (c : Core) : (s.setCore n c).hard = s.hard := rfl
@[simp] theorem State.setCore_rpoints (n : Nat) (c : Core) : (s.setCore n c).rpoints = s.rpoints := rfl
@[simp] theorem State.setCore_rintervals (n : Nat) (c : Core) : (s.setCore n c).rintervals = s.rintervals := rfl
@[simp] theorem State.setCore_rareas (n : Nat) (c : Core) : (s.setCore n c).rareas = s.rareas := rfl
@[simp] theorem State.setCore_flrs (n : Nat) (c : Core) : (s.setCore n c).flrs = s.flrs := rfl
@[simp] theorem State.setCore_isolated (n : Nat) (c : Core) : (s.setCore n c).isolated = s.isolated := rfl
@[simp] theorem State.setCore_resetting (n : Nat) (c : Core) : (s.setCore n c).resetting = s.resetting := rfl
@[simp] theorem State.setCore_hostOut (n : Nat) (c : Core) : (s.setCore n c).hostOut = s.hostOut := rfl
@[simp] theorem State.setCore_peerOut (n : Nat) (c : Core) : (s.setCore n c).peerOut = s.peerOut := rfl

@[simp] theorem State.setImg_agenda (k x : Nat) (i : Img) : (s.setImg k x i).agenda = s.agenda := rfl
@[simp] theorem State.setImg_fresh (k x : Nat) (i : Img) : (s.setImg k x i).fresh = s.fresh := rfl
@[simp] theorem State.setImg_turn (k x : Nat) (i : Img) : (s.setImg k x i).turn = s.turn := rfl
@[simp] theorem State.setImg_cycle (k x : Nat) (i : Img) : (s.setImg k x i).cycle = s.cycle := rfl
@[simp] theorem State.setImg_lull (k x : Nat) (i : Img) : (s.setImg k x i).lull = s.lull := rfl
@[simp] theorem State.setImg_edge (k x : Nat) (i : Img) : (s.setImg k x i).edge = s.edge := rfl
@[simp] theorem State.setImg_unit (k x : Nat) (i : Img) : (s.setImg k x i).unit = s.unit := rfl
@[simp] theorem State.setImg_lookups (k x : Nat) (i : Img) : (s.setImg k x i).lookups = s.lookups := rfl
@[simp] theorem State.setImg_tick (k x : Nat) (i : Img) : (s.setImg k x i).tick = s.tick := rfl
@[simp] theorem State.setImg_dies (k x : Nat) (i : Img) : (s.setImg k x i).dies = s.dies := rfl
@[simp] theorem State.setImg_mem (k x : Nat) (i : Img) : (s.setImg k x i).mem = s.mem := rfl
@[simp] theorem State.setImg_lost (k x : Nat) (i : Img) : (s.setImg k x i).lost = s.lost := rfl
@[simp] theorem State.setImg_keyed (k x : Nat) (i : Img) : (s.setImg k x i).keyed = s.keyed := rfl
@[simp] theorem State.setImg_cores (k x : Nat) (i : Img) : (s.setImg k x i).cores = s.cores := rfl
@[simp] theorem State.setImg_clusters (k x : Nat) (i : Img) : (s.setImg k x i).clusters = s.clusters := rfl
@[simp] theorem State.setImg_quads (k x : Nat) (i : Img) : (s.setImg k x i).quads = s.quads := rfl
@[simp] theorem State.setImg_die (k x : Nat) (i : Img) : (s.setImg k x i).die = s.die := rfl
@[simp] theorem State.setImg_ctxs (k x : Nat) (i : Img) : (s.setImg k x i).ctxs = s.ctxs := rfl
@[simp] theorem State.setImg_gens (k x : Nat) (i : Img) : (s.setImg k x i).gens = s.gens := rfl
@[simp] theorem State.setImg_queues (k x : Nat) (i : Img) : (s.setImg k x i).queues = s.queues := rfl
@[simp] theorem State.setImg_qgens (k x : Nat) (i : Img) : (s.setImg k x i).qgens = s.qgens := rfl
@[simp] theorem State.setImg_sems (k x : Nat) (i : Img) : (s.setImg k x i).sems = s.sems := rfl
@[simp] theorem State.setImg_saves (k x : Nat) (i : Img) : (s.setImg k x i).saves = s.saves := rfl
@[simp] theorem State.setImg_flights (k x : Nat) (i : Img) : (s.setImg k x i).flights = s.flights := rfl
@[simp] theorem State.setImg_stores (k x : Nat) (i : Img) : (s.setImg k x i).stores = s.stores := rfl
@[simp] theorem State.setImg_undone (k x : Nat) (i : Img) : (s.setImg k x i).undone = s.undone := rfl
@[simp] theorem State.setImg_rels (k x : Nat) (i : Img) : (s.setImg k x i).rels = s.rels := rfl
@[simp] theorem State.setImg_wbars (k x : Nat) (i : Img) : (s.setImg k x i).wbars = s.wbars := rfl
@[simp] theorem State.setImg_copies (k x : Nat) (i : Img) : (s.setImg k x i).copies = s.copies := rfl
@[simp] theorem State.setImg_launches (k x : Nat) (i : Img) : (s.setImg k x i).launches = s.launches := rfl
@[simp] theorem State.setImg_late (k x : Nat) (i : Img) : (s.setImg k x i).late = s.late := rfl
@[simp] theorem State.setImg_launchFifo (k x : Nat) (i : Img) : (s.setImg k x i).launchFifo = s.launchFifo := rfl
@[simp] theorem State.setImg_msgs (k x : Nat) (i : Img) : (s.setImg k x i).msgs = s.msgs := rfl
@[simp] theorem State.setImg_links (k x : Nat) (i : Img) : (s.setImg k x i).links = s.links := rfl
@[simp] theorem State.setImg_ports (k x : Nat) (i : Img) : (s.setImg k x i).ports = s.ports := rfl
@[simp] theorem State.setImg_hosts (k x : Nat) (i : Img) : (s.setImg k x i).hosts = s.hosts := rfl
@[simp] theorem State.setImg_vfs (k x : Nat) (i : Img) : (s.setImg k x i).vfs = s.vfs := rfl
@[simp] theorem State.setImg_routes (k x : Nat) (i : Img) : (s.setImg k x i).routes = s.routes := rfl
@[simp] theorem State.setImg_exports (k x : Nat) (i : Img) : (s.setImg k x i).exports = s.exports := rfl
@[simp] theorem State.setImg_pkg (k x : Nat) (i : Img) : (s.setImg k x i).pkg = s.pkg := rfl
@[simp] theorem State.setImg_log (k x : Nat) (i : Img) : (s.setImg k x i).log = s.log := rfl
@[simp] theorem State.setImg_saved (k x : Nat) (i : Img) : (s.setImg k x i).saved = s.saved := rfl
@[simp] theorem State.setImg_boot (k x : Nat) (i : Img) : (s.setImg k x i).boot = s.boot := rfl
@[simp] theorem State.setImg_hard (k x : Nat) (i : Img) : (s.setImg k x i).hard = s.hard := rfl
@[simp] theorem State.setImg_rpoints (k x : Nat) (i : Img) : (s.setImg k x i).rpoints = s.rpoints := rfl
@[simp] theorem State.setImg_rintervals (k x : Nat) (i : Img) : (s.setImg k x i).rintervals = s.rintervals := rfl
@[simp] theorem State.setImg_rareas (k x : Nat) (i : Img) : (s.setImg k x i).rareas = s.rareas := rfl
@[simp] theorem State.setImg_flrs (k x : Nat) (i : Img) : (s.setImg k x i).flrs = s.flrs := rfl
@[simp] theorem State.setImg_isolated (k x : Nat) (i : Img) : (s.setImg k x i).isolated = s.isolated := rfl
@[simp] theorem State.setImg_resetting (k x : Nat) (i : Img) : (s.setImg k x i).resetting = s.resetting := rfl
@[simp] theorem State.setImg_hostOut (k x : Nat) (i : Img) : (s.setImg k x i).hostOut = s.hostOut := rfl
@[simp] theorem State.setImg_peerOut (k x : Nat) (i : Img) : (s.setImg k x i).peerOut = s.peerOut := rfl

@[simp] theorem State.setCluster_agenda (n : Nat) (c : Cluster) : (s.setCluster n c).agenda = s.agenda := rfl
@[simp] theorem State.setCluster_fresh (n : Nat) (c : Cluster) : (s.setCluster n c).fresh = s.fresh := rfl
@[simp] theorem State.setCluster_turn (n : Nat) (c : Cluster) : (s.setCluster n c).turn = s.turn := rfl
@[simp] theorem State.setCluster_cycle (n : Nat) (c : Cluster) : (s.setCluster n c).cycle = s.cycle := rfl
@[simp] theorem State.setCluster_lull (n : Nat) (c : Cluster) : (s.setCluster n c).lull = s.lull := rfl
@[simp] theorem State.setCluster_edge (n : Nat) (c : Cluster) : (s.setCluster n c).edge = s.edge := rfl
@[simp] theorem State.setCluster_unit (n : Nat) (c : Cluster) : (s.setCluster n c).unit = s.unit := rfl
@[simp] theorem State.setCluster_lookups (n : Nat) (c : Cluster) : (s.setCluster n c).lookups = s.lookups := rfl
@[simp] theorem State.setCluster_tick (n : Nat) (c : Cluster) : (s.setCluster n c).tick = s.tick := rfl
@[simp] theorem State.setCluster_dies (n : Nat) (c : Cluster) : (s.setCluster n c).dies = s.dies := rfl
@[simp] theorem State.setCluster_mem (n : Nat) (c : Cluster) : (s.setCluster n c).mem = s.mem := rfl
@[simp] theorem State.setCluster_lost (n : Nat) (c : Cluster) : (s.setCluster n c).lost = s.lost := rfl
@[simp] theorem State.setCluster_keyed (n : Nat) (c : Cluster) : (s.setCluster n c).keyed = s.keyed := rfl
@[simp] theorem State.setCluster_cores (n : Nat) (c : Cluster) : (s.setCluster n c).cores = s.cores := rfl
@[simp] theorem State.setCluster_imgs (n : Nat) (c : Cluster) : (s.setCluster n c).imgs = s.imgs := rfl
@[simp] theorem State.setCluster_quads (n : Nat) (c : Cluster) : (s.setCluster n c).quads = s.quads := rfl
@[simp] theorem State.setCluster_die (n : Nat) (c : Cluster) : (s.setCluster n c).die = s.die := rfl
@[simp] theorem State.setCluster_ctxs (n : Nat) (c : Cluster) : (s.setCluster n c).ctxs = s.ctxs := rfl
@[simp] theorem State.setCluster_gens (n : Nat) (c : Cluster) : (s.setCluster n c).gens = s.gens := rfl
@[simp] theorem State.setCluster_queues (n : Nat) (c : Cluster) : (s.setCluster n c).queues = s.queues := rfl
@[simp] theorem State.setCluster_qgens (n : Nat) (c : Cluster) : (s.setCluster n c).qgens = s.qgens := rfl
@[simp] theorem State.setCluster_sems (n : Nat) (c : Cluster) : (s.setCluster n c).sems = s.sems := rfl
@[simp] theorem State.setCluster_saves (n : Nat) (c : Cluster) : (s.setCluster n c).saves = s.saves := rfl
@[simp] theorem State.setCluster_flights (n : Nat) (c : Cluster) : (s.setCluster n c).flights = s.flights := rfl
@[simp] theorem State.setCluster_stores (n : Nat) (c : Cluster) : (s.setCluster n c).stores = s.stores := rfl
@[simp] theorem State.setCluster_undone (n : Nat) (c : Cluster) : (s.setCluster n c).undone = s.undone := rfl
@[simp] theorem State.setCluster_rels (n : Nat) (c : Cluster) : (s.setCluster n c).rels = s.rels := rfl
@[simp] theorem State.setCluster_wbars (n : Nat) (c : Cluster) : (s.setCluster n c).wbars = s.wbars := rfl
@[simp] theorem State.setCluster_copies (n : Nat) (c : Cluster) : (s.setCluster n c).copies = s.copies := rfl
@[simp] theorem State.setCluster_launches (n : Nat) (c : Cluster) : (s.setCluster n c).launches = s.launches := rfl
@[simp] theorem State.setCluster_late (n : Nat) (c : Cluster) : (s.setCluster n c).late = s.late := rfl
@[simp] theorem State.setCluster_launchFifo (n : Nat) (c : Cluster) : (s.setCluster n c).launchFifo = s.launchFifo := rfl
@[simp] theorem State.setCluster_msgs (n : Nat) (c : Cluster) : (s.setCluster n c).msgs = s.msgs := rfl
@[simp] theorem State.setCluster_links (n : Nat) (c : Cluster) : (s.setCluster n c).links = s.links := rfl
@[simp] theorem State.setCluster_ports (n : Nat) (c : Cluster) : (s.setCluster n c).ports = s.ports := rfl
@[simp] theorem State.setCluster_hosts (n : Nat) (c : Cluster) : (s.setCluster n c).hosts = s.hosts := rfl
@[simp] theorem State.setCluster_vfs (n : Nat) (c : Cluster) : (s.setCluster n c).vfs = s.vfs := rfl
@[simp] theorem State.setCluster_routes (n : Nat) (c : Cluster) : (s.setCluster n c).routes = s.routes := rfl
@[simp] theorem State.setCluster_exports (n : Nat) (c : Cluster) : (s.setCluster n c).exports = s.exports := rfl
@[simp] theorem State.setCluster_pkg (n : Nat) (c : Cluster) : (s.setCluster n c).pkg = s.pkg := rfl
@[simp] theorem State.setCluster_log (n : Nat) (c : Cluster) : (s.setCluster n c).log = s.log := rfl
@[simp] theorem State.setCluster_saved (n : Nat) (c : Cluster) : (s.setCluster n c).saved = s.saved := rfl
@[simp] theorem State.setCluster_boot (n : Nat) (c : Cluster) : (s.setCluster n c).boot = s.boot := rfl
@[simp] theorem State.setCluster_hard (n : Nat) (c : Cluster) : (s.setCluster n c).hard = s.hard := rfl
@[simp] theorem State.setCluster_rpoints (n : Nat) (c : Cluster) : (s.setCluster n c).rpoints = s.rpoints := rfl
@[simp] theorem State.setCluster_rintervals (n : Nat) (c : Cluster) : (s.setCluster n c).rintervals = s.rintervals := rfl
@[simp] theorem State.setCluster_rareas (n : Nat) (c : Cluster) : (s.setCluster n c).rareas = s.rareas := rfl
@[simp] theorem State.setCluster_flrs (n : Nat) (c : Cluster) : (s.setCluster n c).flrs = s.flrs := rfl
@[simp] theorem State.setCluster_isolated (n : Nat) (c : Cluster) : (s.setCluster n c).isolated = s.isolated := rfl
@[simp] theorem State.setCluster_resetting (n : Nat) (c : Cluster) : (s.setCluster n c).resetting = s.resetting := rfl
@[simp] theorem State.setCluster_hostOut (n : Nat) (c : Cluster) : (s.setCluster n c).hostOut = s.hostOut := rfl
@[simp] theorem State.setCluster_peerOut (n : Nat) (c : Cluster) : (s.setCluster n c).peerOut = s.peerOut := rfl

@[simp] theorem State.setQuad_agenda (n : Nat) (q : Quad) : (s.setQuad n q).agenda = s.agenda := rfl
@[simp] theorem State.setQuad_fresh (n : Nat) (q : Quad) : (s.setQuad n q).fresh = s.fresh := rfl
@[simp] theorem State.setQuad_turn (n : Nat) (q : Quad) : (s.setQuad n q).turn = s.turn := rfl
@[simp] theorem State.setQuad_cycle (n : Nat) (q : Quad) : (s.setQuad n q).cycle = s.cycle := rfl
@[simp] theorem State.setQuad_lull (n : Nat) (q : Quad) : (s.setQuad n q).lull = s.lull := rfl
@[simp] theorem State.setQuad_edge (n : Nat) (q : Quad) : (s.setQuad n q).edge = s.edge := rfl
@[simp] theorem State.setQuad_unit (n : Nat) (q : Quad) : (s.setQuad n q).unit = s.unit := rfl
@[simp] theorem State.setQuad_lookups (n : Nat) (q : Quad) : (s.setQuad n q).lookups = s.lookups := rfl
@[simp] theorem State.setQuad_tick (n : Nat) (q : Quad) : (s.setQuad n q).tick = s.tick := rfl
@[simp] theorem State.setQuad_dies (n : Nat) (q : Quad) : (s.setQuad n q).dies = s.dies := rfl
@[simp] theorem State.setQuad_mem (n : Nat) (q : Quad) : (s.setQuad n q).mem = s.mem := rfl
@[simp] theorem State.setQuad_lost (n : Nat) (q : Quad) : (s.setQuad n q).lost = s.lost := rfl
@[simp] theorem State.setQuad_keyed (n : Nat) (q : Quad) : (s.setQuad n q).keyed = s.keyed := rfl
@[simp] theorem State.setQuad_cores (n : Nat) (q : Quad) : (s.setQuad n q).cores = s.cores := rfl
@[simp] theorem State.setQuad_imgs (n : Nat) (q : Quad) : (s.setQuad n q).imgs = s.imgs := rfl
@[simp] theorem State.setQuad_clusters (n : Nat) (q : Quad) : (s.setQuad n q).clusters = s.clusters := rfl
@[simp] theorem State.setQuad_die (n : Nat) (q : Quad) : (s.setQuad n q).die = s.die := rfl
@[simp] theorem State.setQuad_ctxs (n : Nat) (q : Quad) : (s.setQuad n q).ctxs = s.ctxs := rfl
@[simp] theorem State.setQuad_gens (n : Nat) (q : Quad) : (s.setQuad n q).gens = s.gens := rfl
@[simp] theorem State.setQuad_queues (n : Nat) (q : Quad) : (s.setQuad n q).queues = s.queues := rfl
@[simp] theorem State.setQuad_qgens (n : Nat) (q : Quad) : (s.setQuad n q).qgens = s.qgens := rfl
@[simp] theorem State.setQuad_sems (n : Nat) (q : Quad) : (s.setQuad n q).sems = s.sems := rfl
@[simp] theorem State.setQuad_saves (n : Nat) (q : Quad) : (s.setQuad n q).saves = s.saves := rfl
@[simp] theorem State.setQuad_flights (n : Nat) (q : Quad) : (s.setQuad n q).flights = s.flights := rfl
@[simp] theorem State.setQuad_stores (n : Nat) (q : Quad) : (s.setQuad n q).stores = s.stores := rfl
@[simp] theorem State.setQuad_undone (n : Nat) (q : Quad) : (s.setQuad n q).undone = s.undone := rfl
@[simp] theorem State.setQuad_rels (n : Nat) (q : Quad) : (s.setQuad n q).rels = s.rels := rfl
@[simp] theorem State.setQuad_wbars (n : Nat) (q : Quad) : (s.setQuad n q).wbars = s.wbars := rfl
@[simp] theorem State.setQuad_copies (n : Nat) (q : Quad) : (s.setQuad n q).copies = s.copies := rfl
@[simp] theorem State.setQuad_launches (n : Nat) (q : Quad) : (s.setQuad n q).launches = s.launches := rfl
@[simp] theorem State.setQuad_late (n : Nat) (q : Quad) : (s.setQuad n q).late = s.late := rfl
@[simp] theorem State.setQuad_launchFifo (n : Nat) (q : Quad) : (s.setQuad n q).launchFifo = s.launchFifo := rfl
@[simp] theorem State.setQuad_msgs (n : Nat) (q : Quad) : (s.setQuad n q).msgs = s.msgs := rfl
@[simp] theorem State.setQuad_links (n : Nat) (q : Quad) : (s.setQuad n q).links = s.links := rfl
@[simp] theorem State.setQuad_ports (n : Nat) (q : Quad) : (s.setQuad n q).ports = s.ports := rfl
@[simp] theorem State.setQuad_hosts (n : Nat) (q : Quad) : (s.setQuad n q).hosts = s.hosts := rfl
@[simp] theorem State.setQuad_vfs (n : Nat) (q : Quad) : (s.setQuad n q).vfs = s.vfs := rfl
@[simp] theorem State.setQuad_routes (n : Nat) (q : Quad) : (s.setQuad n q).routes = s.routes := rfl
@[simp] theorem State.setQuad_exports (n : Nat) (q : Quad) : (s.setQuad n q).exports = s.exports := rfl
@[simp] theorem State.setQuad_pkg (n : Nat) (q : Quad) : (s.setQuad n q).pkg = s.pkg := rfl
@[simp] theorem State.setQuad_log (n : Nat) (q : Quad) : (s.setQuad n q).log = s.log := rfl
@[simp] theorem State.setQuad_saved (n : Nat) (q : Quad) : (s.setQuad n q).saved = s.saved := rfl
@[simp] theorem State.setQuad_boot (n : Nat) (q : Quad) : (s.setQuad n q).boot = s.boot := rfl
@[simp] theorem State.setQuad_hard (n : Nat) (q : Quad) : (s.setQuad n q).hard = s.hard := rfl
@[simp] theorem State.setQuad_rpoints (n : Nat) (q : Quad) : (s.setQuad n q).rpoints = s.rpoints := rfl
@[simp] theorem State.setQuad_rintervals (n : Nat) (q : Quad) : (s.setQuad n q).rintervals = s.rintervals := rfl
@[simp] theorem State.setQuad_rareas (n : Nat) (q : Quad) : (s.setQuad n q).rareas = s.rareas := rfl
@[simp] theorem State.setQuad_flrs (n : Nat) (q : Quad) : (s.setQuad n q).flrs = s.flrs := rfl
@[simp] theorem State.setQuad_isolated (n : Nat) (q : Quad) : (s.setQuad n q).isolated = s.isolated := rfl
@[simp] theorem State.setQuad_resetting (n : Nat) (q : Quad) : (s.setQuad n q).resetting = s.resetting := rfl
@[simp] theorem State.setQuad_hostOut (n : Nat) (q : Quad) : (s.setQuad n q).hostOut = s.hostOut := rfl
@[simp] theorem State.setQuad_peerOut (n : Nat) (q : Quad) : (s.setQuad n q).peerOut = s.peerOut := rfl

@[simp] theorem State.setDie_agenda (n : Nat) (d : Die) : (s.setDie n d).agenda = s.agenda := rfl
@[simp] theorem State.setDie_fresh (n : Nat) (d : Die) : (s.setDie n d).fresh = s.fresh := rfl
@[simp] theorem State.setDie_turn (n : Nat) (d : Die) : (s.setDie n d).turn = s.turn := rfl
@[simp] theorem State.setDie_cycle (n : Nat) (d : Die) : (s.setDie n d).cycle = s.cycle := rfl
@[simp] theorem State.setDie_lull (n : Nat) (d : Die) : (s.setDie n d).lull = s.lull := rfl
@[simp] theorem State.setDie_edge (n : Nat) (d : Die) : (s.setDie n d).edge = s.edge := rfl
@[simp] theorem State.setDie_unit (n : Nat) (d : Die) : (s.setDie n d).unit = s.unit := rfl
@[simp] theorem State.setDie_lookups (n : Nat) (d : Die) : (s.setDie n d).lookups = s.lookups := rfl
@[simp] theorem State.setDie_tick (n : Nat) (d : Die) : (s.setDie n d).tick = s.tick := rfl
@[simp] theorem State.setDie_dies (n : Nat) (d : Die) : (s.setDie n d).dies = s.dies := rfl
@[simp] theorem State.setDie_mem (n : Nat) (d : Die) : (s.setDie n d).mem = s.mem := rfl
@[simp] theorem State.setDie_lost (n : Nat) (d : Die) : (s.setDie n d).lost = s.lost := rfl
@[simp] theorem State.setDie_keyed (n : Nat) (d : Die) : (s.setDie n d).keyed = s.keyed := rfl
@[simp] theorem State.setDie_cores (n : Nat) (d : Die) : (s.setDie n d).cores = s.cores := rfl
@[simp] theorem State.setDie_imgs (n : Nat) (d : Die) : (s.setDie n d).imgs = s.imgs := rfl
@[simp] theorem State.setDie_clusters (n : Nat) (d : Die) : (s.setDie n d).clusters = s.clusters := rfl
@[simp] theorem State.setDie_quads (n : Nat) (d : Die) : (s.setDie n d).quads = s.quads := rfl
@[simp] theorem State.setDie_ctxs (n : Nat) (d : Die) : (s.setDie n d).ctxs = s.ctxs := rfl
@[simp] theorem State.setDie_gens (n : Nat) (d : Die) : (s.setDie n d).gens = s.gens := rfl
@[simp] theorem State.setDie_queues (n : Nat) (d : Die) : (s.setDie n d).queues = s.queues := rfl
@[simp] theorem State.setDie_qgens (n : Nat) (d : Die) : (s.setDie n d).qgens = s.qgens := rfl
@[simp] theorem State.setDie_sems (n : Nat) (d : Die) : (s.setDie n d).sems = s.sems := rfl
@[simp] theorem State.setDie_saves (n : Nat) (d : Die) : (s.setDie n d).saves = s.saves := rfl
@[simp] theorem State.setDie_flights (n : Nat) (d : Die) : (s.setDie n d).flights = s.flights := rfl
@[simp] theorem State.setDie_stores (n : Nat) (d : Die) : (s.setDie n d).stores = s.stores := rfl
@[simp] theorem State.setDie_undone (n : Nat) (d : Die) : (s.setDie n d).undone = s.undone := rfl
@[simp] theorem State.setDie_rels (n : Nat) (d : Die) : (s.setDie n d).rels = s.rels := rfl
@[simp] theorem State.setDie_wbars (n : Nat) (d : Die) : (s.setDie n d).wbars = s.wbars := rfl
@[simp] theorem State.setDie_copies (n : Nat) (d : Die) : (s.setDie n d).copies = s.copies := rfl
@[simp] theorem State.setDie_launches (n : Nat) (d : Die) : (s.setDie n d).launches = s.launches := rfl
@[simp] theorem State.setDie_late (n : Nat) (d : Die) : (s.setDie n d).late = s.late := rfl
@[simp] theorem State.setDie_launchFifo (n : Nat) (d : Die) : (s.setDie n d).launchFifo = s.launchFifo := rfl
@[simp] theorem State.setDie_msgs (n : Nat) (d : Die) : (s.setDie n d).msgs = s.msgs := rfl
@[simp] theorem State.setDie_links (n : Nat) (d : Die) : (s.setDie n d).links = s.links := rfl
@[simp] theorem State.setDie_ports (n : Nat) (d : Die) : (s.setDie n d).ports = s.ports := rfl
@[simp] theorem State.setDie_hosts (n : Nat) (d : Die) : (s.setDie n d).hosts = s.hosts := rfl
@[simp] theorem State.setDie_vfs (n : Nat) (d : Die) : (s.setDie n d).vfs = s.vfs := rfl
@[simp] theorem State.setDie_routes (n : Nat) (d : Die) : (s.setDie n d).routes = s.routes := rfl
@[simp] theorem State.setDie_exports (n : Nat) (d : Die) : (s.setDie n d).exports = s.exports := rfl
@[simp] theorem State.setDie_pkg (n : Nat) (d : Die) : (s.setDie n d).pkg = s.pkg := rfl
@[simp] theorem State.setDie_log (n : Nat) (d : Die) : (s.setDie n d).log = s.log := rfl
@[simp] theorem State.setDie_saved (n : Nat) (d : Die) : (s.setDie n d).saved = s.saved := rfl
@[simp] theorem State.setDie_boot (n : Nat) (d : Die) : (s.setDie n d).boot = s.boot := rfl
@[simp] theorem State.setDie_hard (n : Nat) (d : Die) : (s.setDie n d).hard = s.hard := rfl
@[simp] theorem State.setDie_rpoints (n : Nat) (d : Die) : (s.setDie n d).rpoints = s.rpoints := rfl
@[simp] theorem State.setDie_rintervals (n : Nat) (d : Die) : (s.setDie n d).rintervals = s.rintervals := rfl
@[simp] theorem State.setDie_rareas (n : Nat) (d : Die) : (s.setDie n d).rareas = s.rareas := rfl
@[simp] theorem State.setDie_flrs (n : Nat) (d : Die) : (s.setDie n d).flrs = s.flrs := rfl
@[simp] theorem State.setDie_isolated (n : Nat) (d : Die) : (s.setDie n d).isolated = s.isolated := rfl
@[simp] theorem State.setDie_resetting (n : Nat) (d : Die) : (s.setDie n d).resetting = s.resetting := rfl
@[simp] theorem State.setDie_hostOut (n : Nat) (d : Die) : (s.setDie n d).hostOut = s.hostOut := rfl
@[simp] theorem State.setDie_peerOut (n : Nat) (d : Die) : (s.setDie n d).peerOut = s.peerOut := rfl

@[simp] theorem State.setPort_agenda (n : Nat) (p : Port) : (s.setPort n p).agenda = s.agenda := rfl
@[simp] theorem State.setPort_fresh (n : Nat) (p : Port) : (s.setPort n p).fresh = s.fresh := rfl
@[simp] theorem State.setPort_turn (n : Nat) (p : Port) : (s.setPort n p).turn = s.turn := rfl
@[simp] theorem State.setPort_cycle (n : Nat) (p : Port) : (s.setPort n p).cycle = s.cycle := rfl
@[simp] theorem State.setPort_lull (n : Nat) (p : Port) : (s.setPort n p).lull = s.lull := rfl
@[simp] theorem State.setPort_edge (n : Nat) (p : Port) : (s.setPort n p).edge = s.edge := rfl
@[simp] theorem State.setPort_unit (n : Nat) (p : Port) : (s.setPort n p).unit = s.unit := rfl
@[simp] theorem State.setPort_lookups (n : Nat) (p : Port) : (s.setPort n p).lookups = s.lookups := rfl
@[simp] theorem State.setPort_tick (n : Nat) (p : Port) : (s.setPort n p).tick = s.tick := rfl
@[simp] theorem State.setPort_dies (n : Nat) (p : Port) : (s.setPort n p).dies = s.dies := rfl
@[simp] theorem State.setPort_mem (n : Nat) (p : Port) : (s.setPort n p).mem = s.mem := rfl
@[simp] theorem State.setPort_lost (n : Nat) (p : Port) : (s.setPort n p).lost = s.lost := rfl
@[simp] theorem State.setPort_keyed (n : Nat) (p : Port) : (s.setPort n p).keyed = s.keyed := rfl
@[simp] theorem State.setPort_cores (n : Nat) (p : Port) : (s.setPort n p).cores = s.cores := rfl
@[simp] theorem State.setPort_imgs (n : Nat) (p : Port) : (s.setPort n p).imgs = s.imgs := rfl
@[simp] theorem State.setPort_clusters (n : Nat) (p : Port) : (s.setPort n p).clusters = s.clusters := rfl
@[simp] theorem State.setPort_quads (n : Nat) (p : Port) : (s.setPort n p).quads = s.quads := rfl
@[simp] theorem State.setPort_die (n : Nat) (p : Port) : (s.setPort n p).die = s.die := rfl
@[simp] theorem State.setPort_ctxs (n : Nat) (p : Port) : (s.setPort n p).ctxs = s.ctxs := rfl
@[simp] theorem State.setPort_gens (n : Nat) (p : Port) : (s.setPort n p).gens = s.gens := rfl
@[simp] theorem State.setPort_queues (n : Nat) (p : Port) : (s.setPort n p).queues = s.queues := rfl
@[simp] theorem State.setPort_qgens (n : Nat) (p : Port) : (s.setPort n p).qgens = s.qgens := rfl
@[simp] theorem State.setPort_sems (n : Nat) (p : Port) : (s.setPort n p).sems = s.sems := rfl
@[simp] theorem State.setPort_saves (n : Nat) (p : Port) : (s.setPort n p).saves = s.saves := rfl
@[simp] theorem State.setPort_flights (n : Nat) (p : Port) : (s.setPort n p).flights = s.flights := rfl
@[simp] theorem State.setPort_stores (n : Nat) (p : Port) : (s.setPort n p).stores = s.stores := rfl
@[simp] theorem State.setPort_undone (n : Nat) (p : Port) : (s.setPort n p).undone = s.undone := rfl
@[simp] theorem State.setPort_rels (n : Nat) (p : Port) : (s.setPort n p).rels = s.rels := rfl
@[simp] theorem State.setPort_wbars (n : Nat) (p : Port) : (s.setPort n p).wbars = s.wbars := rfl
@[simp] theorem State.setPort_copies (n : Nat) (p : Port) : (s.setPort n p).copies = s.copies := rfl
@[simp] theorem State.setPort_launches (n : Nat) (p : Port) : (s.setPort n p).launches = s.launches := rfl
@[simp] theorem State.setPort_late (n : Nat) (p : Port) : (s.setPort n p).late = s.late := rfl
@[simp] theorem State.setPort_launchFifo (n : Nat) (p : Port) : (s.setPort n p).launchFifo = s.launchFifo := rfl
@[simp] theorem State.setPort_msgs (n : Nat) (p : Port) : (s.setPort n p).msgs = s.msgs := rfl
@[simp] theorem State.setPort_links (n : Nat) (p : Port) : (s.setPort n p).links = s.links := rfl
@[simp] theorem State.setPort_hosts (n : Nat) (p : Port) : (s.setPort n p).hosts = s.hosts := rfl
@[simp] theorem State.setPort_vfs (n : Nat) (p : Port) : (s.setPort n p).vfs = s.vfs := rfl
@[simp] theorem State.setPort_routes (n : Nat) (p : Port) : (s.setPort n p).routes = s.routes := rfl
@[simp] theorem State.setPort_exports (n : Nat) (p : Port) : (s.setPort n p).exports = s.exports := rfl
@[simp] theorem State.setPort_pkg (n : Nat) (p : Port) : (s.setPort n p).pkg = s.pkg := rfl
@[simp] theorem State.setPort_log (n : Nat) (p : Port) : (s.setPort n p).log = s.log := rfl
@[simp] theorem State.setPort_saved (n : Nat) (p : Port) : (s.setPort n p).saved = s.saved := rfl
@[simp] theorem State.setPort_boot (n : Nat) (p : Port) : (s.setPort n p).boot = s.boot := rfl
@[simp] theorem State.setPort_hard (n : Nat) (p : Port) : (s.setPort n p).hard = s.hard := rfl
@[simp] theorem State.setPort_rpoints (n : Nat) (p : Port) : (s.setPort n p).rpoints = s.rpoints := rfl
@[simp] theorem State.setPort_rintervals (n : Nat) (p : Port) : (s.setPort n p).rintervals = s.rintervals := rfl
@[simp] theorem State.setPort_rareas (n : Nat) (p : Port) : (s.setPort n p).rareas = s.rareas := rfl
@[simp] theorem State.setPort_flrs (n : Nat) (p : Port) : (s.setPort n p).flrs = s.flrs := rfl
@[simp] theorem State.setPort_isolated (n : Nat) (p : Port) : (s.setPort n p).isolated = s.isolated := rfl
@[simp] theorem State.setPort_resetting (n : Nat) (p : Port) : (s.setPort n p).resetting = s.resetting := rfl
@[simp] theorem State.setPort_hostOut (n : Nat) (p : Port) : (s.setPort n p).hostOut = s.hostOut := rfl
@[simp] theorem State.setPort_peerOut (n : Nat) (p : Port) : (s.setPort n p).peerOut = s.peerOut := rfl

@[simp] theorem State.setHost_agenda (n : Nat) (p : HostPort) : (s.setHost n p).agenda = s.agenda := rfl
@[simp] theorem State.setHost_fresh (n : Nat) (p : HostPort) : (s.setHost n p).fresh = s.fresh := rfl
@[simp] theorem State.setHost_turn (n : Nat) (p : HostPort) : (s.setHost n p).turn = s.turn := rfl
@[simp] theorem State.setHost_cycle (n : Nat) (p : HostPort) : (s.setHost n p).cycle = s.cycle := rfl
@[simp] theorem State.setHost_lull (n : Nat) (p : HostPort) : (s.setHost n p).lull = s.lull := rfl
@[simp] theorem State.setHost_edge (n : Nat) (p : HostPort) : (s.setHost n p).edge = s.edge := rfl
@[simp] theorem State.setHost_unit (n : Nat) (p : HostPort) : (s.setHost n p).unit = s.unit := rfl
@[simp] theorem State.setHost_lookups (n : Nat) (p : HostPort) : (s.setHost n p).lookups = s.lookups := rfl
@[simp] theorem State.setHost_tick (n : Nat) (p : HostPort) : (s.setHost n p).tick = s.tick := rfl
@[simp] theorem State.setHost_dies (n : Nat) (p : HostPort) : (s.setHost n p).dies = s.dies := rfl
@[simp] theorem State.setHost_mem (n : Nat) (p : HostPort) : (s.setHost n p).mem = s.mem := rfl
@[simp] theorem State.setHost_lost (n : Nat) (p : HostPort) : (s.setHost n p).lost = s.lost := rfl
@[simp] theorem State.setHost_keyed (n : Nat) (p : HostPort) : (s.setHost n p).keyed = s.keyed := rfl
@[simp] theorem State.setHost_cores (n : Nat) (p : HostPort) : (s.setHost n p).cores = s.cores := rfl
@[simp] theorem State.setHost_imgs (n : Nat) (p : HostPort) : (s.setHost n p).imgs = s.imgs := rfl
@[simp] theorem State.setHost_clusters (n : Nat) (p : HostPort) : (s.setHost n p).clusters = s.clusters := rfl
@[simp] theorem State.setHost_quads (n : Nat) (p : HostPort) : (s.setHost n p).quads = s.quads := rfl
@[simp] theorem State.setHost_die (n : Nat) (p : HostPort) : (s.setHost n p).die = s.die := rfl
@[simp] theorem State.setHost_ctxs (n : Nat) (p : HostPort) : (s.setHost n p).ctxs = s.ctxs := rfl
@[simp] theorem State.setHost_gens (n : Nat) (p : HostPort) : (s.setHost n p).gens = s.gens := rfl
@[simp] theorem State.setHost_queues (n : Nat) (p : HostPort) : (s.setHost n p).queues = s.queues := rfl
@[simp] theorem State.setHost_qgens (n : Nat) (p : HostPort) : (s.setHost n p).qgens = s.qgens := rfl
@[simp] theorem State.setHost_sems (n : Nat) (p : HostPort) : (s.setHost n p).sems = s.sems := rfl
@[simp] theorem State.setHost_saves (n : Nat) (p : HostPort) : (s.setHost n p).saves = s.saves := rfl
@[simp] theorem State.setHost_flights (n : Nat) (p : HostPort) : (s.setHost n p).flights = s.flights := rfl
@[simp] theorem State.setHost_stores (n : Nat) (p : HostPort) : (s.setHost n p).stores = s.stores := rfl
@[simp] theorem State.setHost_undone (n : Nat) (p : HostPort) : (s.setHost n p).undone = s.undone := rfl
@[simp] theorem State.setHost_rels (n : Nat) (p : HostPort) : (s.setHost n p).rels = s.rels := rfl
@[simp] theorem State.setHost_wbars (n : Nat) (p : HostPort) : (s.setHost n p).wbars = s.wbars := rfl
@[simp] theorem State.setHost_copies (n : Nat) (p : HostPort) : (s.setHost n p).copies = s.copies := rfl
@[simp] theorem State.setHost_launches (n : Nat) (p : HostPort) : (s.setHost n p).launches = s.launches := rfl
@[simp] theorem State.setHost_late (n : Nat) (p : HostPort) : (s.setHost n p).late = s.late := rfl
@[simp] theorem State.setHost_launchFifo (n : Nat) (p : HostPort) : (s.setHost n p).launchFifo = s.launchFifo := rfl
@[simp] theorem State.setHost_msgs (n : Nat) (p : HostPort) : (s.setHost n p).msgs = s.msgs := rfl
@[simp] theorem State.setHost_links (n : Nat) (p : HostPort) : (s.setHost n p).links = s.links := rfl
@[simp] theorem State.setHost_ports (n : Nat) (p : HostPort) : (s.setHost n p).ports = s.ports := rfl
@[simp] theorem State.setHost_vfs (n : Nat) (p : HostPort) : (s.setHost n p).vfs = s.vfs := rfl
@[simp] theorem State.setHost_routes (n : Nat) (p : HostPort) : (s.setHost n p).routes = s.routes := rfl
@[simp] theorem State.setHost_exports (n : Nat) (p : HostPort) : (s.setHost n p).exports = s.exports := rfl
@[simp] theorem State.setHost_pkg (n : Nat) (p : HostPort) : (s.setHost n p).pkg = s.pkg := rfl
@[simp] theorem State.setHost_log (n : Nat) (p : HostPort) : (s.setHost n p).log = s.log := rfl
@[simp] theorem State.setHost_saved (n : Nat) (p : HostPort) : (s.setHost n p).saved = s.saved := rfl
@[simp] theorem State.setHost_boot (n : Nat) (p : HostPort) : (s.setHost n p).boot = s.boot := rfl
@[simp] theorem State.setHost_hard (n : Nat) (p : HostPort) : (s.setHost n p).hard = s.hard := rfl
@[simp] theorem State.setHost_rpoints (n : Nat) (p : HostPort) : (s.setHost n p).rpoints = s.rpoints := rfl
@[simp] theorem State.setHost_rintervals (n : Nat) (p : HostPort) : (s.setHost n p).rintervals = s.rintervals := rfl
@[simp] theorem State.setHost_rareas (n : Nat) (p : HostPort) : (s.setHost n p).rareas = s.rareas := rfl
@[simp] theorem State.setHost_flrs (n : Nat) (p : HostPort) : (s.setHost n p).flrs = s.flrs := rfl
@[simp] theorem State.setHost_isolated (n : Nat) (p : HostPort) : (s.setHost n p).isolated = s.isolated := rfl
@[simp] theorem State.setHost_resetting (n : Nat) (p : HostPort) : (s.setHost n p).resetting = s.resetting := rfl
@[simp] theorem State.setHost_hostOut (n : Nat) (p : HostPort) : (s.setHost n p).hostOut = s.hostOut := rfl
@[simp] theorem State.setHost_peerOut (n : Nat) (p : HostPort) : (s.setHost n p).peerOut = s.peerOut := rfl

@[simp] theorem State.setVf_agenda (n : Nat) (v : VF) : (s.setVf n v).agenda = s.agenda := rfl
@[simp] theorem State.setVf_fresh (n : Nat) (v : VF) : (s.setVf n v).fresh = s.fresh := rfl
@[simp] theorem State.setVf_turn (n : Nat) (v : VF) : (s.setVf n v).turn = s.turn := rfl
@[simp] theorem State.setVf_cycle (n : Nat) (v : VF) : (s.setVf n v).cycle = s.cycle := rfl
@[simp] theorem State.setVf_lull (n : Nat) (v : VF) : (s.setVf n v).lull = s.lull := rfl
@[simp] theorem State.setVf_edge (n : Nat) (v : VF) : (s.setVf n v).edge = s.edge := rfl
@[simp] theorem State.setVf_unit (n : Nat) (v : VF) : (s.setVf n v).unit = s.unit := rfl
@[simp] theorem State.setVf_lookups (n : Nat) (v : VF) : (s.setVf n v).lookups = s.lookups := rfl
@[simp] theorem State.setVf_tick (n : Nat) (v : VF) : (s.setVf n v).tick = s.tick := rfl
@[simp] theorem State.setVf_dies (n : Nat) (v : VF) : (s.setVf n v).dies = s.dies := rfl
@[simp] theorem State.setVf_mem (n : Nat) (v : VF) : (s.setVf n v).mem = s.mem := rfl
@[simp] theorem State.setVf_lost (n : Nat) (v : VF) : (s.setVf n v).lost = s.lost := rfl
@[simp] theorem State.setVf_keyed (n : Nat) (v : VF) : (s.setVf n v).keyed = s.keyed := rfl
@[simp] theorem State.setVf_cores (n : Nat) (v : VF) : (s.setVf n v).cores = s.cores := rfl
@[simp] theorem State.setVf_imgs (n : Nat) (v : VF) : (s.setVf n v).imgs = s.imgs := rfl
@[simp] theorem State.setVf_clusters (n : Nat) (v : VF) : (s.setVf n v).clusters = s.clusters := rfl
@[simp] theorem State.setVf_quads (n : Nat) (v : VF) : (s.setVf n v).quads = s.quads := rfl
@[simp] theorem State.setVf_die (n : Nat) (v : VF) : (s.setVf n v).die = s.die := rfl
@[simp] theorem State.setVf_ctxs (n : Nat) (v : VF) : (s.setVf n v).ctxs = s.ctxs := rfl
@[simp] theorem State.setVf_gens (n : Nat) (v : VF) : (s.setVf n v).gens = s.gens := rfl
@[simp] theorem State.setVf_queues (n : Nat) (v : VF) : (s.setVf n v).queues = s.queues := rfl
@[simp] theorem State.setVf_qgens (n : Nat) (v : VF) : (s.setVf n v).qgens = s.qgens := rfl
@[simp] theorem State.setVf_sems (n : Nat) (v : VF) : (s.setVf n v).sems = s.sems := rfl
@[simp] theorem State.setVf_saves (n : Nat) (v : VF) : (s.setVf n v).saves = s.saves := rfl
@[simp] theorem State.setVf_flights (n : Nat) (v : VF) : (s.setVf n v).flights = s.flights := rfl
@[simp] theorem State.setVf_stores (n : Nat) (v : VF) : (s.setVf n v).stores = s.stores := rfl
@[simp] theorem State.setVf_undone (n : Nat) (v : VF) : (s.setVf n v).undone = s.undone := rfl
@[simp] theorem State.setVf_rels (n : Nat) (v : VF) : (s.setVf n v).rels = s.rels := rfl
@[simp] theorem State.setVf_wbars (n : Nat) (v : VF) : (s.setVf n v).wbars = s.wbars := rfl
@[simp] theorem State.setVf_copies (n : Nat) (v : VF) : (s.setVf n v).copies = s.copies := rfl
@[simp] theorem State.setVf_launches (n : Nat) (v : VF) : (s.setVf n v).launches = s.launches := rfl
@[simp] theorem State.setVf_late (n : Nat) (v : VF) : (s.setVf n v).late = s.late := rfl
@[simp] theorem State.setVf_launchFifo (n : Nat) (v : VF) : (s.setVf n v).launchFifo = s.launchFifo := rfl
@[simp] theorem State.setVf_msgs (n : Nat) (v : VF) : (s.setVf n v).msgs = s.msgs := rfl
@[simp] theorem State.setVf_links (n : Nat) (v : VF) : (s.setVf n v).links = s.links := rfl
@[simp] theorem State.setVf_ports (n : Nat) (v : VF) : (s.setVf n v).ports = s.ports := rfl
@[simp] theorem State.setVf_hosts (n : Nat) (v : VF) : (s.setVf n v).hosts = s.hosts := rfl
@[simp] theorem State.setVf_routes (n : Nat) (v : VF) : (s.setVf n v).routes = s.routes := rfl
@[simp] theorem State.setVf_exports (n : Nat) (v : VF) : (s.setVf n v).exports = s.exports := rfl
@[simp] theorem State.setVf_pkg (n : Nat) (v : VF) : (s.setVf n v).pkg = s.pkg := rfl
@[simp] theorem State.setVf_log (n : Nat) (v : VF) : (s.setVf n v).log = s.log := rfl
@[simp] theorem State.setVf_saved (n : Nat) (v : VF) : (s.setVf n v).saved = s.saved := rfl
@[simp] theorem State.setVf_boot (n : Nat) (v : VF) : (s.setVf n v).boot = s.boot := rfl
@[simp] theorem State.setVf_hard (n : Nat) (v : VF) : (s.setVf n v).hard = s.hard := rfl
@[simp] theorem State.setVf_rpoints (n : Nat) (v : VF) : (s.setVf n v).rpoints = s.rpoints := rfl
@[simp] theorem State.setVf_rintervals (n : Nat) (v : VF) : (s.setVf n v).rintervals = s.rintervals := rfl
@[simp] theorem State.setVf_rareas (n : Nat) (v : VF) : (s.setVf n v).rareas = s.rareas := rfl
@[simp] theorem State.setVf_flrs (n : Nat) (v : VF) : (s.setVf n v).flrs = s.flrs := rfl
@[simp] theorem State.setVf_isolated (n : Nat) (v : VF) : (s.setVf n v).isolated = s.isolated := rfl
@[simp] theorem State.setVf_resetting (n : Nat) (v : VF) : (s.setVf n v).resetting = s.resetting := rfl
@[simp] theorem State.setVf_hostOut (n : Nat) (v : VF) : (s.setVf n v).hostOut = s.hostOut := rfl
@[simp] theorem State.setVf_peerOut (n : Nat) (v : VF) : (s.setVf n v).peerOut = s.peerOut := rfl

@[simp] theorem State.setCtx_agenda (n : Nat) (c : Ctx) : (s.setCtx n c).agenda = s.agenda := rfl
@[simp] theorem State.setCtx_fresh (n : Nat) (c : Ctx) : (s.setCtx n c).fresh = s.fresh := rfl
@[simp] theorem State.setCtx_turn (n : Nat) (c : Ctx) : (s.setCtx n c).turn = s.turn := rfl
@[simp] theorem State.setCtx_cycle (n : Nat) (c : Ctx) : (s.setCtx n c).cycle = s.cycle := rfl
@[simp] theorem State.setCtx_lull (n : Nat) (c : Ctx) : (s.setCtx n c).lull = s.lull := rfl
@[simp] theorem State.setCtx_edge (n : Nat) (c : Ctx) : (s.setCtx n c).edge = s.edge := rfl
@[simp] theorem State.setCtx_unit (n : Nat) (c : Ctx) : (s.setCtx n c).unit = s.unit := rfl
@[simp] theorem State.setCtx_lookups (n : Nat) (c : Ctx) : (s.setCtx n c).lookups = s.lookups := rfl
@[simp] theorem State.setCtx_tick (n : Nat) (c : Ctx) : (s.setCtx n c).tick = s.tick := rfl
@[simp] theorem State.setCtx_dies (n : Nat) (c : Ctx) : (s.setCtx n c).dies = s.dies := rfl
@[simp] theorem State.setCtx_mem (n : Nat) (c : Ctx) : (s.setCtx n c).mem = s.mem := rfl
@[simp] theorem State.setCtx_lost (n : Nat) (c : Ctx) : (s.setCtx n c).lost = s.lost := rfl
@[simp] theorem State.setCtx_keyed (n : Nat) (c : Ctx) : (s.setCtx n c).keyed = s.keyed := rfl
@[simp] theorem State.setCtx_cores (n : Nat) (c : Ctx) : (s.setCtx n c).cores = s.cores := rfl
@[simp] theorem State.setCtx_imgs (n : Nat) (c : Ctx) : (s.setCtx n c).imgs = s.imgs := rfl
@[simp] theorem State.setCtx_clusters (n : Nat) (c : Ctx) : (s.setCtx n c).clusters = s.clusters := rfl
@[simp] theorem State.setCtx_quads (n : Nat) (c : Ctx) : (s.setCtx n c).quads = s.quads := rfl
@[simp] theorem State.setCtx_die (n : Nat) (c : Ctx) : (s.setCtx n c).die = s.die := rfl
@[simp] theorem State.setCtx_gens (n : Nat) (c : Ctx) : (s.setCtx n c).gens = s.gens := rfl
@[simp] theorem State.setCtx_queues (n : Nat) (c : Ctx) : (s.setCtx n c).queues = s.queues := rfl
@[simp] theorem State.setCtx_qgens (n : Nat) (c : Ctx) : (s.setCtx n c).qgens = s.qgens := rfl
@[simp] theorem State.setCtx_sems (n : Nat) (c : Ctx) : (s.setCtx n c).sems = s.sems := rfl
@[simp] theorem State.setCtx_saves (n : Nat) (c : Ctx) : (s.setCtx n c).saves = s.saves := rfl
@[simp] theorem State.setCtx_flights (n : Nat) (c : Ctx) : (s.setCtx n c).flights = s.flights := rfl
@[simp] theorem State.setCtx_stores (n : Nat) (c : Ctx) : (s.setCtx n c).stores = s.stores := rfl
@[simp] theorem State.setCtx_undone (n : Nat) (c : Ctx) : (s.setCtx n c).undone = s.undone := rfl
@[simp] theorem State.setCtx_rels (n : Nat) (c : Ctx) : (s.setCtx n c).rels = s.rels := rfl
@[simp] theorem State.setCtx_wbars (n : Nat) (c : Ctx) : (s.setCtx n c).wbars = s.wbars := rfl
@[simp] theorem State.setCtx_copies (n : Nat) (c : Ctx) : (s.setCtx n c).copies = s.copies := rfl
@[simp] theorem State.setCtx_launches (n : Nat) (c : Ctx) : (s.setCtx n c).launches = s.launches := rfl
@[simp] theorem State.setCtx_late (n : Nat) (c : Ctx) : (s.setCtx n c).late = s.late := rfl
@[simp] theorem State.setCtx_launchFifo (n : Nat) (c : Ctx) : (s.setCtx n c).launchFifo = s.launchFifo := rfl
@[simp] theorem State.setCtx_msgs (n : Nat) (c : Ctx) : (s.setCtx n c).msgs = s.msgs := rfl
@[simp] theorem State.setCtx_links (n : Nat) (c : Ctx) : (s.setCtx n c).links = s.links := rfl
@[simp] theorem State.setCtx_ports (n : Nat) (c : Ctx) : (s.setCtx n c).ports = s.ports := rfl
@[simp] theorem State.setCtx_hosts (n : Nat) (c : Ctx) : (s.setCtx n c).hosts = s.hosts := rfl
@[simp] theorem State.setCtx_vfs (n : Nat) (c : Ctx) : (s.setCtx n c).vfs = s.vfs := rfl
@[simp] theorem State.setCtx_routes (n : Nat) (c : Ctx) : (s.setCtx n c).routes = s.routes := rfl
@[simp] theorem State.setCtx_exports (n : Nat) (c : Ctx) : (s.setCtx n c).exports = s.exports := rfl
@[simp] theorem State.setCtx_pkg (n : Nat) (c : Ctx) : (s.setCtx n c).pkg = s.pkg := rfl
@[simp] theorem State.setCtx_log (n : Nat) (c : Ctx) : (s.setCtx n c).log = s.log := rfl
@[simp] theorem State.setCtx_saved (n : Nat) (c : Ctx) : (s.setCtx n c).saved = s.saved := rfl
@[simp] theorem State.setCtx_boot (n : Nat) (c : Ctx) : (s.setCtx n c).boot = s.boot := rfl
@[simp] theorem State.setCtx_hard (n : Nat) (c : Ctx) : (s.setCtx n c).hard = s.hard := rfl
@[simp] theorem State.setCtx_rpoints (n : Nat) (c : Ctx) : (s.setCtx n c).rpoints = s.rpoints := rfl
@[simp] theorem State.setCtx_rintervals (n : Nat) (c : Ctx) : (s.setCtx n c).rintervals = s.rintervals := rfl
@[simp] theorem State.setCtx_rareas (n : Nat) (c : Ctx) : (s.setCtx n c).rareas = s.rareas := rfl
@[simp] theorem State.setCtx_flrs (n : Nat) (c : Ctx) : (s.setCtx n c).flrs = s.flrs := rfl
@[simp] theorem State.setCtx_isolated (n : Nat) (c : Ctx) : (s.setCtx n c).isolated = s.isolated := rfl
@[simp] theorem State.setCtx_resetting (n : Nat) (c : Ctx) : (s.setCtx n c).resetting = s.resetting := rfl
@[simp] theorem State.setCtx_hostOut (n : Nat) (c : Ctx) : (s.setCtx n c).hostOut = s.hostOut := rfl
@[simp] theorem State.setCtx_peerOut (n : Nat) (c : Ctx) : (s.setCtx n c).peerOut = s.peerOut := rfl

@[simp] theorem State.core_setCore (n : Nat) v : (s.setCore n v).core n = v := by simp [State.setCore, State.core]
theorem State.core_setCore_ne {n m : Nat} v (h : m ≠ n) : (s.setCore n v).core m = s.core m := by simp [State.setCore, State.core, h]
@[simp] theorem State.cluster_setCluster (n : Nat) v : (s.setCluster n v).cluster n = v := by simp [State.setCluster, State.cluster]
theorem State.cluster_setCluster_ne {n m : Nat} v (h : m ≠ n) : (s.setCluster n v).cluster m = s.cluster m := by simp [State.setCluster, State.cluster, h]
@[simp] theorem State.quad_setQuad (n : Nat) v : (s.setQuad n v).quad n = v := by simp [State.setQuad, State.quad]
theorem State.quad_setQuad_ne {n m : Nat} v (h : m ≠ n) : (s.setQuad n v).quad m = s.quad m := by simp [State.setQuad, State.quad, h]
@[simp] theorem State.dieOf_setDie (n : Nat) v : (s.setDie n v).dieOf n = v := by simp [State.setDie, State.dieOf]
theorem State.dieOf_setDie_ne {n m : Nat} v (h : m ≠ n) : (s.setDie n v).dieOf m = s.dieOf m := by simp [State.setDie, State.dieOf, h]
@[simp] theorem State.port_setPort (n : Nat) v : (s.setPort n v).port n = v := by simp [State.setPort, State.port]
theorem State.port_setPort_ne {n m : Nat} v (h : m ≠ n) : (s.setPort n v).port m = s.port m := by simp [State.setPort, State.port, h]
@[simp] theorem State.host_setHost (n : Nat) v : (s.setHost n v).host n = v := by simp [State.setHost, State.host]
theorem State.host_setHost_ne {n m : Nat} v (h : m ≠ n) : (s.setHost n v).host m = s.host m := by simp [State.setHost, State.host, h]
@[simp] theorem State.vf_setVf (n : Nat) v : (s.setVf n v).vf n = v := by simp [State.setVf, State.vf]
theorem State.vf_setVf_ne {n m : Nat} v (h : m ≠ n) : (s.setVf n v).vf m = s.vf m := by simp [State.setVf, State.vf, h]
@[simp] theorem State.ctx_setCtx (n : Nat) v : (s.setCtx n v).ctx n = v := by simp [State.setCtx, State.ctx]
theorem State.ctx_setCtx_ne {n m : Nat} v (h : m ≠ n) : (s.setCtx n v).ctx m = s.ctx m := by simp [State.setCtx, State.ctx, h]

@[simp] theorem State.cluster_of_setCore (n : Nat) (c : Core) (m : Nat) : (s.setCore n c).cluster m = s.cluster m := rfl
@[simp] theorem State.quad_of_setCore (n : Nat) (c : Core) (m : Nat) : (s.setCore n c).quad m = s.quad m := rfl
@[simp] theorem State.dieOf_of_setCore (n : Nat) (c : Core) (m : Nat) : (s.setCore n c).dieOf m = s.dieOf m := rfl
@[simp] theorem State.port_of_setCore (n : Nat) (c : Core) (m : Nat) : (s.setCore n c).port m = s.port m := rfl
@[simp] theorem State.host_of_setCore (n : Nat) (c : Core) (m : Nat) : (s.setCore n c).host m = s.host m := rfl
@[simp] theorem State.vf_of_setCore (n : Nat) (c : Core) (m : Nat) : (s.setCore n c).vf m = s.vf m := rfl
@[simp] theorem State.ctx_of_setCore (n : Nat) (c : Core) (m : Nat) : (s.setCore n c).ctx m = s.ctx m := rfl
@[simp] theorem State.img_of_setCore (n : Nat) (c : Core) (m y : Nat) : (s.setCore n c).img m y = s.img m y := rfl
@[simp] theorem State.byte_of_setCore (n : Nat) (c : Core) (a : Nat) : (s.setCore n c).byte a = s.byte a := rfl
@[simp] theorem State.core_of_setImg (k x : Nat) (i : Img) (m : Nat) : (s.setImg k x i).core m = s.core m := rfl
@[simp] theorem State.cluster_of_setImg (k x : Nat) (i : Img) (m : Nat) : (s.setImg k x i).cluster m = s.cluster m := rfl
@[simp] theorem State.quad_of_setImg (k x : Nat) (i : Img) (m : Nat) : (s.setImg k x i).quad m = s.quad m := rfl
@[simp] theorem State.dieOf_of_setImg (k x : Nat) (i : Img) (m : Nat) : (s.setImg k x i).dieOf m = s.dieOf m := rfl
@[simp] theorem State.port_of_setImg (k x : Nat) (i : Img) (m : Nat) : (s.setImg k x i).port m = s.port m := rfl
@[simp] theorem State.host_of_setImg (k x : Nat) (i : Img) (m : Nat) : (s.setImg k x i).host m = s.host m := rfl
@[simp] theorem State.vf_of_setImg (k x : Nat) (i : Img) (m : Nat) : (s.setImg k x i).vf m = s.vf m := rfl
@[simp] theorem State.ctx_of_setImg (k x : Nat) (i : Img) (m : Nat) : (s.setImg k x i).ctx m = s.ctx m := rfl
@[simp] theorem State.byte_of_setImg (k x : Nat) (i : Img) (a : Nat) : (s.setImg k x i).byte a = s.byte a := rfl
@[simp] theorem State.core_of_setCluster (n : Nat) (c : Cluster) (m : Nat) : (s.setCluster n c).core m = s.core m := rfl
@[simp] theorem State.quad_of_setCluster (n : Nat) (c : Cluster) (m : Nat) : (s.setCluster n c).quad m = s.quad m := rfl
@[simp] theorem State.dieOf_of_setCluster (n : Nat) (c : Cluster) (m : Nat) : (s.setCluster n c).dieOf m = s.dieOf m := rfl
@[simp] theorem State.port_of_setCluster (n : Nat) (c : Cluster) (m : Nat) : (s.setCluster n c).port m = s.port m := rfl
@[simp] theorem State.host_of_setCluster (n : Nat) (c : Cluster) (m : Nat) : (s.setCluster n c).host m = s.host m := rfl
@[simp] theorem State.vf_of_setCluster (n : Nat) (c : Cluster) (m : Nat) : (s.setCluster n c).vf m = s.vf m := rfl
@[simp] theorem State.ctx_of_setCluster (n : Nat) (c : Cluster) (m : Nat) : (s.setCluster n c).ctx m = s.ctx m := rfl
@[simp] theorem State.img_of_setCluster (n : Nat) (c : Cluster) (m y : Nat) : (s.setCluster n c).img m y = s.img m y := rfl
@[simp] theorem State.byte_of_setCluster (n : Nat) (c : Cluster) (a : Nat) : (s.setCluster n c).byte a = s.byte a := rfl
@[simp] theorem State.core_of_setQuad (n : Nat) (q : Quad) (m : Nat) : (s.setQuad n q).core m = s.core m := rfl
@[simp] theorem State.cluster_of_setQuad (n : Nat) (q : Quad) (m : Nat) : (s.setQuad n q).cluster m = s.cluster m := rfl
@[simp] theorem State.dieOf_of_setQuad (n : Nat) (q : Quad) (m : Nat) : (s.setQuad n q).dieOf m = s.dieOf m := rfl
@[simp] theorem State.port_of_setQuad (n : Nat) (q : Quad) (m : Nat) : (s.setQuad n q).port m = s.port m := rfl
@[simp] theorem State.host_of_setQuad (n : Nat) (q : Quad) (m : Nat) : (s.setQuad n q).host m = s.host m := rfl
@[simp] theorem State.vf_of_setQuad (n : Nat) (q : Quad) (m : Nat) : (s.setQuad n q).vf m = s.vf m := rfl
@[simp] theorem State.ctx_of_setQuad (n : Nat) (q : Quad) (m : Nat) : (s.setQuad n q).ctx m = s.ctx m := rfl
@[simp] theorem State.img_of_setQuad (n : Nat) (q : Quad) (m y : Nat) : (s.setQuad n q).img m y = s.img m y := rfl
@[simp] theorem State.byte_of_setQuad (n : Nat) (q : Quad) (a : Nat) : (s.setQuad n q).byte a = s.byte a := rfl
@[simp] theorem State.core_of_setDie (n : Nat) (d : Die) (m : Nat) : (s.setDie n d).core m = s.core m := rfl
@[simp] theorem State.cluster_of_setDie (n : Nat) (d : Die) (m : Nat) : (s.setDie n d).cluster m = s.cluster m := rfl
@[simp] theorem State.quad_of_setDie (n : Nat) (d : Die) (m : Nat) : (s.setDie n d).quad m = s.quad m := rfl
@[simp] theorem State.port_of_setDie (n : Nat) (d : Die) (m : Nat) : (s.setDie n d).port m = s.port m := rfl
@[simp] theorem State.host_of_setDie (n : Nat) (d : Die) (m : Nat) : (s.setDie n d).host m = s.host m := rfl
@[simp] theorem State.vf_of_setDie (n : Nat) (d : Die) (m : Nat) : (s.setDie n d).vf m = s.vf m := rfl
@[simp] theorem State.ctx_of_setDie (n : Nat) (d : Die) (m : Nat) : (s.setDie n d).ctx m = s.ctx m := rfl
@[simp] theorem State.img_of_setDie (n : Nat) (d : Die) (m y : Nat) : (s.setDie n d).img m y = s.img m y := rfl
@[simp] theorem State.byte_of_setDie (n : Nat) (d : Die) (a : Nat) : (s.setDie n d).byte a = s.byte a := rfl
@[simp] theorem State.core_of_setPort (n : Nat) (p : Port) (m : Nat) : (s.setPort n p).core m = s.core m := rfl
@[simp] theorem State.cluster_of_setPort (n : Nat) (p : Port) (m : Nat) : (s.setPort n p).cluster m = s.cluster m := rfl
@[simp] theorem State.quad_of_setPort (n : Nat) (p : Port) (m : Nat) : (s.setPort n p).quad m = s.quad m := rfl
@[simp] theorem State.dieOf_of_setPort (n : Nat) (p : Port) (m : Nat) : (s.setPort n p).dieOf m = s.dieOf m := rfl
@[simp] theorem State.host_of_setPort (n : Nat) (p : Port) (m : Nat) : (s.setPort n p).host m = s.host m := rfl
@[simp] theorem State.vf_of_setPort (n : Nat) (p : Port) (m : Nat) : (s.setPort n p).vf m = s.vf m := rfl
@[simp] theorem State.ctx_of_setPort (n : Nat) (p : Port) (m : Nat) : (s.setPort n p).ctx m = s.ctx m := rfl
@[simp] theorem State.img_of_setPort (n : Nat) (p : Port) (m y : Nat) : (s.setPort n p).img m y = s.img m y := rfl
@[simp] theorem State.byte_of_setPort (n : Nat) (p : Port) (a : Nat) : (s.setPort n p).byte a = s.byte a := rfl
@[simp] theorem State.core_of_setHost (n : Nat) (p : HostPort) (m : Nat) : (s.setHost n p).core m = s.core m := rfl
@[simp] theorem State.cluster_of_setHost (n : Nat) (p : HostPort) (m : Nat) : (s.setHost n p).cluster m = s.cluster m := rfl
@[simp] theorem State.quad_of_setHost (n : Nat) (p : HostPort) (m : Nat) : (s.setHost n p).quad m = s.quad m := rfl
@[simp] theorem State.dieOf_of_setHost (n : Nat) (p : HostPort) (m : Nat) : (s.setHost n p).dieOf m = s.dieOf m := rfl
@[simp] theorem State.port_of_setHost (n : Nat) (p : HostPort) (m : Nat) : (s.setHost n p).port m = s.port m := rfl
@[simp] theorem State.vf_of_setHost (n : Nat) (p : HostPort) (m : Nat) : (s.setHost n p).vf m = s.vf m := rfl
@[simp] theorem State.ctx_of_setHost (n : Nat) (p : HostPort) (m : Nat) : (s.setHost n p).ctx m = s.ctx m := rfl
@[simp] theorem State.img_of_setHost (n : Nat) (p : HostPort) (m y : Nat) : (s.setHost n p).img m y = s.img m y := rfl
@[simp] theorem State.byte_of_setHost (n : Nat) (p : HostPort) (a : Nat) : (s.setHost n p).byte a = s.byte a := rfl
@[simp] theorem State.core_of_setVf (n : Nat) (v : VF) (m : Nat) : (s.setVf n v).core m = s.core m := rfl
@[simp] theorem State.cluster_of_setVf (n : Nat) (v : VF) (m : Nat) : (s.setVf n v).cluster m = s.cluster m := rfl
@[simp] theorem State.quad_of_setVf (n : Nat) (v : VF) (m : Nat) : (s.setVf n v).quad m = s.quad m := rfl
@[simp] theorem State.dieOf_of_setVf (n : Nat) (v : VF) (m : Nat) : (s.setVf n v).dieOf m = s.dieOf m := rfl
@[simp] theorem State.port_of_setVf (n : Nat) (v : VF) (m : Nat) : (s.setVf n v).port m = s.port m := rfl
@[simp] theorem State.host_of_setVf (n : Nat) (v : VF) (m : Nat) : (s.setVf n v).host m = s.host m := rfl
@[simp] theorem State.ctx_of_setVf (n : Nat) (v : VF) (m : Nat) : (s.setVf n v).ctx m = s.ctx m := rfl
@[simp] theorem State.img_of_setVf (n : Nat) (v : VF) (m y : Nat) : (s.setVf n v).img m y = s.img m y := rfl
@[simp] theorem State.byte_of_setVf (n : Nat) (v : VF) (a : Nat) : (s.setVf n v).byte a = s.byte a := rfl
@[simp] theorem State.core_of_setCtx (n : Nat) (c : Ctx) (m : Nat) : (s.setCtx n c).core m = s.core m := rfl
@[simp] theorem State.cluster_of_setCtx (n : Nat) (c : Ctx) (m : Nat) : (s.setCtx n c).cluster m = s.cluster m := rfl
@[simp] theorem State.quad_of_setCtx (n : Nat) (c : Ctx) (m : Nat) : (s.setCtx n c).quad m = s.quad m := rfl
@[simp] theorem State.dieOf_of_setCtx (n : Nat) (c : Ctx) (m : Nat) : (s.setCtx n c).dieOf m = s.dieOf m := rfl
@[simp] theorem State.port_of_setCtx (n : Nat) (c : Ctx) (m : Nat) : (s.setCtx n c).port m = s.port m := rfl
@[simp] theorem State.host_of_setCtx (n : Nat) (c : Ctx) (m : Nat) : (s.setCtx n c).host m = s.host m := rfl
@[simp] theorem State.vf_of_setCtx (n : Nat) (c : Ctx) (m : Nat) : (s.setCtx n c).vf m = s.vf m := rfl
@[simp] theorem State.img_of_setCtx (n : Nat) (c : Ctx) (m y : Nat) : (s.setCtx n c).img m y = s.img m y := rfl
@[simp] theorem State.byte_of_setCtx (n : Nat) (c : Ctx) (a : Nat) : (s.setCtx n c).byte a = s.byte a := rfl

@[simp] theorem State.img_setImg (k x : Nat) (i : Img) : (s.setImg k x i).img k x = i := by simp [State.setImg, State.img]
theorem State.img_setImg_ne {k x m y : Nat} (i : Img) (h : imgKey m y ≠ imgKey k x) : (s.setImg k x i).img m y = s.img m y := by
  simp [State.setImg, State.img, h]
theorem State.tget_setImg_ne {k x n : Nat} (i : Img) (h : n ≠ imgKey k x) : tget (s.setImg k x i).imgs n = tget s.imgs n := by
  simp [State.setImg, h]

/-- Images of contexts below 4096 have keys of their own. -/
theorem imgKey_inj {k x m y : Nat} (hx : x < 4096) (hy : y < 4096) : imgKey k x = imgKey m y ↔ k = m ∧ x = y := by
  unfold imgKey; omega

/-! ### Images -/

variable (i : Img)

@[simp] theorem Img.fibre_setFibre (e : Nat) (f : Fibre) : (i.setFibre e f).fibre e = f := by simp [Img.setFibre, Img.fibre]
theorem Img.fibre_setFibre_ne {e d : Nat} (f : Fibre) (h : d ≠ e) : (i.setFibre e f).fibre d = i.fibre d := by
  simp [Img.setFibre, Img.fibre, h]
@[simp] theorem Img.setFibre_x (e : Nat) (f : Fibre) : (i.setFibre e f).x = i.x := rfl
@[simp] theorem Img.setFibre_xfull (e : Nat) (f : Fibre) : (i.setFibre e f).xfull = i.xfull := rfl
@[simp] theorem Img.setFibre_v (e : Nat) (f : Fibre) : (i.setFibre e f).v = i.v := rfl
@[simp] theorem Img.setFibre_vfull (e : Nat) (f : Fibre) : (i.setFibre e f).vfull = i.vfull := rfl
@[simp] theorem Img.setFibre_k (e : Nat) (f : Fibre) : (i.setFibre e f).k = i.k := rfl
@[simp] theorem Img.setFibre_h (e : Nat) (f : Fibre) : (i.setFibre e f).h = i.h := rfl
@[simp] theorem Img.setFibre_fmt (e : Nat) (f : Fibre) : (i.setFibre e f).fmt = i.fmt := rfl
@[simp] theorem Img.setFibre_fctl (e : Nat) (f : Fibre) : (i.setFibre e f).fctl = i.fctl := rfl
@[simp] theorem Img.setFibre_fstatus (e : Nat) (f : Fibre) : (i.setFibre e f).fstatus = i.fstatus := rfl
@[simp] theorem Img.setFibre_lb (e : Nat) (f : Fibre) : (i.setFibre e f).lb = i.lb := rfl
@[simp] theorem Img.setFibre_le (e : Nat) (f : Fibre) : (i.setFibre e f).le = i.le := rfl
@[simp] theorem Img.setFibre_lc (e : Nat) (f : Fibre) : (i.setFibre e f).lc = i.lc := rfl
@[simp] theorem Img.setFibre_streams (e : Nat) (f : Fibre) : (i.setFibre e f).streams = i.streams := rfl
@[simp] theorem Img.setFibre_rep (e : Nat) (f : Fibre) : (i.setFibre e f).rep = i.rep := rfl
@[simp] theorem Img.setFibre_q0 (e : Nat) (f : Fibre) : (i.setFibre e f).q0 = i.q0 := rfl
@[simp] theorem Img.setFibre_cuts (e : Nat) (f : Fibre) : (i.setFibre e f).cuts = i.cuts := rfl
@[simp] theorem Img.setFibre_qreg (e : Nat) (f : Fibre) : (i.setFibre e f).qreg = i.qreg := rfl
@[simp] theorem Img.setFibre_fifoL (e : Nat) (f : Fibre) : (i.setFibre e f).fifoL = i.fifoL := rfl
@[simp] theorem Img.setFibre_fifoR (e : Nat) (f : Fibre) : (i.setFibre e f).fifoR = i.fifoR := rfl
@[simp] theorem Img.setFibre_handlers (e : Nat) (f : Fibre) : (i.setFibre e f).handlers = i.handlers := rfl
@[simp] theorem Img.setFibre_inbox (e : Nat) (f : Fibre) : (i.setFibre e f).inbox = i.inbox := rfl
@[simp] theorem Img.setFibre_ires (e : Nat) (f : Fibre) : (i.setFibre e f).ires = i.ires := rfl
@[simp] theorem Img.setFibre_parked (e : Nat) (f : Fibre) : (i.setFibre e f).parked = i.parked := rfl
@[simp] theorem Img.setFibre_kept (e : Nat) (f : Fibre) : (i.setFibre e f).kept = i.kept := rfl
@[simp] theorem Img.setFibre_ops (e : Nat) (f : Fibre) : (i.setFibre e f).ops = i.ops := rfl
@[simp] theorem Img.setFibre_cause (e : Nat) (f : Fibre) : (i.setFibre e f).cause = i.cause := rfl
@[simp] theorem Img.setFibre_table (e : Nat) (f : Fibre) : (i.setFibre e f).table = i.table := rfl
@[simp] theorem Img.setFibre_stopTick (e : Nat) (f : Fibre) : (i.setFibre e f).stopTick = i.stopTick := rfl
@[simp] theorem Img.setFibre_parkings (e : Nat) (f : Fibre) : (i.setFibre e f).parkings = i.parkings := rfl
@[simp] theorem Img.setFibre_atCkpt (e : Nat) (f : Fibre) : (i.setFibre e f).atCkpt = i.atCkpt := rfl
@[simp] theorem Img.setFibre_hush (e : Nat) (f : Fibre) : (i.setFibre e f).hush = i.hush := rfl
@[simp] theorem Img.setFibre_odd (e : Nat) (f : Fibre) : (i.setFibre e f).odd = i.odd := rfl

end Sys2Proof.Machine
end

