-- ==== Sys2Proof/Laws/Memory.lean ====
section
/-! SUPPORT. Memory: its canonical form, which every operation on it keeps, and what a read after a write gives. -/
namespace Sys2Proof.Machine

/-! ### The canonical form -/

theorem cellsFrom_mono {m : List Host.Cell} {a b : Nat} (hb : b ≤ a) (h : cellsFrom a m = true) : cellsFrom b m = true := by
  cases m with
  | nil => rfl
  | cons c t =>
    obtain ⟨k, v⟩ := c
    simp only [cellsFrom, Bool.and_eq_true, decide_eq_true_eq] at h ⊢
    exact ⟨⟨by omega, h.1.2⟩, h.2⟩

theorem cellsFrom_cellSet {m : List Host.Cell} {a n : Nat} {x : Byte} (ha : a ≤ n) (h : cellsFrom a m = true) :
    cellsFrom a (cellSet m n x) = true := by
  induction m generalizing a with
  | nil =>
    simp only [cellSet]
    split
    · rfl
    · next hx => simpa [cellsFrom, ha] using hx
  | cons c t ih =>
    obtain ⟨k, v⟩ := c
    simp only [cellsFrom, Bool.and_eq_true, decide_eq_true_eq] at h
    simp only [cellSet]
    split
    · next e =>
      subst e
      split
      · exact cellsFrom_mono (by omega) h.2
      · next hx => simpa [cellsFrom, ha, h.2] using hx
    · split
      · split
        · simp [cellsFrom, h]
        · next hx => simpa [cellsFrom, ha, h, Nat.succ_le_of_lt ‹_›] using hx
      · simp [cellsFrom, h, ih (show k + 1 ≤ n by omega) h.2]

theorem cellsFrom_filter {m : List Host.Cell} {a : Nat} (p : Host.Cell → Bool) (h : cellsFrom a m = true) :
    cellsFrom a (m.filter p) = true := by
  induction m generalizing a with
  | nil => rfl
  | cons c t ih =>
    obtain ⟨k, v⟩ := c
    simp only [cellsFrom, Bool.and_eq_true, decide_eq_true_eq] at h
    simp only [List.filter]
    split
    · simp [cellsFrom, h.1, ih h.2]
    · exact cellsFrom_mono (by omega) (ih h.2)

theorem Memory.wf_cellSet {m : List Host.Cell} (n : Nat) (x : Byte) (h : Memory.wf m = true) : Memory.wf (cellSet m n x) = true :=
  cellsFrom_cellSet (Nat.zero_le _) h

theorem Memory.wf_filter {m : List Host.Cell} (p : Host.Cell → Bool) (h : Memory.wf m = true) : Memory.wf (m.filter p) = true :=
  cellsFrom_filter p h

theorem Memory.wf_cellsSet {m : List Host.Cell} (a : Nat) (bs : Bytes) (h : Memory.wf m = true) :
    Memory.wf (cellsSet m a bs) = true := by
  induction bs generalizing m a with
  | nil => exact h
  | cons b bs ih => exact ih _ (Memory.wf_cellSet _ _ h)

/-- A list of bytes set one after another, each at a place of its own. -/
theorem Memory.wf_foldl {α : Type} {m : List Host.Cell} (l : List α) (f : α → Nat) (g : α → Byte) (h : Memory.wf m = true) :
    Memory.wf (l.foldl (fun m x => cellSet m (f x) (g x)) m) = true := by
  induction l generalizing m with
  | nil => exact h
  | cons x l ih => exact ih (Memory.wf_cellSet _ _ h)

theorem cellGet_below {m : List Host.Cell} {b n : Nat} (h : cellsFrom b m = true) (hn : n < b) : cellGet m n = unlisted := by
  cases m with
  | nil => rfl
  | cons e l =>
    obtain ⟨i, z⟩ := e
    simp only [cellsFrom, Bool.and_eq_true, decide_eq_true_eq] at h
    simp only [cellGet, if_neg (show ¬ n = i by omega), if_pos (show n < i by omega)]

/-- Two canonical lists that read alike are one list. -/
theorem cells_ext {m w : List Host.Cell} {a : Nat} (hm : cellsFrom a m = true) (hw : cellsFrom a w = true)
    (h : ∀ n, cellGet m n = cellGet w n) : m = w := by
  induction m generalizing w a with
  | nil =>
    cases w with
    | nil => rfl
    | cons c t =>
      obtain ⟨k, v⟩ := c
      simp only [cellsFrom, Bool.and_eq_true, decide_eq_true_eq] at hw
      exact absurd (h k).symm (by simpa [cellGet] using hw.1.2)
  | cons c t ih =>
    obtain ⟨k, v⟩ := c
    simp only [cellsFrom, Bool.and_eq_true, decide_eq_true_eq] at hm
    cases w with
    | nil => exact absurd (h k) (by simpa [cellGet] using hm.1.2)
    | cons d u =>
      obtain ⟨j, y⟩ := d
      simp only [cellsFrom, Bool.and_eq_true, decide_eq_true_eq] at hw
      have hk : k = j := by
        rcases Nat.lt_trichotomy k j with e | e | e
        · have := h k
          simp [cellGet, show ¬ k = j by omega, e] at this
          simp [this] at hm
        · exact e
        · have := h j
          simp [cellGet, show ¬ j = k by omega, e] at this
          simp [← this] at hw
      subst hk
      have hv : v = y := by simpa [cellGet] using h k
      subst hv
      rw [ih hm.2 hw.2]
      intro n
      have hn := h n
      rcases Nat.lt_trichotomy n k with e | e | e
      · rw [cellGet_below hm.2 (by omega), cellGet_below hw.2 (by omega)]
      · rw [cellGet_below hm.2 (by omega), cellGet_below hw.2 (by omega)]
      · simpa [cellGet, show ¬ n = k by omega, show ¬ n < k by omega] using hn

/-- Equal memories are equal lists. -/
theorem Memory.ext {m w : List Host.Cell} (hm : Memory.wf m = true) (hw : Memory.wf w = true)
    (h : ∀ n, cellGet m n = cellGet w n) : m = w := cells_ext hm hw h

/-! ### The operations that keep it -/

variable {s : State}

theorem State.claim_wf (a n : Nat) (h : Memory.wf s.mem = true) : Memory.wf (s.claim a n).mem = true := by
  simp only [State.claim]
  split
  · exact Memory.wf_cellsSet _ _ h
  · exact h

theorem State.putBytes_wf (a : Nat) (bs : Bytes) (h : Memory.wf s.mem = true) : Memory.wf (s.putBytes a bs).mem = true :=
  Memory.wf_cellsSet _ _ (State.claim_wf _ _ h)

theorem State.writeNat_wf (a n v : Nat) (h : Memory.wf s.mem = true) : Memory.wf (s.writeNat a n v).mem = true :=
  State.putBytes_wf _ _ h

theorem State.zeroRange_wf (lo hi : Nat) (h : Memory.wf s.mem = true) : Memory.wf (s.zeroRange lo hi).mem = true :=
  Memory.wf_filter _ h

theorem State.copyRange_wf (src dst n : Nat) (h : Memory.wf s.mem = true) : Memory.wf (s.copyRange src dst n).mem = true := by
  simp only [State.copyRange]
  split
  · exact Memory.wf_cellsSet _ _ (State.zeroRange_wf _ _ h)
  · exact Memory.wf_foldl _ _ _ (State.zeroRange_wf _ _ h)

theorem State.zeroMpa_wf (c : Ctx) (lo hi : Nat) (h : Memory.wf s.mem = true) : Memory.wf (s.zeroMpa c lo hi).mem = true := by
  simp only [State.zeroMpa]
  split
  · split
    · exact h
    · exact State.zeroRange_wf _ _ h
  · exact Memory.wf_filter _ h

/-! ### Reads after writes -/

/-- The byte that was set is read. -/
theorem cellGet_cellSet_self {m : List Host.Cell} (n : Nat) (x : Byte) {a : Nat} (h : cellsFrom a m = true) :
    cellGet (cellSet m n x) n = x := by
  induction m generalizing a with
  | nil =>
    simp only [cellSet]
    split
    · next e => simp [cellGet, e]
    · simp [cellGet]
  | cons c t ih =>
    obtain ⟨k, v⟩ := c
    simp only [cellsFrom, Bool.and_eq_true, decide_eq_true_eq] at h
    simp only [cellSet]
    split
    · next e =>
      subst e
      split
      · next e => rw [e]; exact cellGet_below h.2 (by omega)
      · simp [cellGet]
    · next hk =>
      split
      · next hl =>
        split
        · next e => simp [cellGet, hk, hl, e]
        · simp [cellGet]
      · next hl => simp [cellGet, hk, hl, ih h.2]

/-- The other bytes stand. -/
theorem cellGet_cellSet_ne {m : List Host.Cell} {n a : Nat} (x : Byte) {b : Nat} (h : cellsFrom b m = true) (ha : a ≠ n) :
    cellGet (cellSet m n x) a = cellGet m a := by
  induction m generalizing b with
  | nil =>
    simp only [cellSet]
    split
    · rfl
    · simp only [cellGet, if_neg ha]; split <;> rfl
  | cons c t ih =>
    obtain ⟨k, v⟩ := c
    simp only [cellsFrom, Bool.and_eq_true, decide_eq_true_eq] at h
    simp only [cellSet]
    split
    · next e =>
      subst e
      split
      · simp only [cellGet, if_neg ha]
        split
        · exact cellGet_below h.2 (by omega)
        · rfl
      · simp only [cellGet, if_neg ha]
    · split
      · split
        · rfl
        · simp only [cellGet, if_neg ha]
          (repeat' split) <;> first | rfl | omega
      · simp only [cellGet, ih h.2]

/-- What a run of bytes reads as after it was set: its own bytes inside it, what was there outside. -/
theorem cellGet_cellsSet {m : List Host.Cell} (h : Memory.wf m = true) (a n : Nat) (bs : Bytes) :
    cellGet (cellsSet m a bs) n = if hn : a ≤ n ∧ n < a + bs.length then bs[n - a]'(by omega) else cellGet m n := by
  induction bs generalizing m a with
  | nil => rw [dif_neg (by simp only [List.length_nil]; omega)]; rfl
  | cons b bs ih =>
    rw [cellsSet, ih (Memory.wf_cellSet _ _ h)]
    rcases Nat.lt_trichotomy n a with e | e | e
    · rw [dif_neg (by omega), dif_neg (by simp; omega), cellGet_cellSet_ne _ h (by omega)]
    · subst e
      rw [dif_neg (by omega), dif_pos (by simp), cellGet_cellSet_self _ _ h]
      simp
    · by_cases hn : n < a + 1 + bs.length
      · rw [dif_pos (by omega), dif_pos (by simp; omega)]
        simp only [show n - a = (n - (a + 1)) + 1 by omega, List.getElem_cons_succ]
      · rw [dif_neg (by omega), dif_neg (by simp; omega), cellGet_cellSet_ne _ h (by omega)]

/-- With no open range, a byte is the one listed. -/
theorem State.byte_plain (h : s.lost = []) (a : Nat) : s.byte a = cellGet s.mem a := by
  simp [State.byte, lostAt, h]

theorem State.claim_plain (h : s.lost = []) (a n : Nat) : s.claim a n = s := by
  simp [State.claim, h]

/-- With no open range, a write sets its bytes and nothing else. -/
theorem State.byte_putBytes (hl : s.lost = []) (h : Memory.wf s.mem = true) (a n : Nat) (bs : Bytes) :
    (s.putBytes a bs).byte n = if hn : a ≤ n ∧ n < a + bs.length then bs[n - a]'(by omega) else s.byte n := by
  rw [State.byte_plain (by simpa [State.putBytes, State.claim_plain hl] using hl), State.byte_plain hl]
  simp only [State.putBytes, State.claim_plain hl]
  exact cellGet_cellsSet h a n bs

@[simp] theorem toBytes_length (n v : Nat) : (toBytes n v).length = n := by
  induction n generalizing v with
  | zero => rfl
  | succ n ih => simp [toBytes, ih]

/-- A little-endian number read back. -/
theorem ofBytes_toBytes (n v : Nat) : ofBytes (toBytes n v) = v % 256 ^ n := by
  induction n generalizing v with
  | zero => simp [toBytes, ofBytes, Nat.mod_one]
  | succ n ih =>
    simp only [toBytes, ofBytes, ih, BitVec.toNat_ofNat]
    rw [show (2 : Nat) ^ 8 = 256 from rfl, Nat.pow_succ (n := 256), Nat.mul_comm (256 ^ n) 256, Nat.mod_mul]

/-! ### After reset -/

theorem State.reset_wf : Memory.wf State.reset.mem = true := by rfl

end Sys2Proof.Machine
end

