-- ==== Sys2Proof/Laws/Operands.lean ====
section
/-! SUPPORT. When the operands of a unit are ready: the operands among x registers, whose conditions are those of R64, R65 and
R169, and the sources in general. -/
namespace Sys2Proof.Machine
open Safety

variable {s : State}

/-- An operand among the x registers, or a further condition, that holds nothing back. -/
def XMet (s : State) : Opnd → Prop
  | .x a => XIn s a
  | .dx r => XOut s r
  | .cond ok _ _ _ => ok = true
  | _ => False

theorem emptyTrap_met (os pre : List Opnd) (h : ∀ o ∈ os, XMet s o) : s.emptyTrap pre os = .ok () := by
  induction os generalizing pre with
  | nil => rfl
  | cons o os ih =>
    have ho := h o (by simp)
    have ht : ∀ o ∈ os, XMet s o := fun x hx => h x (by simp [hx])
    cases o with
    | x a => simp only [XMet, XIn] at ho; simp [State.emptyTrap, ho, ih _ ht]
    | v a => exact ho.elim
    | dx r => simp [State.emptyTrap, ih _ ht]
    | dv r => exact ho.elim
    | cond a b c d => simp [State.emptyTrap, ih _ ht]

theorem streamGuards_met (os pre : List Opnd) (h : ∀ o ∈ os, XMet s o) : s.streamGuards pre os = .ok s := by
  induction os generalizing pre with
  | nil => rfl
  | cons o os ih =>
    have ho := h o (by simp)
    have ht : ∀ o ∈ os, XMet s o := fun x hx => h x (by simp [hx])
    cases o with
    | v a => exact ho.elim
    | _ => simp [State.streamGuards, State.popGuard, ih _ ht, guardedAfter, bind, Except.bind]

theorem pushGuards_met (os : List Opnd) (h : ∀ o ∈ os, XMet s o) : s.pushGuards os = .ok () := by
  induction os with
  | nil => rfl
  | cons o os ih =>
    have ho := h o (by simp)
    have ht : ∀ o ∈ os, XMet s o := fun x hx => h x (by simp [hx])
    cases o with
    | dv r => exact ho.elim
    | _ => simp only [State.pushGuards]; exact ih ht

theorem unmet_met (pre : List Opnd) {o : Opnd} (h : XMet s o) : s.unmet pre o = none := by
  cases o with
  | x a => simp only [XMet, XIn] at h; simp [State.unmet, h]
  | v a => exact h.elim
  | dx r =>
    rcases h with h | h
    · simp [State.unmet, h]
    · simp [State.unmet, h]
  | dv r => exact h.elim
  | cond a b c d => simp only [XMet] at h; simp [State.unmet, h]

theorem firstUnmet_met (os pre : List Opnd) (h : ∀ o ∈ os, XMet s o) : s.firstUnmet pre os = none := by
  induction os generalizing pre with
  | nil => rfl
  | cons o os ih =>
    simp only [State.firstUnmet, unmet_met pre (h o (by simp))]
    exact ih _ fun x hx => h x (by simp [hx])

theorem srcUnmet_met (os pre : List Opnd) (h : ∀ o ∈ os, XMet s o) : s.srcUnmet pre os = false := by
  induction os generalizing pre with
  | nil => rfl
  | cons o os ih =>
    simp only [State.srcUnmet, unmet_met pre (h o (by simp)), Option.isSome_none, Bool.and_false, Bool.false_or]
    exact ih _ fun x hx => h x (by simp [hx])

theorem settle_met (os : List Opnd) (h : ∀ o ∈ os, XMet s o) : s.settle os = .ok () := by
  simp [State.settle, firstUnmet_met os [] h]

theorem enterFor_met (need os : List Opnd) (hn : ∀ o ∈ need, XMet s o) (h : ∀ o ∈ os, XMet s o) : s.enterFor need os = .ok () := by
  simp [State.enterFor, emptyTrap_met os [] h, streamGuards_met os [] h, pushGuards_met os h, srcUnmet_met need [] hn, guardedAfter, bind,
    pure, Except.bind, Except.pure]

theorem enter_met (os : List Opnd) (h : ∀ o ∈ os, XMet s o) : s.enter os = .ok () := enterFor_met os os h h

/-- R169: x operands that hold nothing back are ready. -/
theorem ready_met (os : List Opnd) (h : ∀ o ∈ os, XMet s o) : s.ready os = .ok () := by
  simp [State.ready, enter_met os h, settle_met os h, bind, Except.bind]

/-- R82: a unit whose checks have led to no other state leaves no marks. -/
theorem keepMarks_self : s.keepMarks s = s := by
  have h (l : List Nat) : l.foldl (fun (s' : State) p =>
      if s'.readFor none p 8 &&& (s.readFor none p 8 &&& 24) = s.readFor none p 8 &&& 24 then s'
      else s'.orPte p (s.readFor none p 8 &&& 24)) s = s := by
    induction l with
    | nil => rfl
    | cons p l ih => simpa [← Nat.and_assoc] using ih
  simp only [State.keepMarks, h]
  rcases hq : tget s.queues (s.ctx (s.partitionOf s.unit.ctx)).dq with _ | q <;> simp

/-- The sources of a memory operand. -/
theorem memOps_met (m : MemOp) (h : ∀ a ∈ m.srcs, XIn s a) : ∀ o ∈ memOps m, XMet s o := by
  intro o ho
  simp only [memOps, List.mem_map] at ho
  obtain ⟨a, ha, rfl⟩ := ho
  exact h a ha

end Sys2Proof.Machine
end

