-- ==== Sys2Proof/Laws/Ops.lean ====
section
/-! SUPPORT. The shared operations: what each answers, and that those that write no memory leave all of it. -/
namespace Sys2Proof.Machine
open Safety

/-! ### Tables and small searches -/

/-- Of two writes of one entry the last stands. -/
@[simp] theorem tset_tset {α : Type} (t : Tab α) (n : Nat) (x y : α) : tset (tset t n x) n y = tset t n y := by
  induction t with
  | nil => simp [tset]
  | cons p t ih =>
    obtain ⟨k, v⟩ := p
    simp only [tset]
    split
    · simp [tset]
    · split
      · simp [tset]
      · next h1 h2 => simp [tset, h1, h2, ih]

theorem lowestFrom_some {f : Nat → Bool} {n k m : Nat} : lowestFrom f n k = some m ↔
    k ≤ m ∧ m < k + n ∧ f m = true ∧ ∀ j, k ≤ j → j < m → f j = false := by
  induction n generalizing k with
  | zero => simp only [lowestFrom, false_iff, reduceCtorEq]; omega
  | succ n ih =>
    simp only [lowestFrom]
    split
    · next hk =>
      simp only [Option.some.injEq]
      constructor
      · rintro rfl; exact ⟨Nat.le_refl _, by omega, hk, fun j h1 h2 => absurd h1 (by omega)⟩
      · rintro ⟨h1, -, -, h4⟩
        rcases Nat.lt_or_ge k m with h | h
        · simp [h4 k (Nat.le_refl _) h] at hk
        · omega
    · next hk =>
      rw [ih]
      constructor
      · rintro ⟨h1, h2, h3, h4⟩
        refine ⟨by omega, by omega, h3, fun j a b => ?_⟩
        rcases Nat.eq_or_lt_of_le a with e | e
        · subst e; simpa using hk
        · exact h4 j e b
      · rintro ⟨h1, h2, h3, h4⟩
        have : k ≠ m := fun e => hk (e ▸ h3)
        exact ⟨by omega, by omega, h3, fun j a b => h4 j (by omega) b⟩

/-- The lowest index below n that satisfies a test. -/
theorem lowest_some {f : Nat → Bool} {n m : Nat} : lowest n f = some m ↔ m < n ∧ f m = true ∧ ∀ j < m, f j = false := by
  simp [lowest, lowestFrom_some]

theorem lowest_none {f : Nat → Bool} {n : Nat} : lowest n f = none ↔ ∀ j < n, f j = false := by
  constructor
  · intro h j hj
    cases hf : f j with
    | false => rfl
    | true =>
      have : ∃ m, m ≤ j ∧ f m = true ∧ ∀ i < m, f i = false := by
        clear h hj
        induction j using Nat.strongRecOn with
        | ind j ih =>
          by_cases h : ∃ i < j, f i = true
          · obtain ⟨i, hi, hfi⟩ := h
            obtain ⟨m, h1, h2, h3⟩ := ih i hi hfi
            exact ⟨m, by omega, h2, h3⟩
          · exact ⟨j, Nat.le_refl _, hf, fun i hi => by
              cases hfi : f i with
              | false => rfl
              | true => exact absurd ⟨i, hi, hfi⟩ h⟩
      obtain ⟨m, h1, h2, h3⟩ := this
      rw [lowest_some.mpr ⟨by omega, h2, h3⟩] at h
      cases h
  · intro h
    cases e : lowest n f with
    | none => rfl
    | some m => have := lowest_some.mp e; simp [h m this.1] at this

/-! ### Operations that leave memory as it is -/

variable (s : State)

@[simp] theorem State.setMe_mem (i : Img) : (s.setMe i).mem = s.mem := rfl
@[simp] theorem State.setMyFibre_mem (f : Fibre) : (s.setMyFibre f).mem = s.mem := rfl
@[simp] theorem State.writeP_mem (p : BitVec 3) (b : Bool) : (s.writeP p b).mem = s.mem := rfl
@[simp] theorem State.writeX_mem (r : Reg) (v : DWord) : (s.writeX r v).mem = s.mem := by
  simp only [State.writeX]; split
  · rfl
  · split <;> rfl
@[simp] theorem State.emptyX_mem (r : Reg) : (s.emptyX r).mem = s.mem := by
  simp only [State.emptyX]; split
  · rfl
  · split <;> rfl
@[simp] theorem State.logRec_mem (a b c d : Nat) (x y z : DWord) (e f : Nat) : (s.logRec a b c d x y z e f).mem = s.mem := rfl
@[simp] theorem State.machineCheck_mem (p a b c : Nat) (x y : DWord) : (s.machineCheck p a b c x y).mem = s.mem := by
  simp only [State.machineCheck]; split <;> rfl
@[simp] theorem State.routePacket_mem (q : Nat) (cs : List Nat) (c : Nat) (p : Packet) : (s.routePacket q cs c p).mem = s.mem := by
  simp only [State.routePacket]; split
  · rfl
  · split <;> rfl
@[simp] theorem State.sendPacket_mem (f : FaultAt) (c : Cls) (a x : DWord) (cs : List Nat) :
    (s.sendPacket f c a x cs).mem = s.mem := by simp [State.sendPacket]
@[simp] theorem State.freeze_mem (f : FaultAt) (c : Cls) (a x : DWord) : (s.freeze f c a x).mem = s.mem := by
  simp [State.freeze]
@[simp] theorem State.release_mem (a b c : Nat) : (s.release a b c).mem = s.mem := rfl
@[simp] theorem State.newLink_mem (l : Link) : (s.newLink l).2.2.mem = s.mem := rfl
@[simp] theorem State.freeVal_mem : s.freeVal.2.mem = s.mem := rfl
@[simp] theorem State.next_mem : s.next.2.mem = s.mem := rfl
@[simp] theorem State.markReplied_mem (n : Nat) : (s.markReplied n).mem = s.mem := by
  simp only [State.markReplied]; split <;> rfl
@[simp] theorem State.updWho_mem (w : Who) (g : Fibre → Fibre) : (s.updWho w g).mem = s.mem := by
  simp only [State.updWho]; split <;> rfl
@[simp] theorem State.issued_mem (pc : DWord) : (s.issued pc).mem = s.mem := by simp only [State.issued]; split <;> rfl
@[simp] theorem State.popV_mem (r : Reg) (n : Nat) : (s.popV r n).mem = s.mem := by
  simp only [State.popV]; split <;> rfl
@[simp] theorem State.parkMe_mem (wh : BitVec 2) (f : AFail) (k : Nat) : (s.parkMe wh f k).mem = s.mem := by
  cases f with
  | hostMiss p g d w => simp only [State.parkMe]; split <;> rfl
  | _ => simp [State.parkMe, State.newLink]

/-! ### Operations that leave the round trips, or the streams, as they are -/

@[simp] theorem State.setMe_flights (i : Img) : (s.setMe i).flights = s.flights := rfl
@[simp] theorem State.setMyFibre_flights (f : Fibre) : (s.setMyFibre f).flights = s.flights := rfl
@[simp] theorem State.writeP_flights (p : BitVec 3) (b : Bool) : (s.writeP p b).flights = s.flights := rfl
@[simp] theorem State.writeX_flights (r : Reg) (v : DWord) : (s.writeX r v).flights = s.flights := by
  simp only [State.writeX]; split
  · rfl
  · split <;> rfl
@[simp] theorem State.emptyX_flights (r : Reg) : (s.emptyX r).flights = s.flights := by
  simp only [State.emptyX]; split
  · rfl
  · split <;> rfl
@[simp] theorem State.popV_flights (r : Reg) (n : Nat) : (s.popV r n).flights = s.flights := by
  simp only [State.popV]; split <;> rfl
@[simp] theorem State.writeX_streams (r : Reg) (v : DWord) : (s.writeX r v).me.streams = s.me.streams := by
  simp only [State.writeX]; split
  · rfl
  · split <;> simp [State.me, State.img, State.setMe, State.setMyFibre, State.setImg, Img.setFibre]

/-! ### Registers -/

/-- R173: a write of x0 writes nothing. -/
@[simp] theorem State.writeX_zero (v : DWord) : s.writeX 0#5 v = s := by simp [State.writeX]

/-- R173: x0 reads zero and is full. -/
@[simp] theorem State.xVal_zero : s.xVal 0#5 = 0 := by simp [State.xVal]
@[simp] theorem State.xFull_zero : s.xFull 0#5 = true := by simp [State.xFull]

@[simp] theorem State.setMe_unit (i : Img) : (s.setMe i).unit = s.unit := rfl
@[simp] theorem State.setMe_me (i : Img) : (s.setMe i).me = i := by simp [State.setMe, State.me, State.img, State.setImg]
@[simp] theorem State.setMyFibre_unit (f : Fibre) : (s.setMyFibre f).unit = s.unit := rfl
@[simp] theorem State.setMyFibre_myFibre (f : Fibre) : (s.setMyFibre f).myFibre = f := by
  simp [State.setMyFibre, State.myFibre, Img.fibre, Img.setFibre]
@[simp] theorem State.writeX_unit (r : Reg) (v : DWord) : (s.writeX r v).unit = s.unit := by
  simp only [State.writeX]; split
  · rfl
  · split <;> rfl

/-- A word with the k-th bit set has it. -/
theorem Word.getLsbD_or_bit (x : Word) {k : Nat} (h : k < 32) : (x ||| BitVec.ofNat 32 (2 ^ k)).getLsbD k = true := by
  rw [BitVec.getLsbD_or, BitVec.getLsbD_ofNat, Nat.testBit_two_pow_self, decide_eq_true h, Bool.true_and, Bool.or_true]

/-- An x register of the primary fibre reads what was written, in a unit that is no pair. -/
theorem State.xVal_writeX {r : Reg} (v : DWord) (h0 : r ≠ 0#5) (hp : s.isPrimary = true) (hv : s.unit.view = none) :
    (s.writeX r v).xVal r = v ∧ (s.writeX r v).xFull r = true := by
  have hp' : (s.writeX r v).isPrimary = true := by simpa [State.isPrimary] using hp
  have hm : (s.writeX r v).view = { s.me with x := s.me.x.set r.toNat v, xfull := s.me.xfull ||| BitVec.ofNat 32 (2 ^ r.toNat) } := by
    simp [State.view, State.writeX, h0, hp, hv]
  refine ⟨by simp [State.xVal, h0, hp', hm], ?_⟩
  rw [State.xFull, if_neg h0, if_pos hp', hm]
  exact Word.getLsbD_or_bit _ r.isLt

/-- The primary fibre's other x registers stand. -/
theorem State.xVal_writeX_ne {r q : Reg} (v : DWord) (h : q ≠ r) (hp : s.isPrimary = true) (hv : s.unit.view = none) :
    (s.writeX r v).xVal q = s.xVal q := by
  by_cases h0 : r = 0#5
  · subst h0; simp
  · have hp' : (s.writeX r v).isPrimary = true := by simpa [State.isPrimary] using hp
    have hm : (s.writeX r v).view = { s.me with x := s.me.x.set r.toNat v, xfull := s.me.xfull ||| BitVec.ofNat 32 (2 ^ r.toNat) } := by
      simp [State.view, State.writeX, h0, hp, hv]
    have hs : s.view = s.me := by simp [State.view, hv]
    have hn : r.toNat ≠ q.toNat := fun e => h (BitVec.eq_of_toNat_eq e.symm)
    simp [State.xVal, hp', hp, hm, hs, Vector.getElem_set_ne, hn]

/-! ### The shapes that instructions share -/

variable {s}

theorem alu2_ok (rd : Reg) (ra rb : Src) (f : DWord → DWord → DWord) (hd : XOut s rd) (ha : XIn s ra) (hb : XIn s rb) :
    alu2 rd ra rb f s = .ok (s.writeX rd (f (s.xVal ra.r) (s.xVal rb.r)), .fall) := by
  have : s.ready [.dx rd, .x ra, .x rb] = .ok () := ready_met _ (by
      rintro o (_ | ⟨_, _ | ⟨_, _ | ⟨_, ⟨⟩⟩⟩⟩)
      · exact hd
      · exact ha
      · exact hb)
  simp [alu2, this, bind, Except.bind]

theorem alu1_ok (rd : Reg) (ra : Src) (f : DWord → DWord) (hd : XOut s rd) (ha : XIn s ra) :
    alu1 rd ra f s = .ok (s.writeX rd (f (s.xVal ra.r)), .fall) := by
  have : s.ready [.dx rd, .x ra] = .ok () := ready_met _ (by
      rintro o (_ | ⟨_, _ | ⟨_, ⟨⟩⟩⟩)
      · exact hd
      · exact ha)
  simp [alu1, this, bind, Except.bind]

theorem select_ok (rd : Reg) (pn : BitVec 4) (ra rb : Src) (inv : Bool) (hd : XOut s rd) (ha : XIn s ra) (hb : XIn s rb) :
    select rd pn ra rb inv s = .ok (s.writeX rd (if s.pred pn.toNat != inv then s.xVal ra.r else s.xVal rb.r), .fall) := by
  have : s.ready [.dx rd, .x ra, .x rb] = .ok () := ready_met _ (by
      rintro o (_ | ⟨_, _ | ⟨_, _ | ⟨_, ⟨⟩⟩⟩⟩)
      · exact hd
      · exact ha
      · exact hb)
  simp [select, this, bind, Except.bind]

/-- What the shapes leave, whenever they answer: memory is as it was. -/
theorem alu2_mem {rd : Reg} {ra rb : Src} {f : DWord → DWord → DWord} {t : State} {c : Ctl}
    (h : alu2 rd ra rb f s = .ok (t, c)) : t.mem = s.mem ∧ c = .fall := by
  simp only [alu2, bind, Except.bind] at h
  split at h
  · cases h
  · cases h; simp

theorem alu1_mem {rd : Reg} {ra : Src} {f : DWord → DWord} {t : State} {c : Ctl} (h : alu1 rd ra f s = .ok (t, c)) :
    t.mem = s.mem ∧ c = .fall := by
  simp only [alu1, bind, Except.bind] at h
  split at h
  · cases h
  · cases h; simp

theorem select_mem {rd : Reg} {pn : BitVec 4} {ra rb : Src} {inv : Bool} {t : State} {c : Ctl}
    (h : select rd pn ra rb inv s = .ok (t, c)) : t.mem = s.mem ∧ c = .fall := by
  simp only [select, bind, Except.bind] at h
  split at h
  · cases h
  · cases h; simp

/-- R195: a predicate operation answers always. -/
theorem plogic_ok (pd : BitVec 3) (v : State → Bool) (s : State) : plogic pd v s = .ok (s.writeP pd (v s), .fall) := rfl

/-- R198: a jump to a register target, when it answers: memory is as it was, and the target is a multiple of 4. -/
theorem jumpReg_ok {rd : Option Reg} {ra : Src} {t : State} {c : Ctl} (h : jumpReg rd ra s = .ok (t, c)) :
    t.mem = s.mem ∧ c = .jump (s.xVal ra.r) ∧ (s.xVal ra.r).toNat % 4 = 0 := by
  simp only [jumpReg, guardC, bind, Except.bind] at h
  split at h
  · cases h
  · split at h
    · cases h
    · next h1 =>
      split at h
      · cases h
      · cases h
        refine ⟨?_, rfl, ?_⟩
        · cases rd <;> simp
        · split at h1
          · next e => simpa using e
          · cases h1

/-- R200: a loop level that is set: memory is as it was, and the body does not end before it starts. -/
theorem setLoop_ok {l : Fin 2} {n : DWord} {d : BitVec 12} {t : State} {c : Ctl} (h : setLoop l n d s = .ok (t, c)) :
    t.mem = s.mem ∧ s.unit.unitEnd.toNat ≤ (s.unit.pc + dw (4 * d.toNat)).toNat ∧
      c = if n = 0 then .jump (s.unit.pc + dw (4 * d.toNat) + 4) else .fall := by
  simp only [setLoop, guardC, bind, Except.bind] at h
  split at h
  · cases h
  · next h1 =>
    cases h
    refine ⟨rfl, ?_, rfl⟩
    split at h1
    · next e => simpa using e
    · cases h1

/-! ### Taking a fault -/

/-- R186: the fibre that faults is frozen, where the fault says it is. -/
theorem State.freeze_frozen (fa : FaultAt) (c : Cls) (a x : DWord) :
    (((s.freeze fa c a x).img fa.core fa.ctx).fibre fa.entry).st = .frozen := by
  have hi : ∀ (u : State) q cs k p, (u.routePacket q cs k p).imgs = u.imgs := by
    intro u q cs k p; simp only [State.routePacket]; split
    · rfl
    · split <;> rfl
  simp only [State.freeze, State.sendPacket, State.img, hi, State.setQuad, State.setImg, tget_tset_self, Option.getD_some]
  simp only [Img.pauseRep, Img.hushed]
  repeat' split
  all_goals simp [Img.fibre, Img.setFibre, Fibre.frozen]

/-- R405: a fibre released from a freeze is ready, at the same PC. -/
theorem State.release_ready (core ctx entry : Nat) :
    (((s.release core ctx entry).img core ctx).fibre entry).st = .ready ∧
      (((s.release core ctx entry).img core ctx).fibre entry).pc = ((s.img core ctx).fibre entry).pc := by
  simp [State.release, State.img, State.setImg, Img.fibre, Img.setFibre]

end Sys2Proof.Machine
end

