-- ==== Sys2Proof/Laws/Unit.lean ====
section
/-! SUPPORT. What a unit comes to: an instruction that has an encoding makes a unit of its effect; a lone word whose effect goes
through ends as its effect says, and one that stops stops. -/
namespace Sys2Proof.Machine
open Safety

/-- The meaning of an instruction that has an encoding. -/
theorem exec_encoded (i : Instr) (s : State) (h : i.isEncoded = true) : exec i s = .next (runUnit i (effOf i) s) := by
  cases i <;> first | rfl | exact absurd h (by decide) | (simp [Instr.isEncoded] at h)

theorem unitResult_alone {i : Instr} {s : State} (h : Alone s i) (eff : State → Res) : s.unitResult i eff =
    match eff s with
    | .error x => .error (s.unit.wh, x)
    | .ok r => .ok (s.noted r.1, r.2) := by
  obtain ⟨hp, hl, ha, hw⟩ := h
  simp only [State.unitResult, hp, hl, ha, hw, Bool.not_true, Bool.or_self, Bool.false_eq_true, if_false]
  try (cases eff s <;> rfl)

/-- A unit that starts no round trip has nothing to note. -/
theorem State.noteUndo_flights {s t : State} (h : t.flights = s.flights) : s.noteUndo t = t := by
  have : t.flights.filter (fun p => s.starts p.1) = [] := by
    rw [List.filter_eq_nil_iff, h]
    intro p hp
    simp only [State.starts, Bool.not_eq_true, Bool.not_eq_false', List.any_eq_true]
    exact ⟨p, hp, beq_self_eq_true p.1⟩
  simp [State.noteUndo, this]

theorem State.noted_flights {s t : State} (h : t.flights = s.flights) : s.noted t = t := by
  simp only [State.noted, State.noteUndo_flights h, ite_self]

/-- A unit that leaves every stream where it was has nothing to note. -/
theorem State.noted_streams {s t : State} (h : t.me.streams = s.me.streams) : s.noted t = t := by
  simp [State.noted, State.hasPopped, h]

/-- A lone word whose effect goes through. -/
theorem exec_alone {i : Instr} {s t : State} {c : Ctl} (h0 : i.isEncoded = true) (h : Alone s i) (e : effOf i s = .ok (t, c)) :
    exec i s = .next (s.commit (s.noted t) c) := by
  rw [exec_encoded i s h0, runUnit, unitResult_alone h, e]

/-- The same of a word that starts no round trip. -/
theorem exec_alone_flights {i : Instr} {s t : State} {c : Ctl} (h0 : i.isEncoded = true) (h : Alone s i) (e : effOf i s = .ok (t, c))
    (hf : t.flights = s.flights) : exec i s = .next (s.commit t c) := by
  rw [exec_alone h0 h e, State.noted_flights hf]

/-- The same of a word that leaves every stream where it was. -/
theorem exec_alone_streams {i : Instr} {s t : State} {c : Ctl} (h0 : i.isEncoded = true) (h : Alone s i) (e : effOf i s = .ok (t, c))
    (hs : t.me.streams = s.me.streams) : exec i s = .next (s.commit t c) := by
  rw [exec_alone h0 h e, State.noted_streams hs]

/-- A lone word that a condition or a guard stops. -/
theorem exec_stops {i : Instr} {s : State} {x : Stop} (h0 : i.isEncoded = true) (h : Alone s i) (e : effOf i s = .error x) :
    exec i s = .next (s.stopUnit s.unit.wh x) := by
  rw [exec_encoded i s h0, runUnit, unitResult_alone h, e]

end Sys2Proof.Machine
end

