-- ==== Sys2Proof/Tests/Slice0.lean ====
section
/-! SUPPORT. Tests: terms that WellFormed refuses, words that decode, states that meet the hypotheses of the statements, and single steps. -/
namespace Sys2Proof.Tests
open Machine Safety

set_option Elab.async false

/-! ### Small states -/

/-- Core 7 of cluster 0, at DVA 0x1000 of the page that `withFetchWord` maps; its context's fault queue accepts every class. -/
def one : State :=
  let s := State.reset.withFetchWord 32 0x81298745
  { s with agenda := [], ctxs := tset s.ctxs 0 { s.ctx 0 with fq := some 2, accept := -1 },
           queues := tset s.queues 2 { ring := [0x1FFE0002000], cap := 9 }, qgens := tset s.qgens 2 0,
           unit := { core := 7, ctx := 0, entry := 0, pc := 0x1000, unitEnd := 0x1004 } }

/-- A state with values in x1, x2 and x3. -/
def State.x3 (s : State) (a b c : DWord) : State := s.setMe { s.me with x := ((s.me.x.set 1 a).set 2 b).set 3 c }
def regs (a b c : DWord) : State := State.x3 one a b c

/-- A light fibre in entry 3, with values in x1 and x2. -/
def light (a b : DWord) : State :=
  { one.setMe (one.me.setFibre 3 { pc := 0x1000, st := .ready, uid := 9, x := #v[a, b, 3, 4, 5, 6, 7, 8] }) with
    unit := { one.unit with entry := 3 } }

/-- An address in the core's own scratchpad (R78). -/
def spad (off : Nat) : DWord := 0x00FFFF0000000000 + BitVec.ofNat 64 off

/-- A state as another fibre's kind (R58): 2 is a handler. -/
def asKind (s : State) (k : BitVec 2) : State := s.setMyFibre { s.myFibre with kind := k }

/-- A producer of a register, in flight. -/
def inFlight (s : State) (d : Dst) (job : Job := .outcome 0) : State :=
  { s with flights := tset s.flights s.fresh { who := s.who, dst := d, job := job }, fresh := s.fresh + 1 }

/-- The full bit of an x register cleared. -/
def emptied (s : State) (r : Reg) : State := s.setMe { s.me with xfull := s.me.xfull &&& ~~~((1 : Word) <<< r.toNat) }

/-- A copy owns the line of a place. -/
def lineHeldAt (a : Nat) (s : State) : State :=
  { s with copies := [(0, { who := s.who, cl := some 0, scope := .cl, lines := [{ src := [], dst := .mem a, len := 4 }], started := true, rtok := none, vtok := none, fill := none })],
           fresh := s.fresh + 1 }

/-! ### What the witnesses show -/

/-- A result that is there, with a property. -/
def ok? {ε α : Type} (x : Except ε α) (p : α → Bool := fun _ => true) : Bool :=
  match x with
  | .ok a => p a
  | .error _ => false

/-- A refusal, with a property. -/
def no? {ε α : Type} (x : Except ε α) (p : ε → Bool := fun _ => true) : Bool :=
  match x with
  | .ok _ => false
  | .error e => p e

/-- A value that is there, with a property. -/
def is? {α : Type} (x : Option α) (p : α → Bool := fun _ => true) : Bool :=
  match x with
  | some a => p a
  | none => false

/-- Each instruction is a unit of its own that the fibre may issue. -/
def issues (s : State) (is : List Instr) : Bool :=
  is.all fun i => s.unit.pair.isNone && ok? (s.lightGuard i) && s.mayRunAhead i && !s.indexWaits i

theorem alone_of_issues (s : State) (is : List Instr) (h : issues s is = true) : ∀ i ∈ is, Alone s i := by
  intro i hi
  have h := List.all_eq_true.1 h i hi
  simp only [Bool.and_eq_true, Option.isNone_iff_eq_none, Bool.not_eq_true'] at h
  obtain ⟨⟨⟨h1, h2⟩, h3⟩, h4⟩ := h
  refine ⟨h1, ?_, h3, h4⟩
  unfold ok? at h2
  split at h2 <;> simp_all

/-- A step to a next state that has a property. -/
def steps (o : Host.Outcome State Fault Refusal) (p : State → Bool) : Bool :=
  match o with
  | .next t => p t
  | _ => false

/-- All of some facts. -/
abbrev All (l : List Bool) : Prop := l.all id = true

/-! ### Words of the encoding tables decode to their instructions -/

theorem test_decode_integer_1 :
    decodeTableWord 32 0b1_0_000001_00001_00010_1_00011_0_1_000000 = some (.add 1 ⟨2, true⟩ ⟨3, false⟩ true) ∧
    decodeTableWord 32 0b1_0_000001_00001_00010_1_00011_0_1_000001 = some (.sub 1 ⟨2, true⟩ ⟨3, false⟩ true) ∧
    decodeTableWord 32 0b1_0_000001_00001_00010_1_00011_0_1_000010 = some (.mul 1 ⟨2, true⟩ ⟨3, false⟩ true) ∧
    decodeTableWord 32 0b1_0_000001_00001_00010_1_00011_0_0000011 = some (.mulh 1 ⟨2, true⟩ ⟨3, false⟩) ∧
    decodeTableWord 32 0b1_0_000001_00001_00010_1_00011_0_0000100 = some (.mulhu 1 ⟨2, true⟩ ⟨3, false⟩) ∧
    decodeTableWord 32 0b1_0_000001_00001_00010_1_00011_0_1_000101 = some (.div 1 ⟨2, true⟩ ⟨3, false⟩ true) ∧
    decodeTableWord 32 0b1_0_000001_00001_00010_1_00011_0_1_000110 = some (.divu 1 ⟨2, true⟩ ⟨3, false⟩ true) ∧
    decodeTableWord 32 0b1_0_000001_00001_00010_1_00011_0_1_000111 = some (.rem 1 ⟨2, true⟩ ⟨3, false⟩ true) := by decide

theorem test_decode_integer_2 :
    decodeTableWord 32 0b1_0_000001_00001_00010_1_00011_0_1_001000 = some (.remu 1 ⟨2, true⟩ ⟨3, false⟩ true) ∧
    decodeTableWord 32 0b1_0_000001_00001_00010_1_00011_0_0001001 = some (.and 1 ⟨2, true⟩ ⟨3, false⟩) ∧
    decodeTableWord 32 0b1_0_000001_00001_00010_1_00011_0_0001010 = some (.or 1 ⟨2, true⟩ ⟨3, false⟩) ∧
    decodeTableWord 32 0b1_0_000001_00001_00010_1_00011_0_0001011 = some (.xor 1 ⟨2, true⟩ ⟨3, false⟩) ∧
    decodeTableWord 32 0b1_0_000001_00001_00010_1_00011_0_1_001100 = some (.shl 1 ⟨2, true⟩ ⟨3, false⟩ true) ∧
    decodeTableWord 32 0b1_0_000001_00001_00010_1_00011_0_1_001101 = some (.shr 1 ⟨2, true⟩ ⟨3, false⟩ true) ∧
    decodeTableWord 32 0b1_0_000001_00001_00010_1_00011_0_1_001110 = some (.sra 1 ⟨2, true⟩ ⟨3, false⟩ true) ∧
    decodeTableWord 32 0b1_0_000001_00001_00010_1_00011_0_0001111 = some (.min 1 ⟨2, true⟩ ⟨3, false⟩) := by decide

theorem test_decode_integer_3 :
    decodeTableWord 32 0b1_0_000001_00001_00010_1_00011_0_0010000 = some (.max 1 ⟨2, true⟩ ⟨3, false⟩) ∧
    decodeTableWord 32 0b1_0_000001_00001_00010_1_00011_0_0010001 = some (.minu 1 ⟨2, true⟩ ⟨3, false⟩) ∧
    decodeTableWord 32 0b1_0_000001_00001_00010_1_00011_0_0010010 = some (.maxu 1 ⟨2, true⟩ ⟨3, false⟩) ∧
    decodeTableWord 32 0b1_0_000001_00001_00010_1_00011_0_0010011 = some (.adds 1 ⟨2, true⟩ ⟨3, false⟩) ∧
    decodeTableWord 32 0b1_0_000001_00001_00010_1_00011_0_0010100 = some (.subs 1 ⟨2, true⟩ ⟨3, false⟩) ∧
    decodeTableWord 32 0b1_0_000001_00001_00010_1_0000000010101 = some (.clz 1 ⟨2, true⟩) ∧
    decodeTableWord 32 0b1_0_000001_00001_00010_1_0000000010110 = some (.ctz 1 ⟨2, true⟩) ∧
    decodeTableWord 32 0b1_0_000001_00001_00010_1_0000000010111 = some (.popc 1 ⟨2, true⟩) := by decide

theorem test_decode_immediates_1 :
    decodeTableWord 32 0b1_0_000010_00001_00010_1_1000000000011 = some (.addi 1 ⟨2, true⟩ 4099) ∧
    decodeTableWord 32 0b1_0_000011_00001_00010_1_0111111111100 = some (.andi 1 ⟨2, true⟩ 4092) ∧
    decodeTableWord 32 0b1_0_000100_00001_00010_1_1000000000011 = some (.ori 1 ⟨2, true⟩ 4099) ∧
    decodeTableWord 32 0b1_0_000101_00001_00010_1_1000000000011 = some (.xori 1 ⟨2, true⟩ 4099) ∧
    decodeTableWord 32 0b1_0_000110_00001_00010_1_000000_1_010110 = some (.shli 1 ⟨2, true⟩ true 22) ∧
    decodeTableWord 32 0b1_0_000110_00001_00010_1_010000_1_010110 = some (.shri 1 ⟨2, true⟩ true 22) ∧
    decodeTableWord 32 0b1_0_000110_00001_00010_1_100000_1_010110 = some (.srai 1 ⟨2, true⟩ true 22) ∧
    decodeTableWord 32 0b1_0_001000_00001_10_0_1011111011101111 = some (.li 1 2 48879) := by decide

theorem test_decode_immediates_2 :
    decodeTableWord 32 0b1_0_001000_00001_01_1_1011111011101111 = some (.lik 1 1 48879) ∧
    decodeTableWord 32 0b1_0_001001_00101_00011_0_00000_1_0010111 = some (.lea 5 (.index ⟨3, false⟩ ⟨5, true⟩ true)) := by decide

theorem test_decode_predicates_1 :
    decodeTableWord 32 0b1_0_001010_00_101_00010_1_00011_0_0_01_0011 = some (.cmp 5 .ge .and ⟨2, true⟩ ⟨3, false⟩) ∧
    decodeTableWord 32 0b1_0_001011_00_101_00010_1_0_101_100000001 = some (.cmpi 5 .geu ⟨2, true⟩ 257) ∧
    decodeTableWord 32 0b1_0_001100_00_001_0_0010_00_0011_00000000 = some (.pand 1 2 3) ∧
    decodeTableWord 32 0b1_0_001100_00_001_0_0010_00_0011_00000001 = some (.por 1 2 3) ∧
    decodeTableWord 32 0b1_0_001100_00_001_0_0010_00_0011_00000010 = some (.pxor 1 2 3) ∧
    decodeTableWord 32 0b1_0_001100_00_001_0_0010_00_0011_00000011 = some (.pandn 1 2 3) ∧
    decodeTableWord 32 0b1_0_001100_00_001_0_0010_00000000000100 = some (.pnot 1 2) ∧
    decodeTableWord 32 0b1_0_001100_00_001_0000000000000000101 = some (.pset 1) := by decide

theorem test_decode_predicates_2 :
    decodeTableWord 32 0b1_0_001100_00_001_0000000000000000110 = some (.pclr 1) ∧
    decodeTableWord 32 0b1_0_001100_00001_0000000000000001000 = some (.prd 1) ∧
    decodeTableWord 32 0b1_0_001100_00000_00010_1_0000000001001 = some (.pwr ⟨2, true⟩) ∧
    decodeTableWord 32 0b1_0_001101_00001_00010_1_00011_0_000_1010 = some (.csel 1 10 ⟨2, true⟩ ⟨3, false⟩) ∧
    decodeTableWord 32 0b1_0_001101_00001_00010_1_00011_0_001_1010 = some (.cseln 1 10 ⟨2, true⟩ ⟨3, false⟩) := by decide

theorem test_decode_control_1 :
    decodeTableWord 32 0b1_0_010000_00000_1000000000000000001 = some (.br 262145) ∧
    decodeTableWord 32 0b1_0_010001_0_1001_1000000000000000001 = some (.bp 9 262145) ∧
    decodeTableWord 32 0b1_0_010001_1_1001_1000000000000000001 = some (.bpn 9 262145) ∧
    decodeTableWord 32 0b1_0_010010_11111_1000000000000000001 = some (.call 31 262145) ∧
    decodeTableWord 32 0b1_0_010011_00000_00010_1_0000000000000 = some (.jr ⟨2, true⟩) ∧
    decodeTableWord 32 0b1_0_010011_00001_00010_1_0000000000001 = some (.callr 1 ⟨2, true⟩) ∧
    decodeTableWord 32 0b1_0_010011_00000_00010_1_0000000000010 = some (.ret ⟨2, true⟩) ∧
    decodeTableWord 32 0b1_0_010100_100000000001_000000000011 = some (.lpset0 2049 3) := by decide

theorem test_decode_control_2 :
    decodeTableWord 32 0b1_0_010101_100000000001_000000000011 = some (.lpset1 2049 3) ∧
    decodeTableWord 32 0b1_0_010110_00111_1_000000_000000000011 = some (.lpsetr0 ⟨7, true⟩ 3) ∧
    decodeTableWord 32 0b1_0_010111_00111_1_000000_000000000011 = some (.lpsetr1 ⟨7, true⟩ 3) ∧
    decodeTableWord 32 0b1_0_011000_00001_00010_1_00000000000_11 = some (.spawn 1 ⟨2, true⟩ 3) ∧
    decodeTableWord 32 0b1_0_011000_000000000000010000000000 = some .yield ∧
    decodeTableWord 32 0b1_0_011000_000000000000100000000000 = some .exit ∧
    decodeTableWord 32 0b1_0_011001_000000000000_100000000011 = some (.sys 2051) ∧
    decodeTableWord 32 0b1_0_011001_000000000001_100000000011 = some (.brk 2051) := by decide

theorem test_decode_control_3 :
    decodeTableWord 32 0b1_0_011010_00001_000000_0000000100000 = some (.mfs 1 32) ∧
    decodeTableWord 32 0b1_0_011011_00000_00010_1_0000000100000 = some (.mts 32 ⟨2, true⟩) ∧
    decodeTableWord 32 0b1_0_011100_000000000000000000000000 = some .ifence ∧
    decodeTableWord 32 0b1_0_011100_00000_00010_1_0010000000000 = some (.ckpt ⟨2, true⟩) ∧
    decodeTableWord 32 0b1_0_011100_00001_00000001000_10000001 = some (.wfe 1 129) ∧
    decodeTableWord 32 0b1_0_011101_00001_00010_1_0000000000000 = some (.ctxnew 1 ⟨2, true⟩) ∧
    decodeTableWord 32 0b1_0_011101_00001_00010_1_00011_0_0000001 = some (.ctxgrant 1 ⟨2, true⟩ ⟨3, false⟩) ∧
    decodeTableWord 32 0b1_0_011101_00001_00010_1_000000_101_0010 = some (.ctxrevoke 1 ⟨2, true⟩ 5) := by decide

theorem test_decode_control_4 :
    decodeTableWord 32 0b1_0_011101_00001_00010_1_0000000000011 = some (.ctxstart 1 ⟨2, true⟩) ∧
    decodeTableWord 32 0b1_0_011101_00001_00010_1_000000_101_0100 = some (.ctxstop 1 ⟨2, true⟩ 5) ∧
    decodeTableWord 32 0b1_0_011101_00001_00010_1_00011_0_101_0101 = some (.ctxsave 1 ⟨2, true⟩ ⟨3, false⟩ 5) ∧
    decodeTableWord 32 0b1_0_011101_00001_00010_1_00011_0_101_0110 = some (.ctxload 1 ⟨2, true⟩ ⟨3, false⟩ 5) ∧
    decodeTableWord 32 0b1_0_011101_00001_00010_1_00011_0_0000111 = some (.ctxinfo 1 ⟨2, true⟩ ⟨3, false⟩) ∧
    decodeTableWord 32 0b1_0_011101_00001_00010_1_0000000001000 = some (.reflect 1 ⟨2, true⟩) := by decide

theorem test_decode_contexts_loads_stores_1 :
    decodeTableWord 32 0b1_0_100000_00101_00011_1_0_100_0_0_1000011 = some (.ldB 5 (.disp ⟨3, true⟩ 67) .pk) ∧
    decodeTableWord 32 0b1_0_100001_00101_00011_1_0_100_0_0_1000011 = some (.ldBu 5 (.disp ⟨3, true⟩ 67) .pk) ∧
    decodeTableWord 32 0b1_0_100010_00101_00011_1_0_100_0_0_1000011 = some (.ldH 5 (.disp ⟨3, true⟩ 67) .pk) ∧
    decodeTableWord 32 0b1_0_100011_00101_00011_1_0_100_0_0_1000011 = some (.ldHu 5 (.disp ⟨3, true⟩ 67) .pk) ∧
    decodeTableWord 32 0b1_0_100100_00101_00011_1_0_100_0_0_1000011 = some (.ldW 5 (.disp ⟨3, true⟩ 67) .pk) ∧
    decodeTableWord 32 0b1_0_100101_00101_00011_1_0_100_0_0_1000011 = some (.ldWu 5 (.disp ⟨3, true⟩ 67) .pk) ∧
    decodeTableWord 32 0b1_0_100110_00101_00011_1_0_100_0_1_0010101 = some (.ldD 5 (.index ⟨3, true⟩ ⟨5, false⟩ true) .pk) ∧
    decodeTableWord 32 0b1_0_100111_00101_00011_1_0_100_0_0_1000011 = some (.ldv 5 (.disp ⟨3, true⟩ 67) .pk) := by decide

theorem test_decode_contexts_loads_stores_2 :
    decodeTableWord 32 0b1_0_101000_00101_00011_1_1_100_0_0_1000011 = some (.stB (.disp ⟨3, true⟩ 67) ⟨5, true⟩ .pk .ef) ∧
    decodeTableWord 32 0b1_0_101001_00101_00011_1_1_100_0_0_1000011 = some (.stH (.disp ⟨3, true⟩ 67) ⟨5, true⟩ .pk .ef) ∧
    decodeTableWord 32 0b1_0_101010_00101_00011_1_1_100_0_0_1000011 = some (.stW (.disp ⟨3, true⟩ 67) ⟨5, true⟩ .pk .ef) ∧
    decodeTableWord 32 0b1_0_101011_00101_00011_1_1_100_0_1_0010110 = some (.stD (.index ⟨3, true⟩ ⟨5, true⟩ false) ⟨5, true⟩ .pk .ef) ∧
    decodeTableWord 32 0b1_0_101100_00101_00011_1_1_100_0_0_1000011 = some (.stv (.disp ⟨3, true⟩ 67) ⟨5, true⟩ .pk .ef) := by decide

theorem test_decode_atomics_waits_messages_1 :
    decodeTableWord 32 0b1_0_101101_00001_00010_1_00011_0_1000_010 = some (.amo .swap 1 ⟨2, true⟩ ⟨3, false⟩ .qd) ∧
    decodeTableWord 32 0b1_0_101110_00001_00010_1_00011_0_0000_010 = some (.cas 1 ⟨2, true⟩ ⟨3, false⟩ .qd) ∧
    decodeTableWord 32 0b1_0_101111_000000000000000000000_011 = some (.fence .di) ∧
    decodeTableWord 32 0b1_0_101111_000000000000010000000_011 = some (.fenceW .di) ∧
    decodeTableWord 32 0b1_0_110000_00001_00010_1_0000000000000 = some (.syncinit 1 ⟨2, true⟩) ∧
    decodeTableWord 32 0b1_0_110000_00001_00010_1_0010000000000 = some (.syncarr 1 ⟨2, true⟩) ∧
    decodeTableWord 32 0b1_0_110000_00001_00010_1_0100000000000 = some (.syncwait 1 ⟨2, true⟩) ∧
    decodeTableWord 32 0b1_0_110001_0000000000000000_10000001 = some (.waitt 129) := by decide

theorem test_decode_atomics_waits_messages_2 :
    decodeTableWord 32 0b1_0_110001_00001_00000000100_10000001 = some (.waitany 1 129) ∧
    decodeTableWord 32 0b1_0_110001_00001_00010_1_01000_10000001 = some (.waitanyF 1 ⟨2, true⟩ 129) ∧
    decodeTableWord 32 0b1_0_110010_00001_00010_1_00011_0_0000000 = some (.sendm 1 ⟨2, true⟩ ⟨3, false⟩) ∧
    decodeTableWord 32 0b1_0_110011_00000_00010_1_00011_0_0000000 = some (.reply ⟨2, true⟩ ⟨3, false⟩) ∧
    decodeTableWord 32 0b1_0_110100_00000_00010_1_00000_10000001 = some (.tagctlLd ⟨2, true⟩ 129) ∧
    decodeTableWord 32 0b1_0_110100_0000000000000100_10000001 = some (.tagctlEn 129) ∧
    decodeTableWord 32 0b1_0_110100_0000000000001000_10000001 = some (.tagctlDis 129) ∧
    decodeTableWord 32 0b1_0_110100_0000000000001100_10000001 = some (.tagctlPon 129) := by decide

theorem test_decode_atomics_waits_messages_3 :
    decodeTableWord 32 0b1_0_110100_0000000000010000_10000001 = some (.tagctlPoff 129) ∧
    decodeTableWord 32 0b1_0_110100_00001_00000010100_10000001 = some (.tagctlRd 1 129) ∧
    decodeTableWord 32 0b1_0_110101_00000_00010_1_00011_0_0_101_000 = some (.qenq ⟨2, true⟩ ⟨3, false⟩ 5) ∧
    decodeTableWord 32 0b1_0_110101_00001_00010_1_0000000_101_001 = some (.qdeq 1 ⟨2, true⟩ 5) ∧
    decodeTableWord 32 0b1_0_110101_00001_00010_1_0000000_101_010 = some (.qsteal 1 ⟨2, true⟩ 5) ∧
    decodeTableWord 32 0b1_0_110101_0001_1_00010_1_0000000000100 = some (.qenqBind 1 ⟨2, true⟩) ∧
    decodeTableWord 32 0b1_0_110101_0001_1_00010_1_0000000000101 = some (.qdeqBind 1 ⟨2, true⟩) ∧
    decodeTableWord 32 0b1_0_110101_0001_1_00010_1_0000000000110 = some (.qstealBind 1 ⟨2, true⟩) := by decide

theorem test_decode_atomics_waits_messages_4 :
    decodeTableWord 32 0b1_0_110110_00000_00011_1_00000_0_1000011 = some (.pf (.disp ⟨3, true⟩ 67)) ∧
    decodeTableWord 32 0b1_0_110110_00001_00011_1_00000_0_1000011 = some (.pfL2 (.disp ⟨3, true⟩ 67)) ∧
    decodeTableWord 32 0b1_0_110111_00001_00_001_1_0000000000000 = some (.qpop 1 1 true) ∧
    decodeTableWord 32 0b1_0_110111_0000000_101_1_00011_0_0000001 = some (.qpush 5 true ⟨3, false⟩) ∧
    decodeTableWord 32 0b1_0_110111_00001_00_000_1_0000000000010 = some (.qpopv 1 0 true) ∧
    decodeTableWord 32 0b1_0_110111_0000000_100_1_00011_0_0000011 = some (.qpushv 4 true ⟨3, false⟩) := by decide

theorem test_decode_matrix_and_copies_1 :
    decodeTableWord 32 0b1_0_111000_0_0100_00_010_000_011_000_00101 = some (.mma 4 2 3 5) ∧
    decodeTableWord 32 0b1_0_111000_0_0100_00_010_000_011_001_00101 = some (.mmas 4 2 3 5) ∧
    decodeTableWord 32 0b1_0_111000_0_0100_0_1001_000_011_010_00101 = some (.mmac 4 9 3 5) ∧
    decodeTableWord 32 0b1_0_111001_00000000000_1_0011_0011_0010 = some (.mxfmt true 3 3 2) ∧
    decodeTableWord 32 0b1_0_111010_0_1001_0000000000000000000 = some (.accz 9) ∧
    decodeTableWord 32 0b1_0_111010_0_1001_00010_1_0000000100000 = some (.accrd 9 ⟨2, true⟩) ∧
    decodeTableWord 32 0b1_0_111010_0_1001_00000000_110_010_00111 = some (.accdc 9 6 7) ∧
    decodeTableWord 32 0b1_0_111011_00_110_00011_1_0_100_0_0_1000011 = some (.hld 6 (.disp ⟨3, true⟩ 67) .pk) := by decide

theorem test_decode_matrix_and_copies_2 :
    decodeTableWord 32 0b1_0_111100_00_110_00011_1_0_100_0_0_1000011 = some (.hst (.disp ⟨3, true⟩ 67) 6 .pk .ef) ∧
    decodeTableWord 32 0b1_0_111101_00_001_000000_00011_0_00_101_00 = some (.hset 1 5 ⟨3, false⟩) ∧
    decodeTableWord 32 0b1_0_111101_00001_00_010_000000000_101_01 = some (.hget 1 2 5) ∧
    decodeTableWord 32 0b1_0_111101_00001_00_010_0_00011_0_00_011_10 = some (.hgat 1 2 ⟨3, false⟩ 3) ∧
    decodeTableWord 32 0b1_0_111101_00_001_00010_1_00011_0_10_011_11 = some (.hsca .min 1 ⟨2, true⟩ ⟨3, false⟩ 3) ∧
    decodeTableWord 32 0b1_0_111110_00000000000000000000_1001 = some (.semwait 9) ∧
    decodeTableWord 32 0b1_0_111110_00000000000001_100001_1001 = some (.sempost 9 33) ∧
    decodeTableWord 32 0b1_0_111111_00001_00010_1_00011_0_00_011_00 = some (.copy 1 ⟨2, true⟩ ⟨3, false⟩ .di) := by decide

theorem test_decode_matrix_and_copies_3 :
    decodeTableWord 32 0b1_0_111111_00001_00010_1_00011_0_00_011_01 = some (.copym 1 ⟨2, true⟩ ⟨3, false⟩ .di) ∧
    decodeTableWord 32 0b1_0_111111_00001_00010_1_00011_0_00_011_10 = some (.copyx 1 ⟨2, true⟩ ⟨3, false⟩ .di) := by decide

theorem test_decode_vector_arithmetic_1 :
    decodeTableWord 32 0b1_1_000001_00001_00010_1_00011_0_011_0000 = some (.vadd 1 ⟨2, true⟩ ⟨3, false⟩ 3 .f32) ∧
    decodeTableWord 32 0b1_1_000010_00001_00010_1_00011_0_011_0001 = some (.vsub 1 ⟨2, true⟩ ⟨3, false⟩ 3 .f64) ∧
    decodeTableWord 32 0b1_1_000011_00001_00010_1_00011_0_011_0001 = some (.vmul 1 ⟨2, true⟩ ⟨3, false⟩ 3 .f64) ∧
    decodeTableWord 32 0b1_1_000100_00001_00010_1_00011_0_011_0010 = some (.vdiv 1 ⟨2, true⟩ ⟨3, false⟩ 3 .f16) ∧
    decodeTableWord 32 0b1_1_000101_00001_00010_1_00011_0_011_0000 = some (.vmin 1 ⟨2, true⟩ ⟨3, false⟩ 3 .f32) ∧
    decodeTableWord 32 0b1_1_000110_00001_00010_1_00011_0_011_0010 = some (.vmax 1 ⟨2, true⟩ ⟨3, false⟩ 3 .f16) ∧
    decodeTableWord 32 0b1_1_000111_00001_00010_1_000000_011_0011 = some (.vsqrt 1 ⟨2, true⟩ 3 .bf16) ∧
    decodeTableWord 32 0b1_1_001000_00001_00010_1_00011_0_011_1010 = some (.vand 1 ⟨2, true⟩ ⟨3, false⟩ 3 .s32) := by decide

theorem test_decode_vector_arithmetic_2 :
    decodeTableWord 32 0b1_1_001001_00001_00010_1_00011_0_011_1010 = some (.vor 1 ⟨2, true⟩ ⟨3, false⟩ 3 .s32) ∧
    decodeTableWord 32 0b1_1_001010_00001_00010_1_00011_0_011_1010 = some (.vxor 1 ⟨2, true⟩ ⟨3, false⟩ 3 .s32) ∧
    decodeTableWord 32 0b1_1_001011_00001_00010_1_00011_0_011_1010 = some (.vshl 1 ⟨2, true⟩ ⟨3, false⟩ 3 .s32) ∧
    decodeTableWord 32 0b1_1_001100_00001_00010_1_00011_0_011_1010 = some (.vshr 1 ⟨2, true⟩ ⟨3, false⟩ 3 .s32) ∧
    decodeTableWord 32 0b1_1_001101_00001_00010_1_00011_0_011_1010 = some (.vsra 1 ⟨2, true⟩ ⟨3, false⟩ 3 .s32) ∧
    decodeTableWord 32 0b1_1_001110_00001_00010_1_000000_011_1010 = some (.vabs 1 ⟨2, true⟩ 3 .s32) ∧
    decodeTableWord 32 0b1_1_001111_00001_00010_1_000000_011_1010 = some (.vneg 1 ⟨2, true⟩ 3 .s32) := by decide

theorem test_decode_vector_moves_1 :
    decodeTableWord 32 0b1_1_010000_00001_00010_1_00011_0_00100_0_0 = some (.vfmaF32 1 ⟨2, true⟩ ⟨3, false⟩ ⟨4, false⟩) ∧
    decodeTableWord 32 0b1_1_010000_00001_00010_1_00011_0_00100_0_1 = some (.vfnmaF32 1 ⟨2, true⟩ ⟨3, false⟩ ⟨4, false⟩) ∧
    decodeTableWord 32 0b1_1_010001_00001_00010_1_00011_0_00100_0_0 = some (.vfmaF64 1 ⟨2, true⟩ ⟨3, false⟩ ⟨4, false⟩) ∧
    decodeTableWord 32 0b1_1_010001_00001_00010_1_00011_0_00100_0_1 = some (.vfnmaF64 1 ⟨2, true⟩ ⟨3, false⟩ ⟨4, false⟩) ∧
    decodeTableWord 32 0b1_1_010010_00001_00010_1_00011_0_00100_0_0 = some (.vfmaF16 1 ⟨2, true⟩ ⟨3, false⟩ ⟨4, false⟩) ∧
    decodeTableWord 32 0b1_1_010010_00001_00010_1_00011_0_00100_0_1 = some (.vfnmaF16 1 ⟨2, true⟩ ⟨3, false⟩ ⟨4, false⟩) ∧
    decodeTableWord 32 0b1_1_010011_00001_00010_1_00011_0_00100_0_0 = some (.vfmaBf16 1 ⟨2, true⟩ ⟨3, false⟩ ⟨4, false⟩) ∧
    decodeTableWord 32 0b1_1_010011_00001_00010_1_00011_0_00100_0_1 = some (.vfnmaBf16 1 ⟨2, true⟩ ⟨3, false⟩ ⟨4, false⟩) := by decide

theorem test_decode_vector_moves_2 :
    decodeTableWord 32 0b1_1_010100_10_110_00010_1_00011_0_011_1010 = some (.vcmp .lt 6 ⟨2, true⟩ ⟨3, false⟩ 3 .s32) ∧
    decodeTableWord 32 0b1_1_010101_00001_00010_1_00011_0_011_1010 = some (.vsel 1 ⟨2, true⟩ ⟨3, false⟩ 3 .s32) ∧
    decodeTableWord 32 0b1_1_010110_00001_00010_1_00011_0_011_1111 = some (.vcvt 1 ⟨2, true⟩ ⟨3, false⟩ 3 15) ∧
    decodeTableWord 32 0b1_1_010111_00001_00010_1_1010_000000000 = some (.vbcast 1 ⟨2, true⟩ .s32) ∧
    decodeTableWord 32 0b1_1_011000_00001_00010_1_1010_000000011 = some (.vmovx 1 ⟨2, true⟩ .s32 3) ∧
    decodeTableWord 32 0b1_1_011001_00001_00010_1_00011_0_011_1010 = some (.vperm 1 ⟨2, true⟩ ⟨3, false⟩ 3 .s32) ∧
    decodeTableWord 32 0b1_1_011010_00001_00010_1_00011_0_011_1010 = some (.vzip 1 ⟨2, true⟩ ⟨3, false⟩ 3 .s32) ∧
    decodeTableWord 32 0b1_1_011011_00001_00010_1_00011_0_011_1010 = some (.vunzip 1 ⟨2, true⟩ ⟨3, false⟩ 3 .s32) := by decide

theorem test_decode_vector_moves_3 :
    decodeTableWord 32 0b1_1_011100_00001_00010_1_000000_011_1010 = some (.vrsum 1 ⟨2, true⟩ 3 .s32) ∧
    decodeTableWord 32 0b1_1_011100_00001_00010_1_000010_011_1010 = some (.vrmax 1 ⟨2, true⟩ 3 .s32) ∧
    decodeTableWord 32 0b1_1_011100_00001_00010_1_000100_011_1010 = some (.vrmin 1 ⟨2, true⟩ 3 .s32) ∧
    decodeTableWord 32 0b1_1_011101_00001_00010_1_00011_0_011_0011 = some (.vdot 1 ⟨2, true⟩ ⟨3, false⟩ 3) := by decide

theorem test_decode_masks_streams_repetition_1 :
    decodeTableWord 32 0b1_1_011110_00_001_00_010_000_011_00000000 = some (.kand 1 2 3) ∧
    decodeTableWord 32 0b1_1_011110_00_001_00_010_000_011_00000001 = some (.kor 1 2 3) ∧
    decodeTableWord 32 0b1_1_011110_00_001_00_010_000_011_00000010 = some (.kxor 1 2 3) ∧
    decodeTableWord 32 0b1_1_011110_00_001_00_010_000_011_00000011 = some (.kandn 1 2 3) ∧
    decodeTableWord 32 0b1_1_011110_00_001_00_010_00000000000100 = some (.knot 1 2) ∧
    decodeTableWord 32 0b1_1_011110_00_001_00010_1_0000000000101 = some (.kfromx 1 ⟨2, true⟩) ∧
    decodeTableWord 32 0b1_1_011110_00001_00_010_00000000000110 = some (.ktox 1 2) ∧
    decodeTableWord 32 0b1_1_011111_00001_00010_1_1010_00_1000001 = some (.vaddi 1 ⟨2, true⟩ .s32 65) := by decide

theorem test_decode_masks_streams_repetition_2 :
    decodeTableWord 32 0b1_1_011111_00001_00010_1_1010_010_000101 = some (.vshli 1 ⟨2, true⟩ .s32 5) ∧
    decodeTableWord 32 0b1_1_011111_00001_00010_1_1010_100_000101 = some (.vshri 1 ⟨2, true⟩ .s32 5) ∧
    decodeTableWord 32 0b1_1_011111_00001_00010_1_1010_110_000101 = some (.vsrai 1 ⟨2, true⟩ .s32 5) ∧
    decodeTableWord 32 0b1_1_100000_10_000_00010_1_0000000000_110 = some (.scfg 2 ⟨2, true⟩ 6) ∧
    decodeTableWord 32 0b1_1_100001_10_0000000000000000000000 = some (.sbindPop 2) ∧
    decodeTableWord 32 0b1_1_100001_10_0000000000000000000001 = some (.sbindPush 2) ∧
    decodeTableWord 32 0b1_1_100010_10_0000000000000000000000 = some (.sunbind 2) ∧
    decodeTableWord 32 0b1_1_100011_10_000_01001_00000000000000 = some (.sstat 9 2) := by decide

theorem test_decode_masks_streams_repetition_3 :
    decodeTableWord 32 0b1_1_100100_10001_100_1000000000000001 = some (.repImm 17 32769) ∧
    decodeTableWord 32 0b1_1_100100_10001_0_00010_1_000000000000 = some (.repReg 17 ⟨2, true⟩) := by decide

/-! ### Terms that the encoding does not admit -/

/-- R401 reason 4: values of fields that no table lists. -/
theorem test_wf_values : ([
    .shli 1 (plain 1) true 32, .shri 1 (plain 1) true 63, .srai 1 (plain 1) true 32, .lpset0 1 0, .lpset1 1 0, .lpsetr0 (plain 1) 0, .lpsetr1 (plain 1) 0, .copy 1 (plain 2) (plain 3) .core, .copym 1 (plain 2) (plain 3) .core,
    .copyx 1 (plain 2) (plain 3) .core, .sendm 1 (plain 2) (plain 27), .reply (plain 1) (plain 28), .qpop 1 6 true, .qpopv 1 7 false, .qpush 1 true (plain 1), .qpushv 6 false (plain 1),
    .vadd 1 (plain 2) (plain 3) 0 .f8a, .vsub 1 (plain 2) (plain 3) 0 .f4, .vmul 1 (plain 2) (plain 3) 0 .e8, .vmin 1 (plain 2) (plain 3) 0 .f8b, .vdiv 1 (plain 2) (plain 3) 0 .s32,
    .vsqrt 1 (plain 2) 0 .n8, .vand 1 (plain 2) (plain 3) 0 .f32, .vshl 1 (plain 2) (plain 3) 0 .f64, .vneg 1 (plain 2) 0 .n32, .vsel 1 (plain 2) (plain 3) 0 .s8,
    .vsel 1 (plain 2) (plain 3) 1 .f32, .vmovx 1 (plain 2) .s8 32, .vmovx 1 (plain 2) .f4 0, .vaddi 1 (plain 2) .f32 1, .vshli 1 (plain 2) .s8 8, .vshri 1 (plain 2) .n32 32,
    .vsrai 1 (plain 2) .bf16 1, .vcmp .eq 1 (plain 2) (plain 3) 0 .e8, .scfg 1 (plain 2) 7] : List Instr).all (fun i => !i.wf && i.isEncoded) = true := by decide

/-- R401 reason 5: reserved fields; reason 6: the mode bit beside x0. -/
theorem test_wf_reserved : ([.vcvt 1 (plain 2) (plain 3) 0 2, .vcvt 1 (plain 2) ⟨0, true⟩ 0 14, .add 1 ⟨0, true⟩ (plain 2) false, .addi 1 ⟨0, true⟩ 1,
    .ldD 1 (.disp ⟨0, true⟩ 0) .core, .ldD 1 (.index (plain 1) ⟨0, true⟩ false) .core, .stB (.disp (plain 1) 0) ⟨0, true⟩ .core .ef, .jr ⟨0, true⟩,
    .sendm 1 ⟨0, true⟩ (plain 2)] : List Instr).all (fun i => !i.wf && i.isEncoded) = true := by decide

/-- Steps that have no encoding. -/
theorem test_wf_steps : ([.timeBaseTick, .homeGrant 1 0, .powerLoss, .instructionFetchFault, .notAnInstruction 1 0] : List Instr).all (fun i => !i.wf) = true := by decide

/-! ### States that meet the hypotheses of the statements: the core -/

theorem witness_integerResults : All (
    let s := regs 5 9 0
    let l := light 5 9
    [issues s ((integerRows 5 (plain 1) (plain 2) true 5 9).map Prod.fst), issues l ((integerRows 8 (plain 1) ⟨0, true⟩ false 5 0).map Prod.fst),
     XIn s (plain 1), XIn s (plain 2), XIn l ⟨0, true⟩, XOut s 5, XOut s 0, XOut l 8, XOut (emptied s 5) 5]) := by decide +kernel

theorem witness_registerFrame : All [one.unit.view.isNone, (light 5 9).unit.view.isNone, (light 5 9).unit.entry = 3] := by decide +kernel

theorem witness_immediateResults : All (
    let s := regs 5 9 0
    [issues s ((immediateRows s 5 (plain 1) true 3 0x1FFF 0xBEEF 31 (.index (plain 1) (plain 2) true)).map Prod.fst),
     issues s ((immediateRows s 5 (plain 1) false 0 0 0 63 (.disp (plain 1) 0)).map Prod.fst), XIn s (plain 1), XOut s 5]) := by decide +kernel

theorem witness_selectResults : All (
    let s := regs 5 9 0
    [issues s ((selectRows s 5 15 (plain 1) (plain 2)).map Prod.fst), XIn s (plain 1), XIn s (plain 2), XOut s 5]) := by decide +kernel

theorem witness_predicates : All (
    let s := regs 5 9 0
    [issues s (.pwr (plain 1) :: (predicateRows s 7 .tst .or (plain 1) (plain 2) 0x100 15 8).map Prod.fst), XIn s (plain 1), XIn s (plain 2)]) := by
  decide +kernel

theorem witness_transferResults : All (
    let s := regs 0x2000 9 0
    [issues s ((jumpRows s 5 (plain 1) 15 0x40000).map Prod.fst), XIn s (plain 1), XOut s 5, (s.xVal 1).toNat % 4 = 0]) := by decide +kernel

theorem witness_misalignedTarget : All (
    let s := regs 0x2002 9 0
    [issues s [.jr (plain 1), .callr 5 (plain 1), .ret (plain 1), .spawn 5 (plain 1) 3], XIn s (plain 1), (s.xVal 1).toNat % 4 ≠ 0]) := by
  decide +kernel

/-- A state at the end of loops with some counts left: the unit ends on both end addresses. -/
def looping (l0 l1 : DWord) : State := one.setMe { one.me with lc := #v[l0, l1], le := #v[0x1000, 0x1000], lb := #v[0x800, 0x900] }

theorem witness_unitEnd : All [
    (looping 9 2).me.lc[1] = 2 && (looping 9 2).unit.unitEnd - 4 = 0x1000, (looping 2 1).me.lc[1] = 1, (looping 2 1).me.lc[0] = 2,
    (looping 1 0).me.lc[0] = 1, (looping 0 0).me.lc[0] = 0, (light 5 9).unit.entry ≠ 0] := by decide +kernel

theorem witness_loops : All (
    let s := regs 5 0 0
    [issues s ((loopRows s 0xFFF 0xFFF (plain 1)).map Prod.fst), XIn s (plain 1), s.unit.unitEnd.toNat ≤ (s.unit.pc + 4 * 1).toNat,
     (s.unit.pc + 4 * 0).toNat < s.unit.unitEnd.toNat]) := by decide +kernel

/-- Every entry of the run queue taken. -/
def crowded : State := one.setMe { one.me with rq := (List.range 224).map fun e => (e, { pc := 0x1000, st := .ready, uid := e + 9 }) }

theorem witness_spawnResults : All (
    let s := regs 0x2000 9 0
    let i := Instr.spawn 5 (plain 1) 3
    [issues s [i], issues (State.x3 crowded 0x2000 9 0) [i], XIn s (plain 1), XOut s 5,
     (List.range 7).all fun k => s.xFull (BitVec.ofNat 5 (k + 1)), (s.me.fibre 1).st = .free, (s.me.fibre 223).st = .free,
     (List.range 223).all fun k => (crowded.me.fibre (k + 1)).st != .free,
     s.me.nextWaiter.isNone && crowded.me.nextWaiter.isNone, issues (emptied s 7) [i] && !(emptied s 7).xFull 7 && (emptied s 7).xFull 6, issues (light 0x2000 9) [i]]) := by decide +kernel

theorem witness_exitResults : All (
    let f := { light 5 9 with flights := [(40, { who := (light 5 9).who, dst := .x 4, job := .outcome 0 })] }
    [issues one [.exit], issues (light 5 9) [.exit], issues f [.exit], f.producer 7 0 3 = some 4, one.producer 7 0 0 = none,
     (one.me.streams.toList.all fun t => t.push.isEmpty), one.myFibre.owes = none, (light 5 9).myFibre.crew = none,
     let o := { (light 5 9).setMyFibre { (light 5 9).myFibre with owes := some 50 } with
                links := [(50, { kind := .upcall 7 0 1 1, answerer := 0, answererGen := 0 })] }
     issues o [.exit] && o.fenceDone o.who .pk]) := by decide +kernel

theorem witness_systemResults : All [issues one [.yield, .sys 0xFFF, .brk 0xFFF, .ifence]] := by decide +kernel

/-- A pre-emption of context 0 is pending on cluster 0. -/
def preempted : State := one.setCluster 0 { one.cluster 0 with preq := [{ ctx := 0, tick := 0, byStop := false }] }

theorem witness_checkpointResults : All (
    let i := Instr.ckpt (plain 1)
    [issues (regs 4 0 0) [i], XIn (regs 4 0 0) (plain 1), (regs 4 0 0).xVal 1 = 4, issues (regs 8 0 0) [i], (regs 8 0 0).preempting 0 0 = false,
     issues preempted [i], preempted.preempting 0 0, (preempted.xVal 1).toNat % 8 = 0]) := by decide +kernel

theorem witness_waitForCondition : All (
    let i := Instr.wfe 5 0x80
    [issues one [i, .wfe 5 0], issues (asKind (light 5 9) 2) [i], XOut one 5, (asKind (light 5 9) 2).myFibre.kind = 2, one.myFibre.kind ≠ 2,
     (one.hwPreds 7 0) &&& 0x80 = 0,
     let q := one.setMe { one.me with q0 := [7] }
     issues q [.wfe 5 0xFF] && (q.hwPreds 7 0) &&& 0xFF != 0]) := by decide +kernel

theorem witness_readSpecialRegisters : All [
    issues one ((sprRows one).map (fun p => .mfs 5 p.1)), XOut one 5, (sprRows one).all fun p => !one.fpBusy p.1.toNat, issues one [.mfs 5 0x009, .mfs 5 0x1FFF],
    (sprRows one).all fun p => p.1 != 0x1FFF, issues (light 5 9) [.mfs 5 0x008]] := by decide +kernel

/-- A state of another context than services. -/
def asCtx (s : State) (n : Nat) : State := { s with unit := { s.unit with ctx := n } }

theorem witness_writeSpecialRegisters : All (
    let s := regs 0 9 0
    [issues s ((sprWrites s.me 0).map (fun p => .mts p.1 (plain 1))), XIn s (plain 1), issues (regs 7 0 0) [.mts 0x018 (plain 1)],
     ((regs 7 0 0).cluster 0).mreqs.isEmpty, is? ((regs 7 0 0).holder 0) fun n => ((regs 7 0 0).img ((regs 7 0 0).issuerCore 0) n).cuts.isEmpty,
     let m := (regs 7 0 0).setCluster 0 { (regs 7 0 0).cluster 0 with mreqs := [{ who := one.who, id := 1, op := .zero 1, fmt := 0 }] }
     issues m [.mts 0x018 (plain 1)] && !(m.cluster 0).mreqs.isEmpty,
     issues (regs 8 0 0) [.mts 0x018 (plain 1)], issues s [.mts 0x008 (plain 1), .mts 0x012 (plain 1)],
     issues (asCtx s 1) [.mts 0x018 (plain 1)] && (asCtx s 1).unit.ctx != 0]) := by decide +kernel

theorem witness_takingAFault : All [
    let fa : FaultAt := { core := 7, ctx := 0, entry := 0, lid := 7 }
    let full := one.setQuad 0 { one.quad 0 with waiting := List.replicate 64 (2, 0, mkPacket one fa .ill 0 0) }
    decide (64 ≤ (full.quad (fa.core / 144)).waiting.length) && decide ((one.quad (fa.core / 144)).waiting.length < 64),
    is? (one.accepter (one.upFrom 0) Cls.ill.code), (State.reset.accepter (State.reset.upFrom 0) Cls.ill.code).isNone] := by decide +kernel

theorem witness_packetLayout : All (
    let f : FaultAt := { core := 7, ctx := 0, entry := 255, kind := 3, level := 3, lid := 65535, source := 3, wh := 3, body := 31 }
    [f.lid < 65536, f.entry < 256, f.kind < 4, f.level < 4, f.wh < 4, f.body < 32, f.source < 4]) := by decide +kernel

theorem witness_emptySources : All (
    let s := emptied (regs 5 9 0) 1
    let is (a b : Src) := (integerRows 5 a b true 5 9).map Prod.fst
    [issues s (is ⟨1, true⟩ (plain 2)), s.xFull 1 = false, issues s (is (plain 2) ⟨1, true⟩), XIn s ⟨2, true⟩, XOut s 5, issues s (is (plain 1) (plain 2)),
     let f := emptied (inFlight (regs 5 9 0) (.x 5)) 5
     issues f (is (plain 1) (plain 2)) && !f.xFull 5 && f.awaitsX 7 0 0 5]) := by decide +kernel

theorem witness_lightFibres : All (
    let i := Instr.add 9 (plain 31) (plain 1) false
    [(light 5 9).unit.entry ≠ 0, isAClass (.kand 0 0 0), primaryOnly (.ckpt (plain 1)), !primaryOnly i && !isAClass i && i.isEncoded,
     (instrNames i).any fun n => n.1 == 0 && decide (9 ≤ n.2 ∧ n.2 < 32), !primaryOnly (.mts 0x026 (plain 1))]) := by decide +kernel

theorem witness_unitsThatCannotRun : All (
    let at' (s : State) : Bool := s.myFibre.st = .ready && s.myFibre.pc = s.unit.pc
    let moved (pc : DWord) : State := { one.setMyFibre { one.myFibre with pc := pc } with unit := { one.unit with pc := pc } }
    [at' one, !at' { one with unit := { one.unit with pc := 0x2000 } },
     at' (moved 0xFF00000000000000) && no? ((moved 0xFF00000000000000).fetchWord 7 0 0xFF00000000000000) (fun f => f matches .trap _ _ _),
     at' (moved 0x2000000000) && no? ((moved 0x2000000000).fetchWord 7 0 0x2000000000) (fun f => f matches .page _ _)]) := by decide +kernel

/-- A unit of two words. -/
def paired (s : State) (a : Instr) : State := { s with unit := { s.unit with pair := some a, unitEnd := 0x1008 } }

theorem witness_pairReadsBefore : All (
    let s := paired (regs 5 9 3) (.kfromx 7 (plain 3))
    [s.unit.entry = 0, s.unit.pair = some (.kfromx 7 (plain 3)), s.unit.view.isNone, s.me.rep.running = false, s.flights.isEmpty, XIn s (plain 1),
     XIn s (plain 2), XIn s (plain 3), XOut s 5, XOut s 3]) := by decide +kernel

theorem witness_pairGuards : All (
    let trap (x : Except Stop (State × Ctl)) : Bool := no? x fun e => e matches .trap _ _ _
    let s (a : Instr) := paired (emptied (regs 5 9 3) 2) a
    let c := Instr.add 5 ⟨2, true⟩ (plain 1) false
    let d := Instr.add 5 (plain 3) (plain 1) false
    let w := Instr.add 5 (plain 2) (plain 1) false
    let a := Instr.kfromx 7 ⟨2, true⟩
    [c.isEncoded && d.isEncoded && w.isEncoded, !([c, d, w].any (s a).indexWaits), (s a).me.rep.running = false, trap (effOf c ((s a).atWord 1 none)),
     ok? (effOf d ((s a).atWord 1 none)) (fun t => trap (effOf a (t.1.atWord 2 (some (s a).me)))),
     no? (effOf w ((s a).atWord 1 none)) (fun e => e matches .wait _ _ _) && trap (effOf a ((s a).atWord 2 (some (s a).me)))]) := by decide +kernel

/-! ### States that meet the hypotheses of the statements: vectors and memory -/

/-- The v operands of a word hold nothing back. -/
def vready (s : State) (d : Reg) (srcs : List Src) (mask : Nat) : Bool :=
  let os := .dv d :: srcs.map Opnd.v
  ok? (s.emptyTrap [] os) && ok? (s.streamGuards [] os) && ok? (s.pushGuards os) && ok? (s.pushCheck d mask) && ok? (s.settle os)

/-- A descriptor of format, kind and dimensions, with the counts of its dimensions; its items lie at 0x1000 of the scratchpad. -/
def stream (kind dims fmt : Nat) (n0 n1 : DWord) : Stream :=
  { dw := #v[BitVec.ofNat 64 (fmt + kind * 256 + (dims - 1) * 1024), spad 0x1000, n0, n1, 0, 0, 0] }

/-- A state whose stream unit is as given. -/
def withStream (s : State) (u : Nat) (t : Stream) : State := s.setMe { s.me with streams := s.me.streams.setIfInBounds u t }

/-- A stream of a hundred 4-byte items bound for popping that holds two elements, at a position. -/
def popping (pos : BitVec 48) : Stream := { stream 0 1 8 (100 + 4 * 2 ^ 32) 0 with bind := 1, held := [5, 6], pos := pos }
def pushing (pos : BitVec 48) : Stream := { stream 0 1 8 (100 + 4 * 2 ^ 32) 0 with bind := 2, pos := pos }

theorem witness_plainVectors : All [
    (one.me.boundTo 9).isNone, one.view.vfull.getLsbD 9, (one.me.boundTo 1).isNone,
    let s := one.setMe { one.me with vfull := 0 }
    s.awaitsV 7 0 9 = false] := by decide +kernel

theorem witness_broadcastAndExtract : All (
    let s := regs 5 9 0
    [issues s [.vbcast 9 (plain 1) .f64, .vmovx 5 (plain 9) .s8 31], Fmt.f64.isArith, ok? (s.pushGuards [.dv 9]), ok? (s.pushCheck 9 allLanes),
     ok? (s.settle [.dv 9]), ok? (s.ready [.dx 5, .v (plain 9)])]) := by decide +kernel

theorem witness_maskResults : All (
    let s := regs 5 9 0
    [issues s (.vcmp .le 7 (plain 8) (plain 9) 7 .f64 :: .ktox 5 7 :: (maskRows s 7 6 5 (plain 1)).map Prod.fst), ok? (s.ready [.v (plain 8), .v (plain 9)]),
     XIn s (plain 1), XOut s 5]) := by decide +kernel

/-- A state with a stream bound for popping on v1, and one bound for pushing on v2. -/
def streaming : State := withStream (withStream one 1 (popping 8)) 2 (pushing 8)

theorem witness_integerLanes : All [
    issues one ((laneRows 9 (plain 8) (plain 7) 7 .s8 0x40 7).map Prod.fst), vready one 9 [plain 8, plain 7] (one.kmask 7),
    issues streaming ((laneRows 2 (plain 1) (plain 1) 0 .n32 0x3F 31).map Prod.fst), vready streaming 2 [plain 1, plain 1] (streaming.kmask 0)] := by
  decide +kernel

theorem witness_laneMoves : All [
    issues one ((moveRows one 9 (plain 8) (plain 7) 7 .s16).map Prod.fst), vready one 9 [plain 8, plain 7] (one.kmask 7), vready one 9 [plain 8, plain 7] allLanes,
    (Instr.vsel 9 (plain 8) (plain 7) 1 .s8).wf] := by decide +kernel

theorem witness_integerReductions : All [
    issues one ((reduceRows 9 (plain 8) 7 .n64 (one.kmask 7) 0).map Prod.fst), vready one 9 [plain 8] allLanes] := by decide +kernel

theorem witness_floatLanes : All (
    let trapping := one.setMe { one.me with fctl := 0x1F00 }
    [[Fmt.f32, .f64, .f16, .bf16].all fun t =>
       issues one ((floatRows one 9 (plain 8) (plain 7) (plain 6) 0 t).map Prod.fst) &&
       issues trapping ((floatRows trapping 9 (plain 8) (plain 7) (plain 6) 7 t).map Prod.fst) && t.isFloat,
     vready one 9 [plain 8, plain 7, plain 6] (one.kmask 0), vready trapping 9 [plain 8] (trapping.kmask 7)]) := by decide +kernel

theorem witness_floatReductions : All [
    issues one ((floatReduceRows one 9 (plain 8) 7 .bf16).map Prod.fst), vready one 9 [plain 8] allLanes] := by decide +kernel

theorem witness_conversionsAndDot : All [
    issues one (cvtRows.map fun p => .vcvt 9 (plain 8) (plain 7) 0 p.1), vready one 9 [plain 8, plain 7] (one.kmask 0), vready one 9 [plain 8] (one.kmask 0),
    issues one [.vdot 9 (plain 8) (plain 7) 7], (one.me.boundTo 9).isNone, ok? (one.ready [.v (plain 9), .v (plain 8), .v (plain 7)])] := by decide +kernel

/-- Addresses: the core's own scratchpad, the mapped page, a misaligned one, and one that its page does not map. -/
def own : State := regs (spad 0x1000) 2 0
def away : State := regs 0x1800 2 0
def odd' : State := regs (spad 0x1001) 2 0
def unmapped : State := regs 0x2000000000 2 0

/-- An access resolves, to a place of the core's own scratchpad or not. -/
def reaches (s : State) (k : AccKind) (size : Nat) (local' : Bool) : Bool :=
  ok? (s.resolve 7 0 k (s.xVal 1) size) fun t => t.2.ownSpad 7 == local' && !t.1.readHeld s.who s.fresh t.2 size

theorem witness_loadResults : All (
    let is := (loadRows 5 (.disp (plain 1) 0) .sy).map Prod.fst
    [[own, away, odd', unmapped].all fun s => issues s is && decide (XIn s (plain 1)) && decide (XOut s 5) && decide (SlotFree s),
     odd'.xVal 1 % 8 ≠ 0, reaches own .load 8 true, reaches away .load 1 false, no? (unmapped.resolve 7 0 .load (unmapped.xVal 1) 4),
     issues own [.ldW 5 (.index (plain 1) (plain 2) true) .core], effAddr own (.index (plain 1) (plain 2) true) 4 = spad 0x1008]) := by decide +kernel

/-- A load in flight, of a primary and of a light fibre, its fibre waiting. -/
def loading (s : State) (t : Target) : State :=
  let u := s.setMyFibre { s.myFibre with st := .waiting, wait := 1, wop := 5 }
  { u with flights := [(40, { who := s.who, dst := .x 5, job := .load t 8 true })], fresh := 41 }

theorem witness_loadAnswers : All (
    let s := loading one (.mem 0x1800)
    let l := loading (light 5 9) (.mem 0x1800)
    [is? (tget s.flights 40) fun f => f.job == .load (.mem 0x1800) 8 true && f.dst == .x 5, s.readHeld s.who 40 (.mem 0x1800) 8 = false, !s.refusedAt 0 (some 0) (.mem 0x1800), s.who.entry = 0,
     is? (s.who? s.who) fun f => f.st == .waiting && f.cond == .none, (tdel s.flights 40).isEmpty,
     is? (tget l.flights 40) fun f => f.who == l.who && f.dst == .x 5 && f.job == .load (.mem 0x1800) 8 true, !l.readHeld l.who 40 (.mem 0x1800) 8,
     is? (l.who? l.who) fun f => f.st == .waiting]) := by decide +kernel

theorem witness_storeResults : All (
    let is := (storeRows (.disp (plain 1) 0) (plain 2) .di .ga).map Prod.fst
    [[own, away, odd', unmapped].all fun s => issues s is && decide (XIn s (plain 1)) && decide (XIn s (plain 2)), odd'.xVal 1 % 2 ≠ 0,
     reaches own .store 8 true, reaches away .store 8 false, no? (unmapped.resolve 7 0 .store (unmapped.xVal 1) 4)]) := by decide +kernel

theorem witness_storeFrame : All (
    let a := spadPlace 0 0x1000
    let bs : Bytes := [1, 2, 3, 4]
    let p (t : Target) : PStore := { who := own.who, t := t, op := .bytes bs, md := .ef, rel := none, ord := own.fresh, sentTick := own.tick, pc := own.unit.pc,
                                     word := own.unit.word, dva := spad 0x1000 }
    let held : State := { own with stores := [(1, { p (.mem a) with ord := 1 })], fresh := 2 }
    [Inv own, own.targetPort (.mem a) = none, (Target.mem a).ownSpad 7, (Target.mem 0x1800).ownSpad 7 = false,
     ({ own with fresh := own.fresh + 1 } : State).storeHeld own.fresh (p (.mem a)) = false, spadOf a = some (0, 0x1000), own.cageAt 0 0x1000 = none,
     own.cageAt 0 0x1003 = none, ({ held with fresh := held.fresh + 1 } : State).storeHeld 2 { p (.mem a) with ord := 2 }]) := by decide +kernel

/-- A store to paged memory that waits for its home, and one that its home has granted. -/
def storing (md : StMode) : State :=
  { away with stores := [(30, { who := away.who, t := .mem 0x1800, op := .bytes [1, 2, 3, 4], md := md, ord := 30 })], fresh := 31 }
def stored (s : State) (f : PStore → PStore) : State := { s with stores := s.stores.map fun x => (x.1, f x.2) }
def granted (stale : List Nat) : State :=
  { stored (storing .ef) (fun p => { p with granted := true, gord := 31, stale := stale }) with fresh := 32, tick := 2000 }

theorem witness_homeGrantPerforms : All [
    Inv (storing .ef), Inv (storing .ga), isHomed 0x1800,
    is? (tget (storing .ef).stores 30) fun p => !p.granted && p.t == .mem 0x1800 && p.op == .bytes [1, 2, 3, 4] && !(storing .ef).storeHeld 30 p && p.isolating.isEmpty,
    is? (tget (storing .ga).stores 30) fun p => !(storing .ga).storeHeld 30 p && p.md == .ga,
    !(storing .ef).refusedAt 0 (some 0) (.mem 0x1800),
    let r : State := { storing .ef with isolated := [((storing .ef).homeOf 0 0x1800, 0, [(one.ctx 0).pno.toNat])] }
    Inv r && r.refusedAt 0 (some 0) (.mem 0x1800) && is? (tget r.stores 30) fun p => !p.granted && !r.storeHeld 30 p && p.isolating.isEmpty,
    (storing .ef).stores.all fun e => !e.2.granted, tsorted (storing .ef).stores] := by decide +kernel

/-- A store to a peer that its link has carried. -/
def toPeer : State :=
  { one with stores := [(30, { who := one.who, t := .peer 3 0, op := .bytes [1], md := .ef, ord := 30, port := some 0 })], fresh := 31 }

theorem witness_storeEnds : All [
    is? (tget (granted [1]).stores 30) fun p => p.granted && p.stale == [1] && (tget p.isolating 1).isNone && (granted [1]).unacked p 1 &&
      decide (p.sentTick + 10 * ((tget p.resent 1).getD 0 + 1) ≤ (granted [1]).tick),
    is? (tget (granted []).stores 30) fun p => p.granted && p.stale.isEmpty && p.isolating.isEmpty && p.t == .mem 0x1800 && !(granted []).admittedBy 30 p.t.flat p.op.size,
    is? (tget toPeer.stores 30) fun p => toPeer.orderKept p.who p.ord false p.rel && !toPeer.storeHeld 30 p && p.port.isSome,
    let s := stored (granted [1]) fun p => { p with resent := [(1, 8)] }
    is? (tget s.stores 30) fun p => s.unacked p 1 && decide (p.sentTick + 90 ≤ s.tick)] := by decide +kernel

theorem witness_isolation : All [
    let s := stored (granted [1]) fun p => { p with isolating := [(1, 1000)] }
    is? (tget s.stores 30) fun p => tget p.isolating 1 == some 1000 && decide (s.tick ≤ 1000 + 1000),
    let s := stored (granted [1]) fun p => { p with isolating := [(1, 999)] }
    is? (tget s.stores 30) fun p => tget p.isolating 1 == some 999 && decide (999 + 1000 < s.tick)] := by decide +kernel

theorem witness_vectorMemoryAccesses : All (
    let m : MemOp := .disp (plain 1) 0
    let is : List Instr := [.ldv 9 m .cl, .stv m (plain 8) .cl .ef]
    let on2 := withStream own 2 (pushing 8)
    let on2a := withStream away 2 (pushing 8)
    [[own, away, odd'].all fun s => issues s is && decide (XIn s (plain 1)) && ok? (s.pushGuards [.dv 9]) && ok? (s.settle [.dv 9]) && ok? (s.ready (.v (plain 8) :: memOps m)),
     reaches own .vload 32 true, reaches away .vload 32 false, reaches own .vstore 32 true, SlotFree away, own.xVal 1 % 32 = 0, odd'.xVal 1 % 32 ≠ 0,
     issues on2 [.ldv 2 m .cl] && ok? (on2.pushGuards [.dv 2]) && ok? (on2.settle [.dv 2]) && ok? (on2.writeV 2 0 8 (2 ^ 32 - 1)),
     issues on2a [.ldv 2 m .cl] && is? (on2a.me.boundTo 2) (fun t => ok? (on2a.pushV 2 t none (2 ^ 32 - 1))),
     ok? (own.writeV 9 0 8 (2 ^ 32 - 1))]) := by decide +kernel

theorem witness_atomicResults : All (
    let is : List Instr := [.amo .maxu 5 (plain 1) (plain 2) .pk, .cas 5 (plain 1) (plain 2) .pk]
    [[own, away, odd'].all fun s => issues s is && decide (XIn s (plain 1)) && decide (XIn s (plain 2)) && decide (XOut s 5) && decide (XIn s (plain 5)) && decide (SlotFree s),
     odd'.xVal 1 % 8 ≠ 0, reaches own (.amo true) 8 true, reaches away (.amo false) 8 false, own.orderKept own.who own.fresh true (inEffect own .pk),
     !own.matrixHolds own.who own.fresh (.mem (spadPlace 0 0x1000)) 8 true, ok? (own.resolve 7 0 (.amo true) (own.xVal 1) 8) fun t => t.2 == .mem (spadPlace 0 0x1000)]) := by
  decide +kernel

theorem witness_atomicAnswers : All (
    let s (j : Job) : State := inFlight one (.x 5) j
    let n := one.fresh
    let free (j : Job) (t : Target) : Bool :=
      !(s j).readHeld one.who n t 8 && !(s j).matrixHolds one.who n t 8 true && (s j).orderKept one.who n true none && !(s j).refusedAt 0 (some 0) t && !(s j).admittedBy n t.flat 8 &&
        is? (tget (s j).flights n) fun f => f.job == j
    [free (.amo (.mem 0x1800) .add 5) (.mem 0x1800), isHomed 0x1800, free (.amo (.mem (spadPlace 1 0)) .swap 5) (.mem (spadPlace 1 0)),
     free (.cas (.mem 0x1800) 0 5) (.mem 0x1800), free (.amo (.sem 0 15) .add 5) (.sem 0 15)]) := by decide +kernel

theorem witness_ordering : All (
    let busy := { storing .ef with unit := one.unit }
    [issues away [.fence .sy, .fenceW .di, .pf (.disp (plain 1) 0), .pfL2 (.disp (plain 1) 0)], away.fenceDone away.who (away.capped 0 .sy),
     issues busy [.fence .pk], !busy.fenceDone busy.who (busy.capped 0 .pk), away.xFull 1]) := by decide +kernel

/-! ### States that meet the hypotheses of the statements: waits, messages and queues -/

theorem witness_handlerMayNotWait : All (
    let s := asKind (light 5 9) 2
    [issues s ((handlerWaits 5 (plain 1) (plain 2) 0 5 15).filter fun i => !primaryOnly i), s.myFibre.kind = 2,
     issues (asKind one 2) (handlerWaits 5 (plain 1) (plain 2) 0 5 15)]) := by decide +kernel

/-- A state whose tokens are as given, two bits each. -/
def tokens (s : State) (t : BitVec 16) : State := s.setMyFibre { s.myFibre with tok := t }

theorem witness_tokenWaits : All (
    let is : List Instr := [.waitt 0x80, .waitany 5 0x80]
    [issues one is, XIn one (plain 5), one.myFibre.kind ≠ 2, issues (tokens one 0x8000) is, tokenOf (tokens one 0x8000).myFibre 7 = 2,
     issues (tokens (light 5 9) 0x4000) [.waitt 0x80], tokenOf (tokens (light 5 9) 0x4000).myFibre 7 = 1, tokenOf one.myFibre 7 = 0,
     issues (tokens one 0x4000) is, (one.xVal 5).toNat % 8 = 0]) := by decide +kernel

/-- A fill word at 0x1000 of the own scratchpad, with a generation. -/
def filling (g : Nat) : State := (regs (spad 0x1000) (spad 0x1008) 0).writeNat (spadPlace 0 0x1008) 8 (g * 2 ^ 32)

theorem witness_fillWordWaits : All (
    let is : List Instr := [.waitanyF 5 (plain 1) 0xFF, .waitanyF 5 (plain 1) 0]
    let s := filling 1
    [issues s is, XIn s (plain 1), XIn s (plain 5), s.myFibre.kind ≠ 2, issues (regs (spad 0x1040) 0 0) is, (spad 0x1040).toNat % 128 ≠ 0,
     ok? (s.fillWord 7 0 (s.xVal 1) 8) (fun c => c == (0, 0x1000)), s.ownStoreBefore s.who s.fresh s.fresh (.mem (spadPlace 0 0x1000)) 128 = false,
     (generation s (spadPlace 0 0x1000)).setWidth 7 ≠ (s.xVal 5).extractLsb' 0 7, (generation (filling 0) (spadPlace 0 0x1000)).setWidth 7 = 0#7]) := by
  decide +kernel

theorem witness_fillWordInstructions : All (
    let is : List Instr := [.syncinit 5 (plain 1), .syncarr 5 (plain 1), .syncwait 5 (plain 1)]
    let s := filling 1
    let far := State.x3 one (0x0080000000000000 + 8 * 128 * 2 ^ 24) 0 0
    [issues s is, XIn s (plain 1), XIn s (plain 5), XOut s 5, s.myFibre.kind ≠ 2, ok? (s.fillWord 7 0 (s.xVal 1) 1) (fun c => c == (0, 0x1000)),
     s.orderKept s.who s.fresh false (some (s.capped 0 (jointCl 7 0))), s.ownStoreBefore s.who s.fresh s.fresh (.mem (spadPlace 0 0x1000)) 16 = false,
     generation s (spadPlace 0 0x1000) = 1, s.xVal 5 = 0, generation (filling 0) (spadPlace 0 0x1000) = (s.xVal 5).setWidth 32, SlotFree far,
     (jointCl 7 8) ≠ .core]) := by decide +kernel

/-- A cluster whose fill word at 0x1000 has bytes and arrivals to take; and one whose surplus is to be carried on. -/
def counted (b a : Nat) : State := one.setCluster 0 { one.cluster 0 with fills := [{ off := 0x1000, bytes := b, arrivals := a }] }
def surplus : State := one.setCluster 0 { one.cluster 0 with advanced := [0x1000] }

theorem witness_fillWordUpdates : All [
    Inv (counted 7 1), ((counted 7 1).cluster 0).fills.find? (fun f => f.off == 0x1000) = some { off := 0x1000, bytes := 7, arrivals := 1 }, Inv surplus,
    ((surplus.cluster 0).fills.find? (fun f => f.off == 0x1000)).isNone, (surplus.cluster 0).advanced.contains 0x1000] := by decide +kernel

/-- An arrival on its way to the fill word at 0x1000. -/
theorem witness_fillWordArrivals : All (
    let s := inFlight one (.x 5) (.arrive (spadPlace 0 0x1000))
    [is? (tget s.flights one.fresh) fun f => f.job == .arrive (spadPlace 0 0x1000) && f.dst == .x 5 && s.orderKept f.who one.fresh false f.rel, spadOf (spadPlace 0 0x1000) = some (0, 0x1000),
     s.linkPassed one.fresh]) := by decide +kernel

theorem witness_semaphoreResults : All (
    let is : List Instr := [.semwait 15, .sempost 15 0x3F]
    let has (n : BitVec 16) : State := one.setCluster 0 { one.cluster 0 with hs := (one.cluster 0).hs.set 15 n }
    let other := { one.setCtx 1 (one.ctx 0) with unit := { one.unit with ctx := 1 } }
    [one.holder 0 = some 0, issues one is, ((has 0).cluster 0).hs[15] = 0, issues (has 65535) is, ((has 65535).cluster 0).hs[15] = 65535, one.myFibre.kind ≠ 2,
     one.orderKept one.who one.fresh false (some (one.capped 0 .cl)), other.holder 0 ≠ some other.unit.ctx, issues other is]) := by decide +kernel

theorem witness_sendResults : All (
    let i := Instr.sendm 5 (plain 1) (plain 8)
    let to' (d : DWord) (w : DWord := 0) : State := State.x3 (one.setMe { one.me with ires := w }) d 0 0
    [issues (to' 0x7FFFFFFFFFFF) [i], issues (to' 0x800000000000) [i], (argRegs (plain 8) 6).all fun a => (to' 0).xFull a.r, XIn (to' 0) (plain 1), XOut (to' 0) 5, SlotFree (to' 0),
     (to' 0xFFFF).coreInNode 0 0xFFFF = none, is? ((to' 8).coreInNode 0 8) , (0x8000008 : DWord).getLsbD 27, is? (to' 0).me.freeSlot,
     (to' 0).links.length < 2 ^ 63, issues (to' 0x8000008 0xFFFFFFFFFFFFFFFF) [i] && (to' 0x8000008 0xFFFFFFFFFFFFFFFF).me.freeSlot.isNone, (0x7FFFFFFFFFFF : DWord).getLsbD 46]) := by
  decide +kernel

/-- A context that owes an answer on link 5, to a message of core 6. -/
def owedLink : Link := { kind := .message 6 0 3 0 1 0 false, value := 0x55, answerer := 0, answererGen := 0 }
def owing : State := { State.x3 one 0x55 0 0 with links := [(5, owedLink)] }

theorem witness_replyResults : All (
    let i := Instr.reply (plain 1) (plain 8)
    let l := owedLink
    [issues one [i], (argRegs (plain 8) 5).all fun a => one.xFull a.r, (one.findLink (one.xVal 1)).isNone, issues owing [i], is? (owing.findLink (owing.xVal 1)) fun p => p.1 == 5 && p.2 == l, owing.linkOk 0 5 l, (owing.ctx 0).gen = 0,
     !owing.linkOk 0 5 { l with answerer := 1 }, !l.fences, owing.fenceDone owing.who .pk,
     let b := { owing with stores := (storing .ef).stores, fresh := 31 }
     issues b [i] && !b.fenceDone b.who .pk && { l with kind := .composer 7 0 1 1 }.fences]) := by decide +kernel

/-- A message from core 6, for core 7 or for a core on which its context is not resident, whose handler entry is as given. -/
def arriving (core : Nat) (e dst : DWord) : State :=
  let s := one.setMe (one.me.setHandler 1 e)
  let w : Who := { s.who with core := 6 }
  { s with
    flights := [(40, { who := w, dst := .x 5, job := .send 41 })]
    msgs := [(41, { who := w, dst := dst, msg := { hdr := 0x10000, link := 0, args := Vector.replicate 6 3 }, toCtx := 0, toCore := core, peer := false,
                    isReply := false, slot := none, reserve := none, flight := some 40 })]
    fresh := 42 }

theorem witness_messageArrivals : All (
    let en : DWord := 0x0800000000001000
    let free (s : State) : Bool := is? (tget s.msgs 41) (fun m => !m.peer && !m.isReply && !m.again && m.flight == some 40 && m.waitTill.isNone && !s.msgBefore 41 m && s.msgReleased 41 m) &&
      is? (tget s.flights 40) && (s.ctx 0).st != .created && s.rpoints.isEmpty
    [free (arriving 7 en 8), acceptCode (arriving 7 en 8) 7 0 1 = 0, is? ((arriving 7 en 8).img 7 0).freeSlot, ((arriving 7 en 8).core 7).res = some 0,
     free (arriving 5 en 6), acceptCode (arriving 5 en 6) 5 0 1 = 0, ((arriving 5 en 6).core 5).res ≠ some 0, free (arriving 7 0 8), acceptCode (arriving 7 0 8) 7 0 1 = 2,
     free (arriving 7 0 0x4000008), (0x4000008 : DWord).getLsbD 26, (8 : DWord).getLsbD 26 = false]) := by decide +kernel

/-- The same message, asking for a reply into slot 3; and a reply to it, on its way. -/
theorem witness_messageReservations : All (
    let s := { arriving 7 0 8 with msgs := (arriving 7 0 8).msgs.map fun x => (x.1, { x.2 with reserve := some (3, 9) }), links := [(9, { kind := .upcall 7 0 0 1, value := 5, answerer := 0, answererGen := 0 })] }
    let r (core : Nat) : State := { one with msgs := [(41, { who := { one.who with core := 6 }, dst := 8, msg := { hdr := 0x10000, link := 0, args := Vector.replicate 6 3 }, toCtx := 0, toCore := core, peer := false, isReply := true, slot := some 3, reserve := none, flight := none })], fresh := 42 }
    let free (s : State) (p : MFlight → Bool) : Bool := is? (tget s.msgs 41) fun m => !m.peer && !m.again && m.waitTill.isNone && !s.msgBefore 41 m && s.msgReleased 41 m && p m
    [free s (fun m => m.reserve == some (3, 9)) && acceptCode s 7 0 1 != 0 && s.rpoints.isEmpty, free (r 7) (fun m => m.isReply && m.slot == some 3) && ((r 7).core 7).res == some 0,
     free (r 5) (fun m => m.isReply) && ((r 5).core 5).res != some 0 && (r 5).rpoints.isEmpty]) := by decide +kernel

def sending (s : State) (f : MFlight → MFlight) : State := { s with msgs := s.msgs.map fun x => (x.1, f x.2) }

theorem witness_messageResends : All (
    let s := arriving 7 0 0x4000008
    let w := sending s fun m => { m with waitTill := some 0 }
    [is? (tget w.msgs 41) fun m => m.waitTill == some 0 && decide (0 ≤ (w.dieOf (m.who.core / 576)).cyc) && !m.peer && m.toCore / 576 == m.who.core / 576,
     is? (tget (sending w fun m => { m with toCore := 600 }).msgs 41) fun m => !m.peer && m.toCore / 576 != m.who.core / 576, is? (tget (sending w fun m => { m with peer := true }).msgs 41) fun m => m.peer]) := by decide +kernel

theorem witness_tagControl : All (
    let s := regs 0x1FFFFFFFFFFFFFFC 0 0
    [issues s (.tagctlRd 5 255 :: (tagRows s (plain 1) 255 0).map Prod.fst), XIn s (plain 1), XOut s 5, (s.xVal 1) &&& 0xE000000000000003 = 0,
     issues (regs 0x2000000000000000 0 0) [.tagctlLd (plain 1) 255], ((regs 0x2000000000000000 0 0).xVal 1) &&& 0xE000000000000003 ≠ 0, tsorted s.me.handlers]) := by
  decide +kernel

/-- A message that waits for an entry; and a fibre that has parked. -/
def waiting : State :=
  let i := one.me.setHandler 1 0x0B00000000002000
  one.setMe { i with inbox := [(5, { msg := { hdr := 0x10000, link := 0, args := Vector.replicate 6 3 }, tag := 1, route := .handler, order := 9, die := false, entry := 0x0B00000000002000 })] }
def upcalling : State :=
  let i := (light 5 9).me.setHandler 0xFF 0x0B00000000002000
  { one.setMe { i.setFibre 3 { i.fibre 3 with st := .parked } with
      parkings := [{ entry := 3, uid := 9, dva := 0x1234, access := 0, level := 1, pc := 0x1000, word := 7, other := 8 }] } with fresh := 50 }

/-- A `spawn` that leaves the free entry to what waits for it. -/
theorem witness_spawnLeavesEntries : All (
    let s := State.x3 { waiting with unit := one.unit } 0x2000 9 0
    [issues s [.spawn 5 (plain 1) 3], XIn s (plain 1), XOut s 5, is? s.me.nextWaiter fun w => decide (w.2 ≤ 223)]) := by decide +kernel

theorem witness_handlerStarts : All [
    waiting.issuing 7 = some 0, is? (waiting.img 7 0).nextWaiter fun w => !w.1.upcall && is? (tget (waiting.img 7 0).inbox w.1.slot),
    upcalling.issuing 7 = some 0, is? (upcalling.img 7 0).nextWaiter fun w => w.1.upcall && w.1.slot == 3 && w.2 != 3 &&
      is? ((upcalling.img 7 0).parkings.find? fun p => p.entry == w.1.slot && !p.started)] := by decide +kernel

/-- A context that holds a capability for a queue, with every right or with none; and the queue, with a count. -/
def capable (c : DWord) (right : Bool) (n : Nat) : State :=
  let s := regs c 9 0
  { s with ctxs := tset s.ctxs 0 { s.ctx 0 with caps := [(4095, { qid := 3, gen := 0, steal := right, deq := right, enq := right })] }
           queues := tset s.queues 3 { ring := [0x1FFE0003000], cap := 3, count := n, t := n } }

theorem witness_queueOperations : All (
    let s := capable 4095 true 0
    let is := (queueRows s 5 (plain 1) (plain 2) 7).map Prod.fst
    [issues s is, XIn s (plain 1), XIn s (plain 2), XOut s 5, SlotFree s, is? (s.capOf 4095) fun k => k.enq && k.deq && k.steal,
     issues (capable 4095 false 0) is, is? ((capable 4095 false 0).capOf 4095) fun k => !k.enq, issues (capable 0 true 0) is, ((capable 0 true 0).capOf 0).isNone]) := by
  decide +kernel

theorem witness_queueController : All (
    let s (n : Nat) := capable 0 true n
    [Inv (s 0), is? (tget (s 0).queues 3) fun q => q.count == 0 && q.h == q.t, is? (tget (s 7).queues 3) fun q => decide (q.count < 2 ^ q.cap),
     is? (tget (s 8).queues 3) fun q => decide (2 ^ q.cap ≤ q.count),
     let f (j : Job) := inFlight (s 7) (.xp 5 1) j
     (f (.enq 3 9)).linkPassed (s 7).fresh && !(f (.enq 3 9)).ringOwned 3 7 1 && !(f (.deq 3 true)).ringOwned 3 6 1 && !(f (.deq 3 false)).ringOwned 3 0 1,
     is? (tget (s 7).queues 3) fun q => q.count != 0,
     let f (j : Job) := inFlight (s 7) (.xp 5 1) j
     (f (.enq 3 9)).orderKept (s 7).who (s 7).fresh false none && is? (tget (f (.deq 3 true)).flights (s 7).fresh)]) := by decide +kernel

/-- q2 and q3 as given. -/
def qregs (s : State) (a b : QReg) : State := s.setMe { s.me with qreg := #v[a, b] }

theorem witness_queueBindings : All (
    let is := (bindRows 1 (plain 1)).map Prod.fst
    let s := capable 4095 true 6
    let full : QReg := { cap := 4095, dir := 2, qid := 3, buf := [1, 2, 3] }
    let u := State.x3 s 0x8000000000000000 0 0
    [issues s is, XIn s (plain 1), is? (s.capOf 4095) fun k => k.enq && k.deq && k.steal, issues u is, (u.xVal 1).getLsbD 63, s.unbindable {},
     issues (qregs u {} full) is && !(qregs u {} full).unbindable full, s.unbindable { full with buf := [1, 2] },
     issues (qregs u {} { full with dir := 1 }) is && !(qregs u {} { full with dir := 1 }).unbindable { full with dir := 1 },
     issues (capable 4095 false 6) is, issues (capable 0 true 6) is && ((capable 0 true 6).capOf 0).isNone]) := by decide +kernel

/-- q2 and q3 are bound for a pop, or for a push. -/
def boundFor (s : State) (q : BitVec 3) (push : Bool) : Bool :=
  (List.range 2).all fun k => q.toNat != k + 2 || (let d := (s.me.qreg.toArray.getD k {}).dir; if push then d == 1 else d == 2 || d == 3)

theorem witness_queueRegisters : All (
    let is (q : BitVec 3) : List Instr := [.qpop 5 q true, .qpop 5 q false, .qpopv 9 q true, .qpopv 9 q false]
    let ps (q : BitVec 3) : List Instr := [.qpush q true (plain 2), .qpush q false (plain 2), .qpushv q true (plain 8), .qpushv q false (plain 8)]
    let s := qregs (regs 5 9 0) { dir := 2, qid := 3, buf := [1, 2, 3, 4] } { dir := 1, qid := 3, buf := [1] }
    let t := s.setMe { s.me with q0 := [1], fifoL := [1, 2, 3, 4, 5, 6, 7, 8] }
    [issues t (is 0 ++ is 1 ++ is 2 ++ is 4 ++ is 5 ++ ps 3 ++ ps 4 ++ ps 5), boundFor t 2 false, boundFor t 3 true, (t.qElems 7 0 0).length = 1, (t.qElems 7 0 1).isEmpty,
     (t.qElems 7 0 2).length = 4, (t.qElems 7 0 4).length = 8, t.qSpaces 7 0 3 = 3, XOut t 5, XIn t (plain 2), ok? (t.pushGuards [.dv 9]), ok? (t.settle [.dv 9]),
     (t.me.boundTo 9).isNone, ok? (t.ready [.v (plain 8)]),
     let b := withStream t 1 (pushing 0)
     issues b (is 2) && ok? (b.pushGuards [.dv 1]) && ok? (b.settle [.dv 1]) && is? (b.me.boundTo 1) fun st =>
       ok? (((b.setMe (b.me.popQ 2 4)).demote 0 (b.popScope 2)).pushV 1 st none (2 ^ 32 - 1)),
     t.myFibre.kind ≠ 2,
     t.orderKept t.who t.fresh false (some (t.capped 0 .cl)), t.qSpaces 7 0 5 = 0,
     issues (qregs t {} { dir := 1, qid := 3 }) (ps 3) && (qregs t {} { dir := 1, qid := 3 }).qSpaces 7 0 3 == 4]) := by decide +kernel

theorem witness_queueRegisterEngines : All (
    let s (n : Nat) := qregs (capable 0 true n) { dir := 1, qid := 3, buf := [7], ords := [1] } { dir := 2, qid := 3, buf := [1, 2, 3] }
    [((s 7).core 7).res = some 0, (s 7).issuing 7 = some 0, (s 7).undoing 7 0 = false, (s 7).orderKept ((s 7).primaryWho 7 0) 1 false (some ((s 7).capped 0 .pk)), is? ((s 7).enqueue 3 7),
     ((s 8).enqueue 3 7).isNone, is? ((s 7).dequeue 3), is? ((s 7).steal 3), ((s 7).img 7 0).qreg[1].buf.length = 3]) := by decide +kernel

theorem witness_fibreEvents : All [
    let o := one.setMyFibre { one.myFibre with age := 4095 }
    o.issuing 7 == some 0 && (o.myFibre.st == .ready) && !o.myFibre.boost && o.myFibre.age == 4095,
    let p := one.setMe { one.me with parked := [{ msg := { hdr := 0, link := 0, args := Vector.replicate 6 3 }, tag := 1, route := .held, order := 9, die := false }] }
    ((p.core 7).res == some 0) && ((p.img 7 0).parked[0]?).any (fun m => m.slot.isNone) && (p.img 7 0).freeSlot == some 0,
    let r := one.setMe { one.me with parked := [{ msg := { hdr := 0, link := 0, args := Vector.replicate 6 3 }, tag := 1, route := .held, order := 9, die := false, slot := some 3 }] }
    ((r.core 7).res == some 0) && ((r.img 7 0).parked[0]?).any fun m => m.slot == some 3,
    let w := inFlight one (.x 5) (.outcome 7)
    w.linkPassed one.fresh && is? (w.who? w.who),
    is? (tget (inFlight one (.x 5) (.value 7)).flights one.fresh) fun f => f.job == .value 7,
    is? (tget (inFlight one (.x 5) (.outcome 7)).flights one.fresh) fun f => f.job == .outcome 7] := by decide +kernel

/-! ### States that meet the hypotheses of the statements: streams, repetition, the matrix unit and copies -/

theorem witness_streamDescriptors : All [
    issues (regs 5 9 0) [.scfg 1 (plain 1) 0, .scfg 3 (plain 1) 6], XIn (regs 5 9 0) (plain 1), (one.stream 3).bind = 0,
    issues (withStream one 1 (popping 0)) [.scfg 1 (plain 1) 6], ((withStream one 1 (popping 0)).stream 1).bind ≠ 0] := by decide +kernel

/-- A handle: element format, levels, kind of level 0, extents and origins; its region is 0x1000 to 0x9000 of the scratchpad. -/
def handle (ty nl k0 e0 e1 o0 o1 : Nat) : HWord :=
  let ds : List DWord := [BitVec.ofNat 64 (ty * 2 ^ 32 + nl * 2 ^ 28 + k0 * 2 ^ 20), BitVec.ofNat 64 (e0 + e1 * 2 ^ 16), BitVec.ofNat 64 (o0 + o1 * 2 ^ 16),
    spad 0x1000, spad 0x9000, spad 0x1000, 0, 0]
  ds.zipIdx.foldl (fun h p => setHdw h p.2 p.1) 0
def dense : HWord := handle 8 1 0 96 64 0 0
def seeded : HWord := handle 8 1 2 96 64 0 0

/-- A state with handle registers and FMT as given. -/
def handles (hs : List HWord) (fmt : DWord := 0x8880) (s : State := regs 5 9 0) : State :=
  s.setMe { s.me with fmt := fmt, h := Vector.ofFn fun (k : Fin 8) => hs.getD k 0 }

theorem witness_streamBinding : All (
    let is : List Instr := [.sbindPop 1, .sbindPush 1]
    let s (t : Stream) := withStream (handles [dense, handle 6 1 0 96 64 0 0]) 1 t
    let t (t : Stream) := (s t).stream 1
    let big : DWord := 0xFFFFFFFF + 4 * 2 ^ 32
    let three : Stream := { stream 0 3 8 (0x10000 + 4 * 2 ^ 32) (0x10000 + 4 * 2 ^ 32) with dw := #v[0x808, spad 0x1000, big, big, big, 0, 0] }
    [issues (s (popping 0)) is, (t (popping 0)).bind ≠ 0, issues (s (stream 3 1 8 1 0)) is, (t (stream 3 1 8 1 0)).kind = 3, (t (stream 0 1 6 1 0)).fmt = .f4,
     issues (s (stream 0 1 8 0 0)) is, (t (stream 0 1 8 0 0)).kind = 0 && (t (stream 0 1 8 0 0)).dims.any (fun d => d.1 == 0),
     issues (s (stream 2 1 9 0 0)) is, (t (stream 2 1 9 0 0)).kind = 2, (t (stream 2 1 9 0 0)).fmt ≠ (hview dense).etype, (t (stream 2 1 8 0 0)).fmt = (hview dense).etype,
     handleValid dense && (hview dense).kind 0 == 0, let bad := handle 8 1 3 0 64 0 0; issues (withStream (handles [bad]) 1 (stream 2 1 8 0 0)) is && !handleValid bad && (hview bad).etype == .s8,
     issues (s (stream 0 1 8 (1 + 4 * 2 ^ 32) 0)) is, (t (stream 0 1 8 (1 + 4 * 2 ^ 32) 0)).items = 1, decide (2 ^ 48 ≤ (t three).items) && (t three).dims.all fun d => d.1 != 0]) := by
  decide +kernel

theorem witness_streamStatus : All (
    let is : List Instr := [.sunbind 1, .sstat 5 1]
    let e : PushElem := { items := [], width := 32, md := .ef, val := none, tag := 3 }
    let full := { pushing 0 with push := List.replicate 8 e }
    [issues one is, XOut one 5, issues (withStream one 1 (popping 100)) is, ((withStream one 1 full).stream 1).push.length = 8, issues (withStream one 1 full) is,
     (popping 100).items = 100, (popping 0).push.isEmpty]) := by decide +kernel

theorem witness_streamPops : All (
    let i := Instr.vabs 9 (plain 1) 0 .s32
    let s (t : Stream) := withStream one 1 t
    [((s (popping 0)).stream 1).held = [5, 6], issues (s (popping 100)) [i], (popping 100).items ≤ (popping 100).pos.toNat, issues (s (pushing 0)) [i], (pushing 0).bind = 2]) := by
  decide +kernel

theorem witness_streamPushes : All (
    let i := Instr.vbcast 1 (plain 5) .s32
    let s (t : Stream) := withStream one 1 t
    let js (p : BitVec 48) := (List.range (pushing p).lanes).filter fun j => (0xFF : Nat).testBit j && decide (p.toNat + j < (pushing p).items)
    [ok? ((s (pushing 99)).itemTargets 7 0 (pushing 99) .push ((js 99).map fun j => 99 + j)), js 99 = [0], issues (s (pushing 100)) [i], XIn one (plain 5),
     (pushing 100).items ≤ (pushing 100).pos.toNat, issues (s (popping 0)) [i]]) := by decide +kernel

theorem witness_streamEngines : All (
    let s (t : Stream) := withStream one 1 t
    let near := popping 32
    let bad := { popping 0 with dw := #v[8, 0x2000000000, 100 + 4 * 2 ^ 32, 0, 0, 0, 0] }
    let e : PushElem := { items := [(0, .mem (spadPlace 0 0x1000))], width := 32, md := .ef, val := some 7, tag := 1 }
    [(s near).issuing 7 = some 0, (s near).myFibre.st = .ready, near.pos.toNat + near.held.length * near.lanes < near.items,
     ok? ((s near).itemTargets 7 0 near .pop (near.elemItems 96)) fun x => x.2.all fun y => !x.1.readHeld ((s near).primaryWho 7 0) near.bindAt y near.isize,
     (near.elemItems 96).all fun j => !(s near).indexHeld 7 0 near near.bindAt j,
     (s near).undoing 7 0 = false, (s near).storesDone ((s near).primaryWho 7 0) near.bindAt .sy, (s near).matrixDone ((s near).primaryWho 7 0) near.bindAt,
     ok? ((s near).itemTargets 7 0 near .pop (near.elemItems 96)) fun x => x.2.all fun y => !(s near).lineOwned (s near).fresh y near.isize, (near.elemItems 96).length = 4,
     no? ((s bad).itemTargets 7 0 bad .pop (bad.elemItems 64)), ({ popping 0 with held := List.replicate 8 0 } : Stream).held.length = 8,
     ((s { pushing 0 with push := [e] }).core 7).res = some 0]) := by decide +kernel

/-- A body of two A-class words behind `rep`, in memory. -/
def repeating (i : Instr) (body : List Instr) : State :=
  let s := State.x3 one 65536 65537 0
  (s.putBytes 0x1004 (body.flatMap fun j => toBytes 4 (encode true j).toNat)).setMyFibre s.myFibre |> fun t =>
    { t with unit := { t.unit with word := encode true i } }

theorem witness_repetitionStarts : All (
    let va := Instr.vadd 9 (plain 10) (plain 11) 0 .s32
    let vb := Instr.vaddi 9 (plain 9) .s32 3
    let i := Instr.repImm 1 0xFFFF
    let r (x : Reg) := Instr.repReg 1 (plain x)
    let s := repeating i [va, vb]
    [issues s [i, r 1, r 2, r 3], XIn s (plain 1), XIn s (plain 2), s.unit.wh = 0, (s.xVal 1).toNat = 65536, (s.xVal 2).toNat = 65537, s.xVal 3 = 0,
     ok? (s.capture s.unit.unitEnd 2 0) fun t => t.2.length == 2, ok? ((repeating i [va, .addi 5 (plain 5) 1]).capture s.unit.unitEnd 2 0),
     let f := { s with unit := { s.unit with unitEnd := 0x2000000000 } }
     issues f [i, r 1] && no? (f.capture f.unit.unitEnd 2 0)]) := by decide +kernel

/-- A replay about to execute its one body word. -/
def replaying (b : Instr) (left : BitVec 17) : State :=
  one.setMe { one.me with rep := { body := (Vector.replicate 32 0).set 0 (encode true b), act := true, len := 0, next := 0, left := left, repat := 0x0FFC } }

theorem witness_replays : All (
    let va := Instr.vadd 9 (plain 10) (plain 11) 0 .s32
    let unitOf (s : State) : State := { s with unit := { core := 7, ctx := 0, entry := 0, pc := 0x1000, unitEnd := 0x1004, word := encode true va, other := 0, wh := 3, body := 0 } }
    let s := replaying va 65536
    let e := s.setMe { s.me with vfull := 0 }
    [s.issuing 7 = some 0, s.undoing 7 0 = false, (unitOf s).indexWaits va = false, (unitOf e).indexWaits va = false, s.me.rep.act, s.me.rep.left ≠ 0, s.myFibre.st = .ready, (decodeWord (encode true va) matches .ok _), ok? (effOf va (unitOf s)), (effOf va (unitOf e) matches .error (.wait _ _ _)),
     let w := withStream s 2 (popping 100)
     no? (effOf (.vadd 9 (plain 2) (plain 11) 0 .s32) (unitOf w)) fun x => x.isGuard && !x.awaitsHost (unitOf w)]) := by decide +kernel

/-- FCTL and FSTATUS, behind a replay. -/
theorem witness_specialRegistersBehindAReplay : All (
    let s := State.x3 (replaying (.vadd 9 (plain 10) (plain 11) 0 .s32) 2) 0 9 0
    [s.fpBusy 1, s.fpBusy 2, issues s [.mfs 5 0x001, .mfs 5 0x002], XOut s 5, XIn s (plain 1)]) := by decide +kernel

theorem witness_behindAReplay : All (
    let s := replaying (.vadd 9 (plain 10) (plain 11) 0 .s32) 2
    let x := replaying (.vbcast 9 (plain 5) .s32) 2
    [s.unit.pair.isNone, s.unit.entry = 0, s.me.rep.act, s.me.rep.left ≠ 0, (instrNames (.add 5 (plain 1) (plain 2) false)).any fun n => x.me.rep.names.contains n,
     (instrNames (.add 5 (plain 1) (plain 2) false)).all fun n => !s.me.rep.names.contains n, s.me.rep.alone = false, XIn s (plain 1), XIn s (plain 2), XOut s 5]) := by
  decide +kernel

/-- An operand of the products, the kind of its level 0 apart. -/
def operand (s : State) (n : BitVec 3) (f : Fmt) (k : Nat) : Bool :=
  let h := s.view.h[n.toNat]
  let v := hview h
  handleValid h && v.etype == f && v.nlev == 2 && v.o0 % 48 == 0 && decide (v.o0 + k ≤ v.ext 0) && decide (v.o1 + 64 ≤ v.ext 1) && ok? (s.blockChecks h n.toNat k false)

theorem witness_matrixRequests : All (
    let s := handles [dense, dense, seeded]
    let full := s.setCluster 0 { s.cluster 0 with mreqs := List.replicate 8 { who := s.who, id := 1, op := .zero 1, fmt := 0 } }
    let is : List Instr := [.mma 15 0 1 1, .mmas 15 0 2 1, .mmac 3 14 2 1, .mmac 3 4 1 0, .accz 15, .accrd 15 (plain 1), .accdc 15 1 0, .accdc 4 1 5, .mxfmt true 15 0 8]
    let v (d : DWord) : Bool := d.extractLsb' 14 50 == 0 && d.extractLsb' 6 2 == 0
    let hv := hview dense
    [Issuer s, issues s is, issues full is, (full.cluster 0).mreqs.length = 8, (fmtA s.view.fmt, fmtB s.view.fmt) ∈ productPairs, operand s 0 .s8 96, operand s 2 .s8 96,
     operand s 1 .s8 48, (hview dense).kind 0 = 0, (hview seeded).kind 0 = 2, fmtD s.view.fmt = fmtA s.view.fmt, XIn s (plain 1), v (s.xVal 1),
     v 0x3F00 && decide (((0x3F00 : DWord).extractLsb' 0 6).toNat + ((0x3F00 : DWord).extractLsb' 8 6).toNat + 1 ≤ 64), !v 0x4000, !v 0x40,
     fmtD s.view.fmt ∈ [Fmt.f32, .f16, .bf16, .f8a, .f8b, .f4, .s8, .s16], blockScaled .s8 = false, handleValid dense, hv.etype = .s8, hv.o1 + 64 ≤ hv.ext 1, hv.o0 + 96 ≤ hv.ext 0,
     ok? (s.blockChecks dense 1 96 true), ok? (s.blockChecks dense 1 16 true)]) := by decide +kernel

theorem witness_matrixGuards : All (
    let s := handles [dense, seeded, handle 9 1 0 96 64 0 0, handle 8 1 0 96 64 0 1, 0]
    let o := s.setCluster 0 { s.cluster 0 with mxissuer := 3 }
    let b := handles [dense, dense] 0x8980
    [!decide (Issuer o), issues o [.mma 3 0 1 1, .mmas 3 0 1 1, .mmac 3 0 1 1, .accz 3, .accrd 3 (plain 1), .accdc 3 0 1], Issuer b, (fmtA b.view.fmt, fmtB b.view.fmt) ∉ productPairs,
     issues b [.mma 3 0 1 1, .mmas 3 0 1 1, .mmac 3 0 1 1], (fmtA s.view.fmt, fmtB s.view.fmt) ∈ productPairs,
     issues s [.mma 3 4 0 1, .mmas 3 4 0 1, .mma 3 2 0 1, .mma 3 3 0 1, .mma 3 1 0 1, .mmac 3 0 0 31, .mmac 3 15 0 1, .mmac 3 2 0 1], handleValid 0 = false,
     handleValid (handle 9 1 0 96 64 0 0) && (hview (handle 9 1 0 96 64 0 0)).etype != .s8, let v := hview (handle 8 1 0 96 64 0 1); v.nlev == 2 && decide (v.ext 1 < v.o1 + 64),
     operand s 1 .s8 96, (hview seeded).kind 0 ≠ 0]) := by decide +kernel

/-- A matrix unit whose oldest request is as given. -/
def requesting (op : MOp) (running bubble : Bool) (last : Option DWord) : State :=
  one.setCluster 0 { one.cluster 0 with
    mreqs := [{ who := one.who, id := 1, op := op, fmt := 0x8880, running := running }], bubble := bubble, lastFmt := last }

theorem witness_matrixUnit : All (
    let p : MOp := .product 3 (some dense) 0 dense 96
    let s := requesting p false true (some 0x8880)
    let r : MReq := { who := one.who, id := 1, op := p, fmt := 0x8880 }
    [(s.cluster 0).mreqs = [r], s.rangesHeld r (r.reads 0 ++ r.writes 0) = false, (s.img 7 0).cuts.isEmpty, p.usesFmt, (requesting p false true (some 0x2220)).cluster 0 |>.bubble,
     ((requesting p true false none).cluster 0).mreqs.all MReq.running, ((requesting p false true none).cluster 0).mreqs.all fun x => !x.running]) := by decide +kernel

theorem witness_matrixEffects : All [
    Inv one, ((requesting (.zero 15) true false none).cluster 0).mreqs.all fun r => r.op == .zero 15,
    ((requesting (.product 15 none 0 dense 96) true false none).cluster 0).mreqs.all fun r => r.op == .product 15 none 0 dense 96] := by decide +kernel

theorem witness_tileReads : All (
    let s (q : Nat) : State := let t := requesting (.read 15 63 31 1) true false none; t.setMe { t.me with q0 := List.replicate q 7 }
    let cut := one.setMe { one.me with cuts := [{ tile := 1, row := 2, left := 3, dws := some [7] }] }
    [((s 15).cluster 0).mreqs.all fun r => r.running && r.op == .read 15 63 31 1, ((s 15).img 7 0).q0.length < 16, 16 ≤ ((s 16).img 7 0).q0.length, ((s 15).img 7 0).cuts.isEmpty,
     cut.issuing (cut.issuerCore 0) = some 0, (cut.img (cut.issuerCore 0) 0).cuts.length = 1, (cut.img 7 0).q0.isEmpty]) := by decide +kernel

theorem witness_handleRegisters : All (
    let m := MemOp.disp (plain 1) 0
    let put (s : State) (h : HWord) := s.putBytes (spadPlace 0 0x1000) (toBytes 64 h.toNat)
    let other := setHdw dense 0 (hdw dense 0 + 3 * 2 ^ 36)
    let is : List Instr := [.hld 7 m .core, .hst m 7 .core .ef, .hset 7 3 (plain 1), .hget 5 7 7]
    let gen (h : HWord) := (hdw h 0).extractLsb' 36 16
    [issues (put own dense) is, issues odd' is, issues away is, issues unmapped is, XIn own (plain 1), XOut own 5, odd'.xVal 1 % 64 ≠ 0, (spad 0x1000) % 64 = 0,
     reaches own .hload 64 true, reaches own .hstore 64 true, reaches away .hload 64 false, SlotFree away, no? (unmapped.resolve 7 0 .hload (unmapped.xVal 1) 64),
     (hdw dense 0).extractLsb' 52 12 = 0 && gen dense == 0, gen other ≠ 0, ((spad 0x1000) : DWord).toNat < (hdw dense 4).toNat, (hdw dense 3).toNat ≤ (spad 0x1000).toNat,
     (State.x3 one 0xFFF 0 0).xVal 1 = 0xFFF && decide (0xFFF < (hdw dense 3).toNat)]) := by decide +kernel

/-- A gather or a scatter whose index register is as given, through a handle of two dimensions. -/
def gathering (idx : VWord) (h : HWord) : State :=
  let s := handles [h]
  s.setMe { s.me with v := s.me.v.set 9 idx }

theorem witness_gathers : All (
    let h1 := handle 10 0 0 8 0 0 0
    let away' := let ds : List DWord := [0x1000, 0x2000, 0x1000]; ds.zipIdx.foldl (fun h p => setHdw h (p.2 + 3) p.1) h1
    let i := Instr.hgat 8 0 (plain 9) 0
    let checks (s : State) (h : HWord) (p : List (Nat × Target × DWord) → Bool) : Bool :=
      ok? (s.handleCount h 0) fun c => ok? (c.1.laneChecks (hview h) 0 c.2 .gather s.view.v[9].toNat (gathered (hview h).etype.width (s.kmask 0))) fun t => p t.2
    let s := gathering 0x0000000700000001 h1
    let a := gathering 0x0000000700000001 away'
    [issues s [i], (s.me.boundTo 8).isNone, (s.me.boundTo 9).isNone, s.view.vfull.getLsbD 9, s.view.vfull.getLsbD 8, issues (gathering 0 0) [i], handleValid 0 = false, handleValid h1,
     (hview h1).etype ≠ .f4, checks s h1 (fun ts => ts.all (fun x => x.2.1.ownSpad 7 && !s.readHeld s.who s.fresh x.2.1 ((hview h1).etype.width / 8)) && ts.length != 0), issues a [i],
     handleValid away' && checks a away' (fun ts => ts.any fun x => !x.2.1.ownSpad 7), SlotFree a,
     let b := gathering 0 (let ds : List DWord := [0x2000000000, 0x2000010000, 0x2000000000]; ds.zipIdx.foldl (fun h p => setHdw h (p.2 + 3) p.1) h1)
     issues b [i] && handleValid b.view.h[0] && ok? (b.handleCount b.view.h[0] 0) fun c => no? (c.1.laneChecks (hview b.view.h[0]) 0 c.2 .gather 0 [0])]) := by decide +kernel

theorem witness_scatters : All (
    let h1 := handle 10 0 0 8 0 0 0
    let is (op : ScatOp) : List Instr := [.hsca op 0 (plain 8) (plain 9) 0]
    let s := gathering 0x0000000700000001 h1
    [issues s (is .plain ++ is .max), (s.me.boundTo 8).isNone, s.view.vfull.getLsbD 8, handleValid h1, (hview h1).etype = .s32,
     ok? (s.handleCount h1 0) fun c => ok? (c.1.laneChecks (hview h1) 0 c.2 .scatter s.view.v[9].toNat (gathered 32 (s.kmask 0))),
     ok? (s.handleCount h1 0) fun c => ok? (c.1.laneChecks (hview h1) 0 c.2 .scatterAmo s.view.v[9].toNat (gathered 32 (s.kmask 0))),
     issues (gathering 0 dense) (is .add), (hview dense).etype = .s8, handleValid dense,
     let b := gathering 0 (let ds : List DWord := [0x2000000000, 0x2000010000, 0x2000000000]; ds.zipIdx.foldl (fun h p => setHdw h (p.2 + 3) p.1) h1)
     issues b (is .plain) && handleValid b.view.h[0] && ok? (b.handleCount b.view.h[0] 0) fun c => no? (c.1.laneChecks (hview b.view.h[0]) 0 c.2 .scatter 0 [0])]) := by decide +kernel

/-- What a copy is given: destination, source, parameters; its tokens. -/
def copying (d src p : DWord) (tok : BitVec 16 := 0) : State := tokens (regs d src p) tok

/-- A state whose context's node is the whole package. -/
def wide (s : State) : State := s.setCtx 0 { s.ctx 0 with order := 12 }

/-- The guards of a copy of at most a few lines pass. -/
def copies (form : CopyForm) (s : State) : Bool :=
  let d := s.xVal 1
  let src := s.xVal 2
  let p := copyParam (s.xVal 3)
  let n := p.length
  let dc := (spadCluster 0 d).getD 0
  let dcs := if form = .multi then (List.range (2 ^ p.order)).map fun k => dc / 2 ^ p.order * 2 ^ p.order + k else [dc]
  issues s [copyInstr form 1 (plain 2) (plain 3) .sy] && (s.xVal 3).extractLsb' 44 3 == 0 && n != 0 && oneKind src n && oneKind d n && form.srcOk 0 src && form.dstOk 0 d &&
  (!p.fwen || dcs.all fun c => ok? (s.fillWord 7 0 (BitVec.ofNat 64 (2 ^ 55 + (c * 128 + 80) * 2 ^ 24 + p.fwoff)) 1)) &&
  ok? (s.rangePieces .copySrc src n (form == .xfer) 0 (n / 128 + 2)) (fun a => ok? (a.1.rangePieces .copyDst d n (form == .xfer) 0 (n / 128 + 2)) fun b =>
    let outs := if form = .multi then dcs.map fun c => b.2.1.map fun x => (x.1, x.2.1, inCluster c x.2.2) else [b.2.1]
    (form != .multi || dcs.all fun c => nodeHolds s.myCtx c && inShare s.myCtx c (d.toNat % 2 ^ 24) n) && (outs.all fun o => (overlapAt a.2.1 o).isNone) &&
    !s.copyMustWait (a.2.1 ++ outs.flatten))

theorem witness_copyIssue : All (
    let zero := copying (spad 0x2000) (spad 0x1000) 0x0000080000000000
    let pend := copying (spad 0x2000) (spad 0x1000) 0x0000080000000000 1
    let busy : State := let s := copying (spad 0x2000) (spad 0x1000) 300
      { s with copies := (List.range 16).map fun k => (k, { who := s.who, cl := some 0, scope := .cl, lines := [], rtok := none, vtok := none, fill := none }) }
    [issues zero [.copy 1 (plain 2) (plain 3) .cl, .copym 1 (plain 2) (plain 3) .cl, .copyx 1 (plain 2) (plain 3) .cl], (copyParam (zero.xVal 3)).length = 0,
     (copyParam (zero.xVal 3)).tokens = 1, tokenOf zero.myFibre 0 = 0, tokenOf pend.myFibre 0 = 1, issues pend [.copy 1 (plain 2) (plain 3) .cl],
     copies .plain (copying (spad 0x2000) (spad 0x1000) 300), copies .plain (copying (spad 0x2000) (spad 0x1000) (300 + 2 ^ 47 + 0x100 * 2 ^ 48)),
     copies .multi (wide (copying (0x0080000000000000 + 80 * 2 ^ 24 + 0x2000) (spad 0x1000) (300 + 3 * 2 ^ 32))), copies .xfer (copying 0x1800 0x9000 300),
     copies .plain (copying (spad 0x2000) (spad 0x1000) (300 + 0x0000080000000000) 1), copies .plain busy, busy.copiesAt (some 0) = 16]) := by decide +kernel

theorem witness_copyGuards : All (
    let is : List Instr := [.copy 1 (plain 2) (plain 3) .cl, .copym 1 (plain 2) (plain 3) .cl, .copyx 1 (plain 2) (plain 3) .cl]
    let s (d src p : DWord) := copying d src p
    [issues (s (spad 0x2000) (spad 0x1000) (300 + 2 ^ 44)) is, ((300 + 2 ^ 44 : DWord)).extractLsb' 44 3 ≠ 0, (copyParam (300 + 2 ^ 32)).order = 1, (copyParam (300 + 2 ^ 47)).fwen,
     (spadCluster 0 0x1800).isNone, oneKind 0x3FFFFFFFFFFFF0 300 = false, CopyForm.plain.srcOk 0 (0x0080000000000000 + 208 * 2 ^ 24) = false, CopyForm.plain.srcOk 0 (spad 0x1000),
     CopyForm.plain.dstOk 0 (0x0080000000000000 + 120 * 2 ^ 24) = false,
     CopyForm.xfer.srcOk 0 0x1800 && CopyForm.xfer.dstOk 0 0x9000,
     let t := s (spad 0x2000) 0x2000000000 300
     oneKind 0x2000000000 300 && CopyForm.plain.srcOk 0 0x2000000000 && no? (t.rangePieces .copySrc 0x2000000000 300 false 0 4),
     let t := s 0x2000000000 (spad 0x1000) 300
     ok? (t.rangePieces .copySrc (spad 0x1000) 300 false 0 4) fun a => no? (a.1.rangePieces .copyDst 0x2000000000 300 false 0 4),
     let t := s (spad 0x1010) (spad 0x1000) 300
     ok? (t.rangePieces .copySrc (spad 0x1000) 300 false 0 4) fun a => ok? (a.1.rangePieces .copyDst (spad 0x1010) 300 false 0 4) fun b => (overlapAt a.2.1 b.2.1).isSome]) := by decide +kernel

/-- A copy that its engine has accepted, of one line. -/
def engaged (dst : Target) (buf : Option Bytes) (done : Bool) (fill : Option Nat := none) : State :=
  { tokens one 0x4001 with
    copies := [(30, { who := one.who, cl := some 0, scope := .cl, lines := [{ src := [(.mem (spadPlace 0 0x1000), 4)], dst := dst, len := 4, buf := buf, done := done }],
                      started := true, rtok := some 0, vtok := some 7, fill := fill })] }

theorem witness_copyLines : All (
    let unstarted : State := { one with copies := [(30, { who := one.who, cl := some 0, scope := .cl, lines := [], rtok := none, vtok := none, fill := none })] }
    let ready (s : State) (p : CLine → Bool) : Bool := is? (tget s.copies 30) fun c => c.started && is? c.lines[0]? fun l =>
      !l.done && !c.holds l && s.barsKept c.who 30 && !s.lineOwned 30 l.dst l.len && !s.matrixHolds c.who 30 l.dst l.len true &&
      (l.src.all fun x => !s.lineOwned 30 x.1 x.2 && !s.fillPending x.1 x.2) && ((l.dst :: l.src.map Prod.fst).all fun t => !s.refusedAt c.who.ctx (c.cl.map fun cl => cl / 64) t) && p l
    let peer := { engaged (.peer 3 0) none false with routes := [(3, 1)] }
    [is? (tget unstarted.copies 30) fun c => !c.started, unstarted.copies.all fun q => decide (30 ≤ q.1), Inv (engaged (.mem 0x1800) none false),
     ready (engaged (.mem 0x1800) none false) (fun l => l.dst == .mem 0x1800) && isHomed 0x1800, ready (engaged (.mem (spadPlace 0 0x2000)) (some [1, 2, 3, 4]) false (some 0x100)) (fun l => l.buf.isSome),
     ready peer (fun l => l.dst.isPeer) && is? (peer.peerPort 3 0), let lost := engaged (.peer 3 0) none false
     ready lost (fun l => l.dst.isPeer) && (lost.peerPort 3 0).isNone && is? (tget lost.copies 30) fun c => c.peerFault.isNone]) := by decide +kernel

theorem witness_copyEvents : All (
    let s := engaged (.mem 0x1800) none true
    [is? (tget s.copies 30) fun c => c.started && !c.released && !c.visible && c.lines.all CLine.done && c.lines.all (s.lineVisible 30 c) && is? (s.who? c.who), tsorted s.copies, tokenOf s.myFibre 0 = 1,
     tokenOf s.myFibre 7 = 1]) := by decide +kernel

/-! ### States that meet the hypotheses of the statements: contexts, scheduling and faults -/

/-- A child of services that accepts classes, and its own children: Stopped, stopped with its parent, Saved, busy, Revoked. -/
def family : State :=
  let c0 := one.ctx 0
  let k (p d : Nat) (st : CState) : Ctx := { c0 with parent := some (p, 0), depth := d, st := st, part := false, fq := none, accept := 0, queues := [], order := 0, shlen := 1 }
  { one with
    ctxs := tset one.ctxs 0 { c0 with ranges := [{ base := 0x10000000000000, limit := 0x10000010000000, target := 0x10000000000000, dt := false, scrub := false, rights := 0x3F }] } ++
      [(1, { k 0 1 .running with fq := some 2, accept := 7, part := true, order := 3, shlen := 188, pno := 1 }), (2, k 1 2 .stopped), (3, { k 2 3 .stopped with stoppedBy := some 2 }),
       (4, k 1 2 .saved), (5, { k 1 2 .created with busy := true }), (6, k 1 2 .running)] }

/-- The family, with values in x1 and x2; and another of it at work. -/
def among (a b : DWord) : State := State.x3 family a b 0
def within (n : Nat) (a b : DWord) : State :=
  let s := { (family.setImg 7 n (family.img 7 0)).setCore 7 { family.core 7 with res := some n } with unit := { family.unit with ctx := n } }
  State.x3 s a b 0

/-- Nothing holds back a context instruction of entry 0. -/
def composed (s : State) : Bool :=
  decide (XIn s (plain 1)) && decide (XIn s (plain 2)) && decide (XOut s 5) && s.fenceDone s.who .pk && tokenOf s.myFibre 7 != 1

theorem witness_contextOrder : All (
    let s := among 1 0x100000
    let is := (contextRows 5 (plain 1) (plain 2) 7).map Prod.fst
    let pend := tokens s 0x4000
    let busy := { s with stores := (storing .ef).stores, fresh := 31 }
    [issues s is, composed s, issues pend is, tokenOf pend.myFibre 7 = 1, issues busy is && !busy.fenceDone busy.who .pk, no? (ctxnewBody 8 s) (fun e => e matches .code 5),
     ok? (ctxinfoBody true 0 0 s)]) := by decide +kernel

theorem witness_contextTargets : All (
    let is : List Instr := [.ctxstart 5 (plain 1), .ctxstop 5 (plain 1) 7, .ctxsave 5 (plain 1) (plain 2) 7, .ctxload 5 (plain 1) (plain 2) 7, .ctxrevoke 5 (plain 1) 7,
      .ctxinfo 5 (plain 1) (plain 2)]
    let target (s : State) : Bool :=
      let v := s.xVal 1
      s.isLive (v.extractLsb' 0 12).toNat && (s.ctx (v.extractLsb' 0 12).toNat).gen == v.extractLsb' 16 16 && s.isBelow (v.extractLsb' 0 12).toNat s.unit.ctx
    [issues (among 4095 0) is && composed (among 4095 0) && !target (among 4095 0), issues (among 0x10001 0) is && !target (among 0x10001 0), !target (among 0 0),
     issues (among 1 6) is && target (among 1 6), (infoRows family 1).map Prod.fst = [0, 1, 2, 3, 4, 5, 6], 7 ≤ ((among 1 7).xVal 2).toNat,
     issues (among 0 0) [.ctxinfo 5 (plain 0) (plain 2)]]) := by decide +kernel

theorem witness_faultReflection : All (
    let i := Instr.reflect 5 (plain 1)
    let held (cls : Nat) : State := let s := within 1 0x3000 0
      let q : Queue := { ring := [0x3000], cap := 9, count := 8, t := 8 }
      let t := { s with queues := tset s.queues 2 q }
      (t.writeNat (q.slot 0 + 8) 8 (cls * 2 ^ 30))
    [issues (within 1 8 0) [i] && composed (within 1 8 0) && ((within 1 8 0).xVal 1).toNat % 64 != 0, issues (within 6 0 0) [i] && (within 6 0 0).myCtx.fq.isNone,
     (((held 5).upFrom 1).drop 1).any fun n => ((held 5).ctx n).accept.getLsbD 5 && ((held 5).ctx n).fq.isSome, issues (held 5) [i], composed (held 5), ok? ((held 5).heldPacket 0x3000) fun ds => ds.length == 8,
     let t := { held 5 with ctxs := tset (held 5).ctxs 0 { (held 5).ctx 0 with accept := 0 } }
     ((t.upFrom 1).drop 1).all fun n => !(t.ctx n).accept.getLsbD 5]) := by decide +kernel

theorem witness_contextStarts : All (
    let i := Instr.ctxstart 5 (plain 1)
    let j := Instr.ctxstop 5 (plain 1) 7
    let t (n : Nat) : State := among (BitVec.ofNat 64 n) 0
    let named (n : Nat) : Bool := issues (t n) [i, j] && composed (t n) && ok? ((t n).targetOf ((t n).xVal 1)) (fun k => k == n)
    [named 1, named 2, named 3, named 4, named 5, (family.ctx 1).st = .running, (family.ctx 2).st = .stopped, (family.ctx 4).st = .saved, (family.ctx 5).busy,
     (family.partDies 2).all fun d => !family.dieFailed d, (family.ctx 3).stoppedBy = some 2, (family.subtree 2).contains 3,
     let s := { t 1 with ctxs := tset (t 1).ctxs 1 { (t 1).ctx 1 with stopping := true } }
     issues s [j] && ok? (s.targetOf 1) && (s.ctx 1).stopping]) := by decide +kernel

theorem witness_contextImages : All (
    let is : List Instr := [.ctxsave 5 (plain 1) (plain 2) 7, .ctxload 5 (plain 1) (plain 2) 7, .ctxrevoke 5 (plain 1) 7]
    let t (n : Nat) (a : DWord) : State := among (BitVec.ofNat 64 n) a
    let named (n : Nat) : Bool := issues (t n 0) is && composed (t n 0) && ok? ((t n 0).targetOf ((t n 0).xVal 1)) (fun k => k == n)
    let free (n : Nat) : Bool := (family.subtree n).all fun k => !(family.ctx k).busy && !(family.ctx k).stopping
    [named 2, named 4, named 1, free 2, free 4, ok? (family.imageOk 0x10000 (family.imageBlocks 2) false), ok? (family.imageOk 0x10000 (family.imageBlocks 4) true),
     no? (family.imageOk 0x10008 (family.imageBlocks 2) false) fun e => e matches .code 5,
     let s := { t 2 0 with ctxs := tset (t 2 0).ctxs 3 { (t 2 0).ctx 3 with busy := true } }
     (s.ctx 2).st == .stopped && (s.subtree 2).contains 3 && (s.ctx 3).busy && ok? (s.targetOf 2)]) := by decide +kernel

theorem witness_longOperations : All (
    let op (k t : Nat) : State := let o : LongOp := { word := BitVec.ofNat 64 (2 ^ 63 + k * 2 ^ 60 + 7 * 2 ^ 57 + t * 2 ^ 45), image := 0x10000, uid := 1 }
      family.setMe { family.me with ops := [o] }
    let o (s : State) : LongOp := s.me.ops.headD { word := 0, image := 0, uid := 0 }
    [(op 2 2).issuing 7 = some 0, ((o (op 2 2)).word.extractLsb' 45 12).toNat = 2, family.isBelow 2 0, family.isLive 2, is? ((op 2 2).opBlock 7 0 (o (op 2 2))),
     family.isBelow 4095 0 = false, ((o (op 2 4095)).word.extractLsb' 45 12).toNat = 4095]) := by decide +kernel

/-- A descriptor at 0x1800: a child on the issuer's node, its launch queue at 0x1E00, its save area in the second tier. -/
def describing : State :=
  let s := among 0x1800 0
  (((s.writeNat (0x1800 + 32) 8 (3 * 2 ^ 28)).writeNat (0x1800 + 40) 8 0x1E00).writeNat (0x1800 + 56) 8 0x10000000100000)

theorem witness_contextCreation : All (
    let s := describing
    let bad := s.writeNat (0x1800 + 96) 8 1
    [issues s [.ctxnew 5 (plain 1)], composed s, ok? (s.readDesc 0x1800) (fun x => !x.2.newBad), ok? (s.readDesc 0x1800) (fun x => ok? (x.1.newNumber x.2) && ok? (x.1.childOf x.2)),
     ok? (ctxnewBody 0x1800 s) (fun r => r.1.isLive 7), issues bad [.ctxnew 5 (plain 1)], ok? (bad.readDesc 0x1800) (fun x => x.2.newBad)]) := by decide +kernel

theorem witness_contextGrants : All (
    let i := Instr.ctxgrant 5 (plain 1) (plain 2)
    let t (n : Nat) : State := among (BitVec.ofNat 64 n) 0x1800
    let reads (s : State) (bad : Bool) : Bool := issues s [i] && composed s && ok? (s.readDesc 0x1800) (fun x => x.2.grantBad == bad)
    [reads (t 1) false, ok? ((t 1).targetOf 1), ok? (ctxgrantBody 1 0x1800 (t 1)), reads (t 4) false, ((t 4).ctx 4).st = .saved, reads (t 5) false, ((t 5).ctx 5).busy,
     reads ((t 1).writeNat 0x1800 8 1) true]) := by decide +kernel

/-- A record at the head of the launch queue of context 1. -/
def launching : State :=
  { family with launches := [(40, { ctx := 1, gen := 0, addr := 0, entry := 0x1000, arg := 7, place := 0, wide := false, level := 0, order := 3, done := 0, quad := 0, seq := 0 })],
                launchFifo := [1], fresh := 41 }

theorem witness_dispatchers : All (
    let l : Launch := { ctx := 1, gen := 0, addr := 0, entry := 0x1000, arg := 7, place := 0, wide := false, level := 0, order := 3, done := 0, quad := 0, seq := 0 }
    let free := launching.setCore 7 { launching.core 7 with res := none }
    let r := free.readAll
    let t := launching.readAll
    [launching.dispatches 0, launching.dispatches 31 = false, (r.placeFirst (r.waitingHeads 0)).2, (t.placeFirst (t.waitingHeads 0)).2 = false, (tget free.launches 40).isSome,
     is? ((candidates (free.ctx 1) 3 (free.targetCluster 1 0 * 8) false).find? fun b => (nodeCores 3 b).all fun k => free.coreFor 40 l k != .busy)]) := by decide +kernel

theorem witness_crewStarts : All (
    let l : Launch := { ctx := 1, gen := 0, addr := 0, entry := 0x1000, arg := 7, place := 0, wide := false, level := 3, order := 3, done := 0, quad := 0, seq := 0, placed := some 0 }
    let s := { family with launches := [(40, l)], fresh := 41 }
    let r := { s with edge := true, cores := (List.range 8).map fun k => (k, { res := some 1, reserved := some 40 }) }
    [(tget s.launches 40) = some l, s.crewReady l 0 = false, s.edge = false, r.crewReady l 0, r.edge]) := by decide +kernel

/-- A state at a tick. -/
def ticking (tick : Nat) (s : State) : State := { s with tick := tick }

theorem witness_residency : All (
    let at' (tick : Nat) (s : State) : State := ticking tick s
    let slice (s : State) : State := at' 100000 (s.setCluster 0 { s.cluster 0 with slices := [(0, 0)] })
    let s := slice (launching.setCtx 1 { launching.ctx 1 with prio := (launching.ctx 0).prio })
    let pre := at' 10000 preempted
    let rival (s : State) : Bool := (s.cageCores (s.ctx 0) 0).any fun core => (s.contenders core).any fun m => m != 0 && (s.ctx m).prio == (s.ctx 0).prio
    [is? (tget (s.cluster 0).slices 0) fun t => decide (t + (s.ctx 0).slice.toNat ≤ s.tick), (s.ctx 0).slice ≠ 0, s.residentOn 0 0 ≠ [], !s.preempting 0 0,
     rival (slice { family with imgs := family.imgs ++ [(imgKey 7 1, (family.img 7 0))] }), !rival (slice one), (slice one).residentOn 0 0 ≠ [],
     is? (pre.preTick 0 0) fun t => decide (t + (pre.ctx 0).deadline.toNat ≤ pre.tick), pre.closingOn 0 0 = false,
     is? ((at' 9999 preempted).preTick 0 0) fun t => decide (9999 < t + (pre.ctx 0).deadline.toNat),
     let u := one.setCore 7 { one.core 7 with res := none }
     u.takeable 0 0 != [] && !u.closingOn 0 0, one.takeable 0 0 = []]) := by decide +kernel

theorem witness_timeBase : All [
    one.tickHeld = false, { one with clusters := [(0, { fills := [{ off := 0 }] })] }.tickHeld,
    is? ({ one with ctxs := tset one.ctxs 0 { one.ctx 0 with budget := 5 } }.charged 0), ((one.dieOf 0).level = 0), (one.dieOf 0).cyc % 5 = 0] := by decide +kernel

theorem witness_powerStates : All (
    let idle := { State.reset with ctxs := [(0, { servicesCtx with ltol := 0xFFFFFFFF })] }
    let gated : State := (List.range 9).foldl (fun s k => s.setCore k { s.core k with power := .gated }) idle
    let quiet : State := (List.range 16).foldl (fun s k => s.setCluster k { s.cluster k with power := .retention })
      { idle with ctxs := [(0, { servicesCtx with ltol := 0xFFFFFFFF, order := 9, chmap := -1, dmask := 1 })] }
    let deep : State := (List.range 4).foldl (fun s k => s.setQuad k { s.quad k with power := .deep }) quiet
    [(idle.core 7).power = .active, idle.coreBusy 7 = false, 2 ≤ idle.tolerance 0, (gated.cluster 0).power = .active, gated.clusterIdle 0, 200 ≤ gated.tolerance 0,
     (quiet.quad 0).power = .active, (List.range 16).all fun i => (quiet.cluster i).power == .retention && decide (5000 ≤ quiet.tolerance i) && !quiet.ingressTo i, (deep.dieOf 0).power = .active,
     deep.dieIdle 0, one.coreBusy 7, (gated.core 6).power ≠ .active, (quiet.cluster 0).power ≠ .active, (deep.quad 0).power ≠ .active,
     ((deep.setDie 0 { deep.dieOf 0 with power := .parked }).dieOf 0).power ≠ .active]) := by decide +kernel

theorem witness_throttling : All (
    let at' (l t : BitVec 4) (r : Option Nat) : State := { one.setDie 7 { one.dieOf 7 with level := l, target := t, lastRec := r } with tick := 1000000 }
    [7 < one.dies, ((3 : Byte)).toNat ≤ 3, ((at' 2 2 none).dieOf 7).level = ((at' 2 2 none).dieOf 7).target, ((at' 15 0 none).dieOf 7).target.toNat < 15, ((at' 0 15 (some 0)).dieOf 7).lastRec = some 0,
     0 + 1000000 ≤ (at' 0 15 (some 0)).tick, !decide (1 + 1000000 ≤ (at' 0 15 (some 1)).tick), ((at' 1 2 none).dieOf 7).level ≠ 0]) := by decide +kernel

/-- An overman with a packet that waits for queue 2, behind one for a queue without room. -/
def faulted : State :=
  let s := { one with queues := tset one.queues 3 { ring := [0x1FFE0003000], cap := 3, count := 1, t := 1 } }
  let p : Packet := { ctx := 0, d1 := 1, pc := 2, d3 := 3, addr := 4, extra := 5, d6 := 6 }
  s.setQuad 0 { s.quad 0 with waiting := [(3, 0, p), (2, 0, p)] }

theorem witness_faultPackets : All [
    (faulted.quad 0).waiting.length = 2, is? (tget faulted.queues 3) fun q => !decide (q.count + 8 ≤ 2 ^ q.cap), is? (tget faulted.queues 2) fun q => decide (q.count + 8 ≤ 2 ^ q.cap),
    (one.quad 0).waiting = []] := by decide +kernel

/-- A store to an overman's area. -/
def debugging (off : Nat) (v : DWord) (s : State := one) : State :=
  { s with stores := [(30, { who := s.who, t := .overman 0 off, op := .bytes (toBytes 8 v.toNat), md := .ef, ord := 30 })], fresh := 31 }

theorem witness_acceptTable : All [
    is? (tget (debugging 0 5).stores 30) fun p => !p.granted && !(debugging 0 5).storeHeld 30 p && (debugging 0 5).isLive 0,
    is? (tget (debugging 0x7FF8 5).stores 30) fun p => !(debugging 0x7FF8 5).storeHeld 30 p && !(debugging 0x7FF8 5).isLive 4095] := by decide +kernel

theorem witness_debugCommands : All (
    let frozen := one.setMyFibre { one.myFibre with st := .frozen }
    let owed := inFlight frozen (.x 5)
    let at' (o : Nat) (v : DWord) (s : State) := debugging (0x400000 + 7 * 0x10000 + o) v s
    let ready (s : State) : Bool := is? (tget s.stores 30) fun p => !p.granted && !s.storeHeld 30 p
    let sees (s : State) : Bool := is? (s.debugView 7 0) fun n => n == 0 && ((s.img 7 n).fibre 0).st == .frozen && !((s.img 7 n).fibre 0).retiring
    [ready (at' 0x8808 0x100 frozen), sees (at' 0x8808 0x100 frozen), ready (at' 0x8808 0x200 frozen), ((frozen.setCore 7 { frozen.core 7 with refused := false }).producer 7 0 0).isNone,
     is? ((owed.setCore 7 { owed.core 7 with refused := false }).producer 7 0 0), ready (at' 0x8808 0x100 one) && !sees (at' 0x8808 0x100 one), ready (at' 8 5 frozen),
     is? (mirrorRule 8) fun r => r.1 == 0 && r.2 != 0, ready (at' 0x8800 7 one), ready (at' 0x8810 7 one), ready (at' 8 5 one) && is? (one.debugView 7 0),
     let s := (within 1 0 0).setCore 7 { (within 1 0 0).core 7 with sel := 2 }
     (s.debugView 7 6).isNone]) := by decide +kernel

theorem witness_retiredEntries : All (
    let f := one.setMyFibre { one.myFibre with st := .frozen, retiring := true }
    [one.imgs.all fun p => (p.2.fibre 0).st != .frozen, f.imgs.any fun p => p.1 / 4096 == 7 && (p.2.fibre 0).st == .frozen && (p.2.fibre 0).retiring && (f.producer 7 (p.1 % 4096) 0).isNone]) := by
  decide +kernel

theorem witness_errorLog : All (
    let r : ErrRec := { sev := 0, unit := 0, loc := 0, seq := 0, tick := 0, wh := 0, ctx := 0, syn := 0, fclass := 0, action := 0, count := 0 }
    [({ held := [r], total := 1022 } : ErrLog).unread = 1022, 1023 ≤ ({ held := [r], total := 1023 } : ErrLog).unread, one.log.held.isEmpty, one.boot.mode = 0]) := by decide +kernel

/-! ### States that meet the hypotheses of the statements: the edges, resets, start-up and the step -/

/-- Virtual functions 0 and 513 are bound to context 0. -/
def hosted : State := { one with vfs := [(0, { bind := 0x8000000000000000 }), (513, { bind := 0x8000000000000001, winbase := 0x1000000000 })] }

theorem witness_hostRegisters : All [one.boot.mode = 0, (hosted.bound 0).isSome, one.isLive 0, (one.ctx 0).part] := by decide +kernel

theorem witness_virtualFunctions : All [
    one.boot.mode = 0, hosted.bound 0 = some 0, one.bound 0 = none, hosted.bound 1023 = none, (hosted.ctx 0).part, is? (hosted.enqueue (hosted.ctx 0).lq 7),
    let s := { hosted with queues := tset hosted.queues 0 { ring := [0x1FFDFFFE000], cap := 9, count := 512, t := 512, launchOf := some 0 } }
    (s.enqueue (s.ctx 0).lq 7).isNone && !s.tailOwned (s.ctx 0).lq, hosted.vfs.any fun p => p.1 != 1 && p.2.bind == 0x8000000000000000,
    (lineHeldAt 0x1FFDFFFE000 hosted).tailOwned ((lineHeldAt 0x1FFDFFFE000 hosted).ctx 0).lq && (lineHeldAt 0x1FFDFFFE000 hosted).bound 0 == some 0] := by decide +kernel

theorem witness_hostWindow : All (
    let a (off : Nat) : DWord := (hosted.vf 0).winbase + BitVec.ofNat 64 off
    [hosted.boot.mode = 0, hosted.bound 0 = some 0, is? (hosted.barTargets 0 .load (a 0x1800) 16).2, is? (hosted.barTargets 0 .store (a 0x1800) 16).2, 0xFFFFFFFF8 + 8 ≤ 2 ^ 36,
     let s := hosted.setVf 0 { hosted.vf 0 with winbase := 0x2000000000 }
     (s.barTargets 0 .load ((s.vf 0).winbase) 8).2.isNone && (s.barTargets 0 .store ((s.vf 0).winbase) 8).2.isNone && s.bound 0 == some 0]) := by decide +kernel

/-- A page-request record of a fibre of context 0. -/
def pageRec (sent : Option Nat) : PageRec := { group := 3, rid := 0, page := 5, sent := sent, joined := [one.who], copies := [] }
def requested (r : PageRec) (tick : Nat) (up : Bool := true) (alloc : Nat := 512) : State :=
  { one.setHost 0 { one.host 0 with recs := [r], up := up, alloc := alloc } with tick := tick }

theorem witness_pageRequests : All (
    let late (s : State) (r : PageRec) : Bool := is? r.sent fun t => (s.host 0).prtime != 0 && decide (t + (s.host 0).prtime.toNat < s.tick)
    let r := pageRec (some 0)
    [(pageRec none).joined ≠ [], ((requested (pageRec none) 0).host 0).up, ((requested (pageRec none) 0 false).host 0).up = false, min ((requested (pageRec none) 0 true 0).host 0).alloc 512 = 0,
     late (requested r 100000001) r, !late (requested r 100000000) r, (requested r 0).recLive r, (requested r 0).recLive { r with joined := [{ one.who with gen := 7 }] } = false,
     ((requested (pageRec none) 0).host 0).recs.all fun x => x.sent.isNone, (one.host 1).recs.isEmpty]) := by decide +kernel

theorem witness_hostPages : All (
    let ask : Ask := { who := one.who, page := 5 }
    let s (up : Bool) (stopped : List Nat) (recs : List PageRec) : State := one.setHost 0 { one.host 0 with asking := [ask], up := up, stopped := stopped, recs := recs }
    let q := one.requester 0 0
    [(one.host 0).asking.isEmpty, ((s true [] []).host 0).asking.any fun x => x.page == 5, ((s false [] []).host 0).up = false, q = 1024, ((s true [q] []).host 0).stopped.contains q,
     ((s true [] [{ (pageRec none) with rid := q, successes := 4, joined := [] }]).host 0).recs.any fun r => r.rid == q && r.page == 5 && decide (4 ≤ r.successes) && r.joined.isEmpty && r.copies.isEmpty,
     (s true [] []).usesPage 0 5 = false,
     let p : Parking := { entry := 0, uid := one.myFibre.uid, dva := 0x5000, access := 0, level := 0, pc := 0x1000, word := 0, other := 0, started := true }
     is? (one.parkAsk one.who p) && (one.parkAsk one.who { p with pc := 0x2000 }).isNone,
     { one with stores := [(30, { who := one.who, t := .host 0 (5 * 4096), op := .bytes [1], md := .ef })] }.usesPage 0 5]) := by decide +kernel

theorem witness_hostLink : All [
    (one.host 0).up, (one.setHost 1 { one.host 1 with up := false }).host 1 |>.up |> not,
    let p : PStore := { who := one.who, t := .host 0 0x5000, op := .bytes [1], md := .ef }
    !p.granted && p.laneOf.isNone && { p with granted := true }.granted] := by decide +kernel

/-- A request for a partition on clusters 8 to 15 with one channel. -/
def creating : MgmtCreate :=
  { running := true, shoff := 0, shlen := 188, cageoff := 6016, order := 6, base := 64, prio := 7, scap := 5, deadline := 10000, slice := 100000, budget := -1, trest := false,
    ptroot := 0, seed := 0, dmask := 1, ltol := 0, chmap := 0x100, svarea := 0x60000000, lqring := 0x10000000000000, lqcap := 9, dqring := 0x10000000001000, dqcap := 9,
    fq := some (0x10000000002000, 9), ranges := [{ base := 0x10000000000000, limit := 0x10000000010000, target := 0x10000000000000, dt := false, scrub := false, rights := 0x3F }], rights := [] }

theorem witness_managementCreates : All (
    let c := mgmtCtx creating
    [one.boot.mode = 0, one.mgmtOk c, (tget one.ctxs 1).isNone, (tget one.ctxs 0).isSome, one.partitions.all fun m => (one.ctx m).pno.toNat == 0,
     is? (one.mgmtQueues 1 { c with gen := 0, pno := 1 } creating), (mgmtCtx { creating with order := 5 }).order.toNat < 6, (mgmtCtx { creating with base := 65 }).base.toNat % 2 ^ 6 ≠ 0,
     512 * one.dies < (mgmtCtx { creating with base := 4032, order := 7 }).base.toNat + 2 ^ 7, one.mgmtOk (mgmtCtx { creating with order := 5 }) = false,
     let t := one.setCtx 0 { one.ctx 0 with chmap := 0x100, dmask := 1 }
     t.partitions.any fun m => (channelSet (t.ctx m)).any fun ch => (channelSet c).contains ch]) := by decide +kernel

theorem witness_management : All (
    let e : Range := { base := 0x10000000020000, limit := 0x10000000030000, target := 0x10000000020000, dt := false, scrub := false, rights := 0x3F }
    let rs (e : Range) := sortBy (fun r => r.base.toNat) (e :: (one.ctx 0).ranges)
    [one.boot.mode = 0, one.isLive 0, (one.ctx 0).depth = 0, one.isLive 1 = false, tableOk (one.ctx 0) (rs e), tableOk (one.ctx 0) (rs { e with base := 0x10000000010000 }) = false,
     { one with boot := { one.boot with mode := 2 } }.boot.mode ≠ 0]) := by decide +kernel

/-- Fabric port 3 with its link as given. -/
def linkedBy (l : PLink) : State := one.setPort 3 { one.port 3 with link := l }

theorem witness_linkFlits : All (
    let f (seq : BitVec 12) (n : Nat) : HeldFlit := { seq := seq, pkt := 40, out := true, replays := List.replicate n 0 }
    let l : PLink := { buffer := [f 6 0, f 7 15], wantReplay := true }
    [one.hasLink (.port 127), one.hasLink (.die 7), one.hasLink (.port 128) = false, ((linkedBy { state := 1 }).link (.port 3)).state = 1, ((linkedBy l).link (.port 3)).buffer = [f 6 0] ++ f 7 15 :: [],
     l.buffer.all fun x => x.seq != 5, ((linkedBy l).link (.port 3)).wantReplay, l.buffer.any fun x => ((x.replays.filter fun t => decide (0 < t + 100000)) ++ [0]).length == 16,
     ({ l with buffer := [f 6 0] } : PLink).buffer.all fun x => decide ((x.replays ++ [0]).length < 16), ({} : PLink).wantReplay = false]) := by
  decide +kernel

theorem witness_linkRetrains : All (
    let at' (n : LinkName) (l : PLink) (f : PLink → Bool) : Bool := f ((one.setLink n l).link n)
    [at' (.port 3) { state := 1, failures := 2, lanes := 2 } fun l => l.state == 1 && l.failures == 2 && l.lanes == 2, at' (.port 3) { state := 1, failures := 3 } fun l => l.failures == 3,
     at' (.port 3) { state := 1, lanes := 1 } fun l => l.lanes == 1, at' (.die 7) { state := 1 } fun l => !l.spareUsed, at' (.die 7) { state := 1, spareUsed := true } fun l => l.spareUsed,
     (one.link (.port 3)).state ≠ 1]) := by decide +kernel

theorem witness_linkStatus : All [one.hasLink (.port 127), one.boot.mode = 0, ((linkedBy { state := 0 }).link (.port 3)).state = 0, (one.link (.port 3)).state ≠ 0] := by decide +kernel

/-- Port 3 switched to a ring of one 128-byte slot at 0x1000 of cluster 0, its fill word at 0x2000, with frames on their way. -/
def ingestBlock : Vector DWord 4 := #v[0x8007005000000000, 0x0000100000000001, 0x200, 0]
def switched (frames : List Frame) (tick : Nat) : State := { one.setPort 3 { ing := ingestBlock, frames := frames, link := { state := 4 } } with tick := tick }

theorem witness_frames : All (
    let f : Frame := { seq := 0, data := [1, 2], bad := false, tick := 0 }
    [(one.port 127).ing[0].getLsbD 63 = false && (one.port 127).link.state == 2, ((switched [] 0).port 3).ing[0].getLsbD 63, (switched [] 0).named 0 = some 0, ((switched [] 0).ctx 0).st = .running,
     ((switched [] 0).port 3).link.state = 4 && ({} : PLink).carries && !({ state := 1 } : PLink).carries, (switched [f] 38).ports.contains (3, (switched [f] 38).port 3),
     let c := one.setPort 3 { ing := ingestBlock, cut := some 0, link := { state := 0 } }
     (c.port 3).cut == some c.tick && (c.port 3).link.state != 4 && ({ c with tick := 1 }.port 3).cut != some 1,
     ((switched [f] 38).port 3).frames.all fun f => decide (f.tick + 38 ≤ (switched [f] 38).tick), decide ((switched [f] 37).tick < 0 + 38), one.named 1 = none,
     ((counted 1 0).cluster 0).fills ≠ []]) := by decide +kernel

theorem witness_ingestBlocks : All [
    one.boot.mode = 0, (one.port 127).ing[0].getLsbD 63 = false, ((switched [] 0).port 3).ing[0].getLsbD 63, ((0x8007005000000000 : DWord)) &&& 0x3FF00000FFFFFFFF = 0,
    (1 : DWord) &&& 0x3FF00000FFFFFFFF ≠ 0, ((0x0000100000000001 : DWord)) &&& 0xFFF00000FFFF0000 = 0, (0xFFFF : DWord) &&& 0xFFFFFFFFFFFF0000 = 0, one.ingestOk 3 ingestBlock,
    one.ingestOk 3 (ingestBlock.set 0 0x8006005000000000) = false] := by decide +kernel

/-- An export of the page at DVA 0x1000, offsets 0x800 to 0x900. -/
def exporting (st : CState) : State := { one.setCtx 0 { one.ctx 0 with st := st } with exports := [(0, { d0 := 0xC000000000000000, d1 := 0x800, d2 := 0x900, d3 := 0x1800 })] }

/-- The places of a push to 0x1800 pass their checks, in a state that they leave. -/
def pushes (s : State) (p : State → List Target → Bool) : Bool := ok? (s.pushPlaces 0 0x1800 8).2 fun ts => p (s.pushPlaces 0 0x1800 8).1 ts

theorem witness_peers : All [
    is? ((exporting .running).pushExport 0x800), is? ((exporting .running).pushExport 0x8FF), ((exporting .running).pushExport 0x900).isNone, pushes (exporting .running) fun s ts => !s.anyOwned ts && !s.pushAdmits ts,
    !((exporting .running).resetting.contains ((one.ctx (one.partitionOf 0)).pno.toNat)),
    ((exporting .created).ctx 0).st = .created,
    let s := { exporting .running with exports := [(0, { d0 := 0xC000000000000000, d1 := 0x800, d2 := 0x900, d3 := 0x2000000000 })] }
    is? (s.pushExport 0x800) && no? (s.pushPlaces 0 0x2000000000 8).2] := by decide +kernel

theorem witness_softErrorHandling : All (
    let x : Site := .spad 0 0x1000
    let worn := one.setHardLoc { site := siteKey x, ticks := List.replicate 15 0, count := 15 }
    [siteOk x, (worn.hardLoc x).ticks.length = 15, (worn.hardLoc x).hard = false, is? (siteCluster x), siteUnit x = 0x08, siteOk (.core 7 0x05 3), siteUnit (.core 7 0x05 3) = 0x05, one.owners (.core 7 1 0) ≠ [],
     let again := one.setHardLoc { site := siteKey x, ticks := [], failed := true, rewritten := true }
     (again.hardLoc x).failed && again.rewrittenAt (again.hardLoc x) && !(again.hardLoc x).hard,
     one.owners (.spad 511 0x1000) = [], Inv one, is? (sitePlace (.spad 511 0x1000)), siteOk (.queue 0 0), one.owners (.core 7 1 0) = [0], ((one.ctx 0).pno.toNat ∉ one.resetting)]) := by decide +kernel

/-- A partition that is due to be reset, its one range scrubbed, with bytes in its range, its share and elsewhere. -/
def scrubbing : State :=
  let s := one.setCtx 0 { one.ctx 0 with ranges := (one.ctx 0).ranges.map fun r => { r with scrub := true } }
  { (s.writeNat (spadPlace 0 0x1000) 8 7).writeNat 0x30000 8 9 with resetting := [0] }

/-- The reset halts the core, clears the range and the share, and leaves what lies beyond. -/
theorem test_partitionReset : steps (exec (.partitionReset { part := 0, failed := [] }) scrubbing) (fun t =>
    (t.core 7).res.isNone && t.byte 0x1000 == 0 && t.byte (spadPlace 0 0x1000) == 0 && t.byte 0x30000 == 9 && t.imgs.isEmpty && t.resetting.isEmpty) = true := by decide +kernel

theorem witness_partitionResets : All [
    one.resetting = [], { one with resetting := [0] }.resetting.contains 0, { one with resetting := [0] }.partitions.find? (fun k => (one.ctx k).pno.toNat == 0) = some 0,
    one.partitions.find? (fun k => (one.ctx k).pno.toNat == 63) = none, Inv one, !(one.ctx 0).trest, one.imgs.all fun x => x.2.ops.isEmpty, one.launches.isEmpty,
    one.lost.isEmpty, (one.ctx 0).shlen ≠ 0 && inTier1 0x1800, scrubbing.resetting.contains 0 && ((scrubbing.ctx 0).ranges.any fun r => r.scrub && r.target.getLsbD 52 && !r.target.getLsbD 51)] := by decide +kernel

theorem witness_restartPoints : All (
    let s (tick : Nat) : State := { one.setCtx 0 { one.ctx 0 with trest := true } with tick := tick, rareas := [(0, (0x10000100000000, 0x10000000))] }
    [(s 10000000).restartRoot 0, (s 10000000).interval ((s 0).partitionOf 0) ≤ 10000000, ((s 0).ctx 0).st = .running, (s 10000000).settled ((s 0).restartSet 0), one.restartRoot 0 = false,
     !decide ((s 0).interval ((s 0).partitionOf 0) ≤ (s 9999999).tick),
     (s 0).partitionOf 0 = 0, (4096 * (s 0).imageBlocks 0) ≤ 0x10000000, one.rareas.isEmpty, 0 < (s 0).imageBlocks 0]) := by decide +kernel

/-- A function-level reset of function 0 whose other steps come at the end of a tick. -/
def flrPending (tick : Nat) : State := { hosted with flrs := [{ vf := 0, ctx := 0, gen := 0, tick := 0, held := [], torn := [] }], tick := tick }

theorem witness_functionResets : All [
    one.bound 1023 = none, hosted.bound 0 = some 0, (hosted.ctx (hosted.partitionOf 0)).pno.toNat ∉ hosted.resetting, hosted.flrs.isEmpty,
    hosted.imgs.all (fun x => x.2.ops.isEmpty) && (hosted.core 7).res == some 0 && (hosted.subtree 0).contains 0, (flrPending 0).flrs.all fun f => f.vf == 0 && decide ((flrPending 0).tick ≤ f.tick),
    (flrPending 1).flrs.all fun f => f.vf == 0 && decide (f.tick < (flrPending 1).tick), (flrPending 1).isLive 0 && ((flrPending 1).ctx 0).gen == 0,
    { flrPending 1 with ctxs := [] }.isLive 0 = false, let r := { hosted with resetting := [0] }; r.resetting.contains (r.ctx (r.partitionOf 0)).pno.toNat && r.flrs.isEmpty] := by decide +kernel

/-- What a start-up meets. -/
def boots (f : BootInput → BootInput) : BootInput :=
  f { rootOk := true, flashOk := true, cut := false, sigOk := true, svn := 1, version := 2, measureOk := true, selfOk := 0xFF, hbmOk := 0xFF, timeOk := true, zeroOk := true, spares := [5],
      fq := some (0x10000000002000, 9) }

theorem witness_startUp : All (
    let rec' := { one with boot := { one.boot with mode := 1 } }
    [(boots fun b => { b with rootOk := false }).rootOk = false, one.boot.flash.valid, (boots fun b => { b with cut := true }).cut, !(boots id).cut, (boots id).rootOk && (boots id).flashOk && (boots id).sigOk && (boots id).measureOk,
     one.boot.minSvn.toNat ≤ (boots id).svn.toNat, (boots fun b => { b with svn := 0 }).svn.toNat < ({ one.boot with minSvn := 1 } : Boot).minSvn.toNat, rec'.boot.mode = 1, one.boot.mode ≠ 1]) := by
  decide +kernel

theorem witness_trustDie : All [one.boot.mode = 0, one.boot.step = 7, ({ one.boot with step := 6 } : Boot).step ≠ 7, one.log.unread < 1023] := by decide +kernel

theorem witness_stepRunsDecoded : All (
    let i := Instr.addi 5 (plain 5) 1
    let w := encode true i
    let s : State := State.reset.withFetchWord 32 w.toNat
    let rest : State := { s with agenda := [] }
    let t := rest.wake 7 0
    let u : UnitCtx := { core := 7, ctx := 0, entry := 0, pc := 0x1000, unitEnd := 0x1004 }
    let p := State.reset.withFetchWord 32 (encode false (.kand 0 0 0)).toNat
    let halted := { one with boot := { one.boot with mode := 2 } }
    let bad := State.reset.withFetchWord 32 0xFFFFFFFF
    let unmapped' := { s.setImg 7 0 ((s.img 7 0).setFibre 0 { (s.img 7 0).fibre 0 with pc := 0x2000000000 }) with agenda := [] }
    [s.boot.mode = 0, s.agenda = .core 7 :: [], (rest.core 7).res = some 0, (rest.core 7).power = .active, rest.closingOn 0 0 = false, rest.issuing 7 = some 0, t.selectOrder 7 0 = 0 :: [],
     ok? (t.fetchWord 7 0 0x1000) fun x => x.2 == w && !({ x.1 with unit := { u with word := w } }.heldBack i), wLone w, (decodeWord w matches .ok _),
     ok? (p.fetchWord 7 0 0x1000) (fun x => !x.2.getLsbD 31 && !x.2.getLsbD 30 && (decodeWord x.2 matches .ok _) && ok? (x.1.fetchWord 7 0 0x1004) fun y =>
       !y.2.getLsbD 31 && y.2.getLsbD 30 && (decodeWord y.2 matches .ok _)), ok? (bad.fetchWord 7 0 0x1000) fun x => x.2.getLsbD 31 && (decodeWord x.2 matches .error _),
     no? (unmapped'.fetchWord 7 0 0x2000000000), Instr.namedStep .timeBaseTick, halted.boot.mode ≠ 0, halted.agenda = [], startsUp .timeBaseTick = false]) := by decide +kernel

theorem witness_encodeDecode : (Instr.add 31 ⟨31, true⟩ ⟨31, true⟩ true).wf = true := by decide

theorem witness_decodeEncode : decodeWord 0x81298745#32 = .ok (.div 5 (plain 6) (plain 7) true) := by rfl

/-- A state in which the memory lists bytes, and a step of it. -/
theorem witness_stepKeepsInvariant : All [Inv (State.reset.withFetchWord 32 0x81298745), steps (step (State.reset.withFetchWord 32 0x81298745)) fun t => Inv t] := by decide +kernel

theorem witness_copyGuardsLast : All (
    let is : List Instr := [.copy 1 (plain 2) (plain 3) .cl, .copym 1 (plain 2) (plain 3) .cl]
    let checks (s : State) (p : List (Nat × Nat × Target) → List (Nat × Nat × Target) → Bool) : Bool :=
      let d := s.xVal 1
      let n := (copyParam (s.xVal 3)).length
      issues s is && n != 0 && oneKind (s.xVal 2) n && oneKind d n && CopyForm.plain.srcOk 0 (s.xVal 2) && CopyForm.plain.dstOk 0 d && CopyForm.multi.dstOk 0 d &&
      ok? (s.rangePieces .copySrc (s.xVal 2) n false 0 (n / 128 + 2)) fun a => ok? (a.1.rangePieces .copyDst d n false 0 (n / 128 + 2)) fun b => p a.2.1 b.2.1
    let near : DWord := 0x0080000000000000 + 80 * 2 ^ 24
    let word := copying (spad 0x2000) (spad 0x1000) (300 + 2 ^ 47 + 0xFFFF * 2 ^ 48)
    let many := copying (near + 0x2000) (spad 0x1000) (300 + 2 ^ 32)
    let both := wide (copying (near + 0x1010) (spad 0x1000) (300 + 2 ^ 32))
    [checks word (fun _ _ => no? (word.fillWord 7 0 (spadAddr 0 (copyParam (word.xVal 3)).fwoff) 1)),
     checks many (fun _ _ => is? (copymBad many.myCtx [0, 1] 0x2000 300)),
     checks both (fun a b => (copymBad both.myCtx [0, 1] 0x1010 300).isNone && is? (overlapAt a (b.map fun x => (x.1, x.2.1, inCluster 0 x.2.2))))]) := by decide +kernel

/-- A `ctxstop` of context 1 under way, at a core where that context is resident and at one where it is not. -/
def stopped1 (blk : Nat) (asked : Bool) : State :=
  let o : LongOp := { word := BitVec.ofNat 64 (2 ^ 63 + 2 ^ 60 + 2 ^ 45 + blk), image := 0, uid := 1 }
  let s := (within 1 0 0).setCore 6 { family.core 6 with res := some 0 }
  let s := (s.setImg 6 0 { s.img 7 0 with ops := [o] }).setCtx 1 { s.ctx 1 with stopping := true, busy := true }
  if asked then s.stopOn [1] 7 else s

theorem witness_longOperationBlocks : All (
    let out (s : State) (p : Option Machine.Block → Bool) : Bool :=
      (s.issuing 6 == some 0) && match (s.img 6 0).ops with
        | [o] => s.isLive 1 && s.isBelow 1 0 && p ((s.opBlock 6 0 o).map Prod.snd)
        | _ => false
    [out (stopped1 0 false) (· == some .done), out (stopped1 7 false) (· == some .more), out (stopped1 7 true) (· == none),
     out ((stopped1 7 false).setCore 7 { family.core 7 with res := none }) (· == some .last)]) := by decide +kernel

theorem witness_busyTargets : All (
    let s := { among 2 0 with ctxs := tset (among 2 0).ctxs 2 { (among 2 0).ctx 2 with busy := true } }
    [issues s [.ctxstart 5 (plain 1), .ctxsave 5 (plain 1) (plain 2) 7] && composed s && ok? (s.targetOf 2), (s.ctx 2).st = .stopped, (s.ctx 1).st = .running,
     (s.partDies 2).all fun d => !s.dieFailed d]) := by decide +kernel

/-- A copy owns the line at 0x1800 of the mapped page; an access that the page table's entry has admitted is not yet performed. -/
def lineHeld (s : State) : State := lineHeldAt 0x1800 s
def admitted (s : State) : State := { s with stores := [(40, { who := s.who, t := .mem 0x1900, op := .bytes [1], md := .ef, ord := 40, adm := { ptes := [0x1800] } })], fresh := 41 }

theorem witness_hostWindowHeld : All (
    let a : DWord := (hosted.vf 0).winbase + 0x1800
    let bar (s : State) (k : AccKind) (p : State → List Target → Bool) : Bool := is? (s.barTargets 0 k a 8).2 fun ts => p (s.barTargets 0 k a 8).1 ts
    [bar (lineHeld hosted) .load fun s ts => s.anyOwned ts, bar (lineHeld hosted) .store fun s ts => s.anyOwned ts, bar (admitted hosted) .store fun s ts => !s.anyOwned ts && s.pushAdmits ts,
     bar hosted .store fun s ts => !s.anyOwned ts && !s.pushAdmits ts, bar hosted .load fun s ts => !s.anyOwned ts]) := by decide +kernel

theorem witness_peersHeld : All (
    [pushes (lineHeld (exporting .running)) fun s ts => s.anyOwned ts, pushes (admitted (exporting .running)) fun s ts => !s.anyOwned ts && s.pushAdmits ts,
     let r := { exporting .running with resetting := [((one.ctx (one.partitionOf 0)).pno.toNat)] }
     is? (r.pushExport 0x800) && r.resetting.contains ((r.ctx (r.partitionOf 0)).pno.toNat)]) := by decide +kernel

theorem witness_framesOfNone : All (
    let f : Frame := { seq := 0, data := [1, 2], bad := false, tick := 0 }
    let n : State := { one.setPort 3 { ing := ingestBlock.set 3 7, frames := [f], link := { state := 4 } } with tick := 38 }
    [3 < 16 * one.dies, (n.named 7).isNone && (n.port 3).ing[0].getLsbD 63 && (n.port 3).link.state == 4]) := by decide +kernel

theorem witness_restartPointPhases : All (
    let s : State := { one.setCtx 0 { one.ctx 0 with trest := true } with tick := 10000000, rareas := [(0, (0x10000100000000, 0x10000000))] }
    let ns := s.restartSet 0
    let p := s.pauseAll ns
    let off := p.setCore 7 { p.core 7 with res := none }
    let due (t : State) : Bool := t.restartRoot 0 && t.rpoints.isEmpty && decide (t.interval (t.partitionOf 0) ≤ t.tick) && ((t.ctx 0).st == .running) && (t.restartSet 0).all fun k => !(t.ctx k).busy && !(t.ctx k).stopping
    let runs (t : State) : Bool := (t.restartSet 0).any fun k => (t.ctx k).st == .running && !(t.ctx k).pausing
    [due s && runs s, due p && !runs p && !p.offCores ns, due off && !runs off && off.offCores ns && off.settled ns]) := by decide +kernel

theorem witness_startUpSpares : All (
    let b := boots id
    [b.spares.all fun q => decide (q < 32), (boots fun b => { b with fq := none }).fq.isNone,
     steps (exec (.moduleReset b) one) fun t => t.boot.mode == 0 && (t.quad 5).spareUsed && (t.ctx 0).fq == some 2]) := by decide +kernel

theorem witness_crewAtEdge : All (
    let l : Launch := { ctx := 1, gen := 0, addr := 0, entry := 0x1000, arg := 7, place := 0, wide := false, level := 3, order := 3, done := 0, quad := 0, seq := 0, placed := some 0 }
    let s : State := { family with launches := [(40, l)], fresh := 41, edge := true, cores := (List.range 8).map fun k => (k, { res := some 1, reserved := some 40 }) }
    [s.boot.mode = 0, s.atEdge = some (.crewStart 40), (State.reset.withFetchWord 32 0).atEdge = none]) := by decide +kernel

theorem witness_portResets : All (
    [(one.port 3).ing[0].getLsbD 63 = false, ((switched [] 0).port 3).ing[0].getLsbD 63,
     let s := one.setPort 3 { ing := ingestBlock.set 0 0 }
     s.ingestOk 3 ((s.port 3).ing.set 0 0x8007005000000000)]) := by decide +kernel

theorem witness_linkAsks : All (
    let l : PLink := { asks := List.replicate 15 0 }
    [((linkedBy l).link (.port 3)).asks.length = 15 && ((linkedBy l).link (.port 3)).state == 2]) := by decide +kernel

/-! ### States that meet the hypotheses of clauses about keys, places, guards and holds -/

/-- The family, with a line of the second tier under a key of no live partition. -/
def keyedFamily : State := { family with keyed := [(0x1800 / 128, 99)] }

theorem witness_lineKeys : All (
    let touched (n : Nat) : Bool := decide (128 * (0x1800 / 128) < 0x1800 + n) && decide (0x1800 < 128 * (0x1800 / 128) + 128)
    [Inv keyedFamily, inTier1 0x1800, inTier1 (2 ^ 41) = false, (keyedFamily.keyOf 0).isNone, is? (keyedFamily.keyOf 1) fun k => k != 99 && tget keyedFamily.keyed (0x1800 / 128) == some 99,
     touched 8, !touched 0, (tget keyedFamily.keyed (0x1880 / 128)).isNone,
     let k := (keyedFamily.keyOf 1).getD 0
     tget ({ family with keyed := [(0x1800 / 128, k)] }).keyed (0x1800 / 128) == some k]) := by decide +kernel

/-- A bundle at 0x1000 of the mapped page whose second word is as given, and the fibre at one of its words. -/
def bundled (pc : DWord) (w : Word) : State :=
  let s := State.reset.withFetchWord 32 (encode false (.kand 0 0 0)).toNat
  (s.setImg 7 0 ((s.img 7 0).setFibre 0 { (s.img 7 0).fibre 0 with pc := pc })).putBytes 0x1004 (toBytes 4 w.toNat)

theorem witness_misplacedWords : All (
    let first : Word := encode false (.addi 0 (plain 0) 0)
    let second : Word := encode false (.kand 0 0 0)
    let selects (s : State) : Bool := s.boot.mode == 0 && s.atEdge.isNone && (s.agenda == .core 7 :: []) && (s.issuing 7 == some 0) && ((s.wake 7 0).selectOrder 7 0 == 0 :: [])
    let begins (w : Word) : Bool := w != 0 && !w.getLsbD 31 && !w.getLsbD 30
    [selects (bundled 0x1004 second), ok? ((bundled 0x1004 second).fetchWord 7 0 0x1004) fun x => !x.2.getLsbD 31 && x.2.getLsbD 30,
     selects (bundled 0x1004 first), ok? ((bundled 0x1004 first).fetchWord 7 0 0x1004) fun x => begins x.2,
     selects (bundled 0x1000 0x81298745), ok? ((bundled 0x1000 0x81298745).fetchWord 7 0 0x1000) fun x => begins x.2 && ok? (x.1.fetchWord 7 0 0x1004) fun y =>
       y.2 != 0 && y.2 != 0xFFFFFFFF && y.2.getLsbD 31,
     ok? ((bundled 0x1000 first).fetchWord 7 0 0x1000) fun x => ok? (x.1.fetchWord 7 0 0x1004) fun y => y.2 != 0 && !y.2.getLsbD 30]) := by decide +kernel

theorem witness_descriptorGuards : All (
    let bad := describing.writeNat (0x1800 + 96) 8 1
    let grant := (among 1 0x1800).writeNat 0x1800 8 1
    [issues bad [.ctxnew 5 (plain 1)] && composed bad && no? (descGuard Desc.newBad 0x1800 bad) (fun x => x matches .stop _),
     issues grant [.ctxgrant 5 (plain 1) (plain 2)] && composed grant && no? (descGuard Desc.grantBad 0x1800 grant), ok? (descGuard Desc.newBad 0x1800 describing)]) := by decide +kernel

/-- A revocation of context 6, which has ended while a store of it is still to be seen at a die. -/
def revoking : State :=
  let o : LongOp := { word := BitVec.ofNat 64 (2 ^ 63 + 4 * 2 ^ 60 + 7 * 2 ^ 57 + 6 * 2 ^ 45), image := 0, uid := 1 }
  let p : PStore := { who := { family.who with ctx := 6 }, t := .mem 0x1800, op := .bytes [1], md := .ef, ord := 30, granted := true, gord := 31, stale := [1] }
  { family.setMe { family.me with ops := [o] } with ctxs := tset family.ctxs 6 { family.ctx 6 with st := .revoked }, stores := [(30, p)], fresh := 32 }

theorem witness_heldRevocation : All (
    let o (s : State) : LongOp := s.me.ops.headD { word := 0, image := 0, uid := 0 }
    let settled := { revoking with stores := [] }
    let named (s : State) : Bool := s.issuing 7 == some 0 && (o s).word.extractLsb' 45 12 == 6 && (s.ctx 6).gen == (o s).word.extractLsb' 29 16 && s.isBelow 6 0
    [named revoking && (o revoking).word.extractLsb' 60 3 == 4 && revoking.purging (revoking.revokedBelow 6), named settled && !settled.purging (settled.revokedBelow 6)]) := by decide +kernel

theorem witness_holds : All (
    let late := launching.putLate 0
    let t := late.readAll
    let ws := t.waitingHeads 0
    let held := (launching.setQuad 0 { launching.quad 0 with hold := some 40 })
    [launching.dispatches 0, (t.quad 0).hold.isNone, ws.length == 1, ws.all fun x => decide (x.2.seq < 2 ^ 64), (held.readAll.quad 0).hold == some 40 && held.dispatches 0]) := by decide +kernel

theorem witness_debugRefusals : All (
    let frozen := one.setMyFibre { one.myFibre with st := .frozen }
    let at' (o : Nat) (v : DWord) (s : State) := debugging (0x400000 + 7 * 0x10000 + o) v s
    let ready (s : State) : Bool := is? (tget s.stores 30) fun p => !p.granted && !s.storeHeld 30 p
    [ready (at' 0 5 frozen) && is? (mirrorRule 0) (fun r => r.1 == 0 && r.2 == 0), (List.range 0x1100).any fun k => (mirrorRule (8 * k)).isNone && ready (at' (8 * k) 5 frozen),
     is? (frozen.debugView 7 0), !faulted.ringOwned 2 1 8]) := by decide +kernel

/-! ### Single steps: values worked out by hand from the rules -/

/-- What x5 holds after an instruction. -/
def x5 (i : Instr) (s : State) (v : DWord) : Bool := steps (exec i s) fun t => t.xVal 5 == v

/-- The dword at a place. -/
def num (s : State) (a : Nat) : Nat := ofBytes (s.getBytes a 8)

/-- The state of the fibre, and its PC, after an instruction. -/
def leaves (i : Instr) (s : State) (st : FState) (pc : DWord) : Bool :=
  steps (exec i s) fun t => ((t.img 7 s.unit.ctx).fibre s.unit.entry).st == st && ((t.img 7 s.unit.ctx).fibre s.unit.entry).pc == pc

/-- R187, R188. -/
theorem test_integer : All [
    x5 (.add 5 (plain 1) (plain 2) false) (regs (-1) 1 0) 0, x5 (.add 5 (plain 1) (plain 2) true) (regs 0x7FFFFFFF 1 0) 0xFFFFFFFF80000000,
    x5 (.sub 5 (plain 1) (plain 2) false) (regs 0 1 0) (-1), x5 (.div 5 (plain 1) (plain 2) false) (regs 7 0 0) (-1),
    x5 (.div 5 (plain 1) (plain 2) false) (regs 0x8000000000000000 (-1) 0) 0x8000000000000000, x5 (.rem 5 (plain 1) (plain 2) false) (regs 0x8000000000000000 (-1) 0) 0,
    x5 (.rem 5 (plain 1) (plain 2) false) (regs (-7) 2 0) (-1), x5 (.remu 5 (plain 1) (plain 2) false) (regs 7 0 0) 7,
    x5 (.mulh 5 (plain 1) (plain 2)) (regs (-1) (-1) 0) 0, x5 (.mulhu 5 (plain 1) (plain 2)) (regs (-1) (-1) 0) 0xFFFFFFFFFFFFFFFE,
    x5 (.shl 5 (plain 1) (plain 2) false) (regs 1 65 0) 2, x5 (.sra 5 (plain 1) (plain 2) true) (regs 0x80000000 31 0) (-1),
    x5 (.adds 5 (plain 1) (plain 2)) (regs 0x7FFFFFFFFFFFFFFF 1 0) 0x7FFFFFFFFFFFFFFF, x5 (.subs 5 (plain 1) (plain 2)) (regs 0x8000000000000000 1 0) 0x8000000000000000,
    x5 (.min 5 (plain 1) (plain 2)) (regs (-1) 1 0) (-1), x5 (.minu 5 (plain 1) (plain 2)) (regs (-1) 1 0) 1, x5 (.clz 5 (plain 1)) (regs 0 0 0) 64,
    x5 (.ctz 5 (plain 1)) (regs 8 0 0) 3, x5 (.popc 5 (plain 1)) (regs 0xF0F 0 0) 8] := by decide +kernel

/-- R189 to R196. -/
theorem test_immediates : All [
    x5 (.li 5 1 0xBEEF) one 0xBEEF0000, x5 (.lik 5 3 0xBEEF) (one.writeX 5 1) 0xBEEF000000000001, x5 (.addi 5 (plain 1) 0x1FFF) (regs 5 0 0) 4,
    x5 (.shri 5 (plain 1) true 31) (regs 0x80000000 0 0) 1, x5 (.lea 5 (.index (plain 1) (plain 2) true)) (regs 0x100 8 0) 0x108,
    x5 (.csel 5 0 (plain 1) (plain 2)) (regs 3 4 0) 4, x5 (.cseln 5 0 (plain 1) (plain 2)) (regs 3 4 0) 3,
    steps (exec (.cmp 2 .lt .set (plain 1) (plain 2)) (regs (-1) 0 0)) (fun t => t.myFibre.pred == 4),
    steps (exec (.cmp 2 .ltu .set (plain 1) (plain 2)) (regs (-1) 0 0)) (fun t => t.myFibre.pred == 0),
    steps (exec (.pwr (plain 1)) (regs 0x1A5 0 0)) (fun t => t.myFibre.pred == 0xA5), x5 (.add 0 (plain 1) (plain 2) false) (regs 3 4 0) (one.xVal 5)] := by decide +kernel

/-- R197 to R201: a branch of −1 word, a link, a count of 0, and the last pass of a loop. -/
theorem test_control : All [
    leaves (.br 0x7FFFF) one .ready 0x0FFC, leaves (.jr (plain 1)) (regs 0x2000 0 0) .ready 0x2000, x5 (.callr 5 (plain 1)) (regs 0x2000 0 0) 0x1004,
    leaves (.bp 0 5) one .ready 0x1004, leaves (.bpn 0 5) one .ready 0x1014, leaves (.lpset0 0 3) one .ready 0x1010,
    steps (exec (.lpset0 3 3) one) (fun t => t.me.lc[0] == 3 && t.me.lb[0] == 0x1004 && t.me.le[0] == 0x100C), leaves .yield (looping 2 0) .ready 0x800,
    leaves .yield (looping 1 0) .ready 0x1004, leaves .yield (looping 5 2) .ready 0x900] := by decide +kernel

/-- R204 to R211, R381, R404: fibres that start, end, stop and fault; a packet waits at the overman. -/
theorem test_system : All [
    x5 (.spawn 5 (plain 1) 3) (regs 0x2000 0 0) 1, steps (exec (.spawn 5 (plain 1) 3) (regs 0x2000 7 0)) (fun t => ((t.img 7 0).fibre 1).x[1] == 7 && ((t.img 7 0).fibre 1).level == 3),
    leaves .exit (light 5 9) .free 0, leaves (.sys 5) one .frozen 0x1004, leaves (.brk 5) one .frozen 0x1000, leaves (.jr (plain 1)) (regs 0x2002 0 0) .frozen 0x1000,
    steps (exec (.sys 5) one) (fun t => (t.quad 0).waiting.map (fun w => (w.1, w.2.2.extra)) == [(2, 5)]), leaves (.kand 0 0 0) (light 5 9) .frozen 0x1000,
    leaves (.wfe 5 1) (asKind (light 5 9) 2) .frozen 0x1000, leaves (.wfe 5 1) one .waiting 0x1000] := by decide +kernel

/-- R175 to R178, R208: LID of core 7, FMT and FIBID after reset; a reserved bit of FCTL. -/
theorem test_specialRegisters : All [
    x5 (.mfs 5 0x010) one 0x38, x5 (.mfs 5 0x000) one 0x7F3330, x5 (.mfs 5 0x018) one 7, x5 (.mfs 5 0x008) (ticking 77 one) 77,
    steps (exec (.mts 0x001 (plain 1)) (regs 3 0 0)) (fun t => t.me.fctl == 3), leaves (.mts 0x001 (plain 1)) (regs 4 0 0) .frozen 0x1000,
    leaves (.mfs 5 0x1FFF) one .frozen 0x1000] := by decide +kernel

/-- R223 to R228: extension, byte order, alignment, and atomics in the own scratchpad. -/
theorem test_memory : All (
    let s := (own.writeNat (spadPlace 0 0x1000) 8 0x80FF)
    [x5 (.ldB 5 (.disp (plain 1) 0) .core) s (-1), x5 (.ldBu 5 (.disp (plain 1) 0) .core) s 0xFF, x5 (.ldH 5 (.disp (plain 1) 0) .core) s 0xFFFFFFFFFFFF80FF,
     x5 (.ldB 5 (.index (plain 1) (plain 2) true) .core) (own.writeNat (spadPlace 0 0x1002) 1 0x7F) 0x7F, leaves (.ldW 5 (.disp (plain 1) 0) .core) odd' .frozen 0x1000,
     leaves (.ldD 5 (.disp (plain 1) 0) .core) away .waiting 0x1004,
     steps (exec (.stW (.disp (plain 1) 1) (plain 3) .core .ef) (State.x3 own (spad 0x1000) 0 0x0102030405060708)) (fun t =>
       (List.range 9).map (fun k => t.byte (spadPlace 0 (0x1003 + k))) == [0, 8, 7, 6, 5, 0, 0, 0, 0]),
     x5 (.amo .min 5 (plain 1) (plain 2) .core) s 0x80FF,
     steps (exec (.amo .min 5 (plain 1) (plain 2) .core) (State.x3 s (spad 0x1000) (-1) 0)) (fun t => num t (spadPlace 0 0x1000) == 2 ^ 64 - 1),
     steps (exec (.cas 5 (plain 1) (plain 2) .core) (s.writeX 5 0x80FE)) (fun t => num t (spadPlace 0 0x1000) == 0x80FF && t.xVal 5 == 0x80FF),
     steps (exec (.cas 5 (plain 1) (plain 2) .core) (s.writeX 5 0x80FF)) (fun t => num t (spadPlace 0 0x1000) == 2)]) := by decide +kernel

/-- R232 to R238, R287 to R289. -/
theorem test_waits : All [
    x5 (.syncarr 5 (plain 1)) (filling 9) 9, x5 (.syncwait 5 (plain 1)) (filling 9) 9, leaves (.syncwait 5 (plain 1)) (filling 0) .waiting 0x1000,
    x5 (.waitany 5 0x80) (tokens one 0x8000) 7, x5 (.waitany 5 0x80) one 0x8000000000000000, leaves (.waitt 0x80) (tokens one 0x4000) .waiting 0x1000,
    leaves (.semwait 3) one .waiting 0x1000, steps (exec (.sempost 3 4) one) (fun t => (t.cluster 0).hs[3] == 5),
    steps (exec (.fillWordUpdate 0 0x1000) ((counted 7 1).writeNat (spadPlace 0 0x1000) 8 8)) (fun t => num t (spadPlace 0 0x1000) == 8 + 7 * 2 ^ 32 && num t (spadPlace 0 0x1008) == 2 ^ 16),
    steps (exec (.fillWordUpdate 0 0x1000) (((counted 7 1).writeNat (spadPlace 0 0x1000) 8 5).writeNat (spadPlace 0 0x1008) 8 1)) (fun t =>
      num t (spadPlace 0 0x1000) == 5 + 2 * 2 ^ 32 && num t (spadPlace 0 0x1008) == 1 + 2 ^ 32)] := by decide +kernel

/-- A state whose v8 and v7 are as given. -/
def lanes (a b : VWord) : State := one.setMe { one.me with v := (one.me.v.set 8 a).set 7 b }
/-- Lane 0, of width w, of v9 after an instruction. -/
def v9 (i : Instr) (s : State) (w : Nat) (v : Nat) : Bool := steps (exec i s) fun t => t.me.v[9].toNat % 2 ^ w == v

/-- R255 to R266: integer lanes wrap; floats round to nearest even; the canonical NaN; an infinity that divides by zero. -/
theorem test_lanes : All [
    v9 (.vadd 9 (plain 8) (plain 7) 0 .s8) (lanes 0x7F 1) 16 0x0080, v9 (.vsra 9 (plain 8) (plain 7) 0 .s8) (lanes 0x80 9) 8 0xC0, v9 (.vabs 9 (plain 8) 0 .s8) (lanes 0x80 0) 8 0x80,
    v9 (.vadd 9 (plain 8) (plain 7) 0 .f32) (lanes 0x3F800000 0x3F800000) 32 0x40000000, v9 (.vadd 9 (plain 8) (plain 7) 0 .f32) (lanes 0x4B800000 0x3F800000) 32 0x4B800000,
    v9 (.vdiv 9 (plain 8) (plain 7) 0 .f32) (lanes 0x3F800000 0) 32 0x7F800000, v9 (.vmul 9 (plain 8) (plain 7) 0 .f16) (lanes 0x4000 0x4200) 16 0x4600,
    v9 (.vmin 9 (plain 8) (plain 7) 0 .n8) (lanes 0xFF 1) 8 1, v9 (.vmin 9 (plain 8) (plain 7) 0 .s8) (lanes 0xFF 1) 8 0xFF, v9 (.vrsum 9 (plain 8) 0 .s32) (lanes 0x0000000300000004 0) 32 7,
    v9 (.vcvt 9 (plain 8) (plain 0) 0 9) (lanes 0x40200000 0) 32 2, v9 (.vfmaF32 9 (plain 8) (plain 8) (plain 8)) (lanes 0x40000000 0) 32 0x40C00000,
    x5 (.vmovx 5 (plain 8) .s8 1) (lanes 0x8000 0) 0xFFFFFFFFFFFFFF80, v9 (.vbcast 9 (plain 1) .s16) (State.x3 one 0x12345 0 0) 32 0x23452345,
    steps (exec (.vcmp .lt 3 (plain 8) (plain 7) 0 .s64) (lanes 1 2)) (fun t => t.me.k[3] == 1), x5 (.ktox 5 3) (one.setMe { one.me with k := one.me.k.set 3 0xFFFFFFFF }) 0xFFFFFFFF] := by
  decide +kernel

/-- R239 to R251, R268 to R283, R296 to R314: one step of each engine's instruction. -/
theorem test_engines : All [
    steps (exec (.qpop 5 2 true) (qregs one { dir := 2, qid := 3, buf := [41, 42] } {})) (fun t => !t.xFull 5 &&
      steps (exec (.answerArrival one.fresh .here) t) fun u => u.xFull 5 && u.xVal 5 == 41 && (u.me.qreg[0]).buf == [42]), leaves (.qpop 5 0 true) one .frozen 0x1000, leaves (.qpop 5 0 false) one .waiting 0x1000,
    leaves (.qenq (plain 1) (plain 2) 0) (capable 4095 true 0) .waiting 0x1004, leaves (.qenq (plain 1) (plain 2) 0) (capable 4095 false 0) .frozen 0x1000,
    x5 (.sstat 5 1) (withStream one 1 (popping 100)) 0xA200000000000064, v9 (.vabs 9 (plain 1) 0 .s8) (withStream one 1 (popping 0)) 8 5,
    x5 (.tagctlRd 5 1) waiting 0x0B00000000002000, leaves (.accz 3) one .ready 0x1004, steps (exec (.accz 3) one) (fun t => ((t.cluster 0).mreqs.map MReq.op) == [.zero 3]),
    x5 (.hget 5 0 1) (handles [dense]) (96 + 64 * 2 ^ 16), leaves (.copy 1 (plain 2) (plain 3) .cl) (copying (spad 0x2000) (spad 0x1000) 300) .ready 0x1004,
    steps (exec (.copy 1 (plain 2) (plain 3) .cl) (copying (spad 0x2000) (spad 0x1000) 300)) (fun t => (t.copies.map fun c => c.2.lines.length) == [3]),
    leaves (.copy 1 (plain 2) (plain 3) .cl) (copying (spad 0x1010) (spad 0x1000) 300) .frozen 0x1000,
    x5 (.ctxinfo 5 (plain 0) (plain 2)) (among 0 1) 0, x5 (.ctxstart 5 (plain 1)) (among 4095 0) 0x8000000000000001, x5 (.ctxstart 5 (plain 1)) (among 2 0) 0,
    x5 (.ctxstart 5 (plain 1)) (among 4 0) 0x8000000000000002] := by decide +kernel

/-- R10, R111, R355, R393, R462, R480: steps that have no encoding. -/
theorem test_events : All [
    steps (exec .timeBaseTick one) (fun t => t.tick == 1 && (t.dieOf 0).cyc == 60), steps (exec (.homeGrant 30 0) (storing .ef)) (fun t => (List.range 4).map (fun k => t.byte (0x1800 + k)) == [1, 2, 3, 4]),
    steps (exec (.frameDelivery 3) (switched [{ seq := 0, data := [0xAA], bad := false, tick := 0 }] 38)) (fun t => num t (spadPlace 0 0x1000) == 1 && t.byte (spadPlace 0 0x1010) == 0xAA),
    steps (exec (.flitReceive (.port 3) (.data 0 true)) one) (fun t => (t.link (.port 3)).rxSeq == 1), steps (exec (.flitReceive (.port 3) (.data 1 true)) one) (fun t => (t.link (.port 3)).askReplay),
    steps (exec .powerLoss one) (fun t => t.boot.mode == 2 && ({ t with boot := one.boot } : State).mgmtRead (.saved 0 0) == some 0x0313FFFF00000000), steps (exec (.partitionReset { part := 0, failed := [] }) { one with resetting := [0] }) (fun t => (t.ctx 0).st == .running),
    steps (step (State.reset.withFetchWord 32 (encode true (.li 5 0 77)).toNat)) (fun t => t.xVal 5 == 77)] := by decide +kernel

end Sys2Proof.Tests
end

section
/-! PROOFS. The scope of the part (O41, O44, O59): the time base, power states and throttling (R10, R38 to R41, R481), the error log and
the registers that a host writes (R13, R397), and the state after start-up (R357). -/
namespace Sys2Proof.Machine
open Safety

/-! ### Steps that have no encoding -/

/-- A step that comes about. (The meaning of a step that has no encoding is, by definition, `stepOrStay` of its `ev` function.) -/
theorem stepOrStay_some {f : State → Option State} {s t : State} (h : f s = some t) : stepOrStay f s = .next t := by
  simp [stepOrStay, h]

/-- A step that is not enabled changes nothing. -/
theorem stepOrStay_none {f : State → Option State} {s : State} (h : f s = none) : stepOrStay f s = .next s := by
  simp [stepOrStay, h]

/-! ### Tables -/

/-- What a table gives once each of its values has been replaced by one that depends on it and on its key. -/
theorem tget_map {α β : Type} (t : Tab α) (f : Nat → α → β) (n : Nat) :
    tget (t.map fun p => (p.1, f p.1 p.2)) n = (tget t n).map (f n) := by
  induction t with
  | nil => rfl
  | cons p t ih =>
    obtain ⟨k, v⟩ := p
    simp only [List.map_cons, tget]
    split
    · next e => subst e; rfl
    · split
      · rfl
      · exact ih

/-! ### The time base (R10): cores that something calls (R40) -/

section
variable (s : State)

/-- R40: what the end of a tick makes of a core: one that is called for the first time gets its wake time. -/
def State.calledCore (k : Nat) (c : Core) : Core :=
  if s.called k && c.wakeBy.isNone then { c with wakeBy := some (s.tick + s.wakeTicks k) } else c

theorem State.callCores_cores : s.callCores.cores = s.cores.map fun c => (c.1, s.calledCore c.1 c.2) := by
  refine List.map_congr_left fun c _ => ?_
  simp only [State.calledCore]
  split <;> rfl

/-- A core that no table lists is Active, so that nothing calls it. -/
theorem State.called_of_unlisted {k : Nat} (h : tget s.cores k = none) : s.called k = false := by
  simp [State.called, State.core, h]

theorem State.core_callCores (k : Nat) : s.callCores.core k = s.calledCore k (s.core k) := by
  simp only [State.core, State.callCores_cores, tget_map]
  cases h : tget s.cores k with
  | none => simp [State.calledCore, s.called_of_unlisted h]
  | some c => rfl

end

/-! ### The time base (R10): contexts that are charged (R330, R344) -/

/-- Nothing but the charges of contexts may differ: their budgets, and the periods that throttling has cost them. -/
def OnlyCharges (s t : State) : Prop :=
  t = { s with ctxs := t.ctxs } ∧ ∀ n, t.ctx n = { s.ctx n with thr := (t.ctx n).thr, budget := (t.ctx n).budget }

theorem OnlyCharges.refl (s : State) : OnlyCharges s s := ⟨rfl, fun _ => rfl⟩

theorem OnlyCharges.trans {s t u : State} (h : OnlyCharges s t) (g : OnlyCharges t u) : OnlyCharges s u := by
  obtain ⟨hf, hc⟩ := h
  obtain ⟨gf, gc⟩ := g
  exact ⟨gf.trans (by rw [hf]), fun n => (gc n).trans (by rw [hc n])⟩

theorem onlyCharges_setCtx (s : State) (n : Nat) (thr : BitVec 63) (budget : DWord) :
    OnlyCharges s (s.setCtx n { s.ctx n with thr := thr, budget := budget }) := by
  refine ⟨rfl, fun m => ?_⟩
  by_cases h : m = n
  · subst h; simp
  · simp [State.ctx_setCtx_ne s _ h]

/-- R330: the core-clock periods that throttling has cost a context in a tick. -/
def State.chargeThrottle (s : State) (core ctx : Nat) : State :=
  let lost := 12 - (s.dieOf (dieOfCore core)).cyclesIn
  if lost = 0 then s else s.setCtx ctx { s.ctx ctx with thr := (s.ctx ctx).thr + BitVec.ofNat 63 lost }

/-- R344: the budget that is charged for a context in a tick. -/
def State.chargeBudget (s : State) (ctx : Nat) : State :=
  match s.charged ctx with
  | some m => if (s.ctx m).budget = 0 then s else s.setCtx m { s.ctx m with budget := (s.ctx m).budget - 1 }
  | none => s

theorem State.chargeTick_eq (s : State) (core ctx : Nat) : s.chargeTick core ctx = (s.chargeThrottle core ctx).chargeBudget ctx := rfl

theorem onlyCharges_chargeThrottle (s : State) (core ctx : Nat) : OnlyCharges s (s.chargeThrottle core ctx) := by
  simp only [State.chargeThrottle]
  split
  · exact .refl s
  · exact onlyCharges_setCtx ..

theorem onlyCharges_chargeBudget (s : State) (ctx : Nat) : OnlyCharges s (s.chargeBudget ctx) := by
  simp only [State.chargeBudget]
  split
  · split
    · exact .refl s
    · exact onlyCharges_setCtx ..
  · exact .refl s

theorem onlyCharges_chargeTick (s : State) (core ctx : Nat) : OnlyCharges s (s.chargeTick core ctx) :=
  (onlyCharges_chargeThrottle s core ctx).trans (onlyCharges_chargeBudget _ ctx)

/-- R330, R344: the end of a tick for the listed core: the context resident on a worker core is charged. -/
def State.chargeCore (s : State) (c : Nat × Core) : State :=
  match c.2.res with
  | some ctx => if slotOf c.1 = 8 then s else s.chargeTick c.1 ctx
  | none => s

theorem onlyCharges_chargeCore (s : State) (c : Nat × Core) : OnlyCharges s (s.chargeCore c) := by
  simp only [State.chargeCore]
  split
  · split
    · exact .refl s
    · exact onlyCharges_chargeTick ..
  · exact .refl s

theorem onlyCharges_chargeCores (cs : List (Nat × Core)) (s : State) : OnlyCharges s (cs.foldl State.chargeCore s) := by
  induction cs generalizing s with
  | nil => exact .refl s
  | cons c cs ih => exact (onlyCharges_chargeCore s c).trans (ih _)

/-- A die at level 0 that is at the start of a period goes through at least the 12 periods of a tick. -/
theorem Die.twelve_le_cyclesIn {d : Die} (hl : d.level = 0) (hc : d.cyc % 5 = 0) : 12 ≤ d.cyclesIn := by
  have hr : d.rate = 60 := by simp [Die.rate, hl]
  have : 60 ≤ d.advance := by rw [Die.advance, hr]; exact Nat.le_max_left ..
  simp only [Die.cyclesIn]
  omega

/-- R344: a tick of a die that nothing throttles takes one from the budget that is charged. -/
theorem State.chargeTick_unthrottled {s : State} {core ctx m : Nat} (hm : s.charged ctx = some m)
    (hl : (s.dieOf (core / 576)).level = 0) (hc : (s.dieOf (core / 576)).cyc % 5 = 0) :
    s.chargeTick core ctx = if (s.ctx m).budget = 0 then s else s.setCtx m { s.ctx m with budget := (s.ctx m).budget - 1 } := by
  have hz : 12 - (s.dieOf (dieOfCore core)).cyclesIn = 0 := Nat.sub_eq_zero_of_le (Die.twelve_le_cyclesIn hl hc)
  have ht : s.chargeThrottle core ctx = s := if_pos hz
  simp only [State.chargeTick_eq, ht, State.chargeBudget, hm]

/-! ### The time base (R10): the clocks of the dies (R175) -/

/-- The end of a tick for the dies below n. -/
def State.tickDies (s : State) (n : Nat) : State := (List.range n).foldl (fun t d => t.setDie d (t.dieOf d).ticked) s

theorem State.tickDies_succ (s : State) (n : Nat) :
    s.tickDies (n + 1) = (s.tickDies n).setDie n ((s.tickDies n).dieOf n).ticked := by
  simp [State.tickDies, List.range_succ]

theorem State.tickDies_frame (s : State) (n : Nat) : s.tickDies n = { s with die := (s.tickDies n).die } := by
  induction n with
  | zero => rfl
  | succ n ih =>
    rw [State.tickDies_succ, ih]
    rfl

theorem State.dieOf_tickDies (s : State) (n d : Nat) :
    (s.tickDies n).dieOf d = if d < n then (s.dieOf d).ticked else s.dieOf d := by
  induction n generalizing d with
  | zero => rfl
  | succ n ih =>
    rw [State.tickDies_succ]
    by_cases h : d = n
    · subst h; simp [ih]
    · rw [State.dieOf_setDie_ne _ _ h, ih]
      simp only [show d < n + 1 ↔ d < n by omega]

/-! ### The time base (R10) -/

section
variable (s : State)

/-- The part when a tick ends, its cores called and its contexts charged. -/
def State.tickCharged : State := s.callCores.cores.foldl State.chargeCore s.callCores

/-- The part when a tick has ended. -/
def State.ticked : State := { s.tickCharged.tickDies s.dies with tick := s.tick + 1, edge := true }

theorem State.tickCharged_onlyCharges : OnlyCharges s.callCores s.tickCharged := onlyCharges_chargeCores ..

theorem State.tickCharged_frame : s.tickCharged = { s with cores := s.callCores.cores, ctxs := s.tickCharged.ctxs } :=
  s.tickCharged_onlyCharges.1

theorem State.tickCharged_tick : s.tickCharged.tick = s.tick := by rw [State.tickCharged_frame]
theorem State.tickCharged_dies : s.tickCharged.dies = s.dies := by rw [State.tickCharged_frame]
theorem State.tickCharged_die : s.tickCharged.die = s.die := by rw [State.tickCharged_frame]
theorem State.tickCharged_cores : s.tickCharged.cores = s.callCores.cores := by rw [State.tickCharged_frame]

theorem State.tickDies_tick (n : Nat) : (s.tickDies n).tick = s.tick := by rw [State.tickDies_frame]
theorem State.tickDies_cores (n : Nat) : (s.tickDies n).cores = s.cores := by rw [State.tickDies_frame]
theorem State.tickDies_ctxs (n : Nat) : (s.tickDies n).ctxs = s.ctxs := by rw [State.tickDies_frame]

theorem evTimeBaseTick_held (h : s.tickHeld = true) : evTimeBaseTick s = none := by simp [evTimeBaseTick, h]

theorem evTimeBaseTick_free (h : s.tickHeld = false) : evTimeBaseTick s = some s.ticked := by
  have e : evTimeBaseTick s = some
      { s.tickCharged.tickDies s.tickCharged.dies with tick := (s.tickCharged.tickDies s.tickCharged.dies).tick + 1, edge := true } := by
    rw [evTimeBaseTick, h]; rfl
  rw [e, State.tickDies_tick, State.tickCharged_tick, State.tickCharged_dies, State.ticked]

theorem State.ticked_frame :
    s.ticked = { s with tick := s.ticked.tick, die := s.ticked.die, ctxs := s.ticked.ctxs, cores := s.ticked.cores, edge := true } := by
  simp only [State.ticked]
  rw [State.tickDies_frame, State.tickCharged_frame]

theorem State.core_ticked (k : Nat) : s.ticked.core k = s.calledCore k (s.core k) := by
  rw [← State.core_callCores]
  simp only [State.core, State.ticked, State.tickDies_cores, State.tickCharged_cores]

theorem State.dieOf_ticked {d : Nat} (h : d < s.dies) : s.ticked.dieOf d = (s.dieOf d).ticked := by
  have hd : s.tickCharged.dieOf d = s.dieOf d := by simp only [State.dieOf, State.tickCharged_die]
  have ht : s.ticked.dieOf d = _ := s.tickCharged.dieOf_tickDies s.dies d
  rw [ht, if_pos h, hd]

theorem State.ctx_ticked (n : Nat) :
    s.ticked.ctx n = { s.ctx n with thr := (s.ticked.ctx n).thr, budget := (s.ticked.ctx n).budget } := by
  have h : s.ticked.ctx n = s.tickCharged.ctx n := by simp only [State.ctx, State.ticked, State.tickDies_ctxs]
  rw [h]
  exact s.tickCharged_onlyCharges.2 n

end

/-- R10, R40, R175, R330, R344. -/
theorem timeBase : Claims.TimeBase := by
  intro s
  refine ⟨fun h => stepOrStay_none (evTimeBaseTick_held s h), fun h => ⟨s.ticked, stepOrStay_some (evTimeBaseTick_free s h), rfl,
    fun d hd => s.dieOf_ticked hd, fun k => ?_, s.ticked_frame, s.ctx_ticked⟩, fun core ctx m => State.chargeTick_unthrottled⟩
  rw [State.core_ticked, State.calledCore]
  simp

/-! ### Power states (R39 to R41) -/

section
variable {s : State} {n : Nat}

theorem evPowerStateEntry_core (hp : (s.core n).power = .active) (hb : s.coreBusy n = false) (ht : 2 ≤ s.tolerance (n / 9)) :
    evPowerStateEntry (.core n) s = some (s.setCore n { s.core n with power := .gated }) := by
  simp [evPowerStateEntry, hp, hb, clOf, ht]

theorem evPowerStateEntry_core_busy (hb : s.coreBusy n = true) : evPowerStateEntry (.core n) s = none := by
  simp [evPowerStateEntry, hb]

theorem evPowerStateEntry_cluster (hp : (s.cluster n).power = .active) (hi : s.clusterIdle n = true) (ht : 200 ≤ s.tolerance n) :
    evPowerStateEntry (.cluster n) s = some (s.setCluster n { s.cluster n with power := .retention }) := by
  simp [evPowerStateEntry, hp, hi, ht]

theorem evPowerStateEntry_die (hp : (s.dieOf n).power = .active) (hi : s.dieIdle n = true) :
    evPowerStateEntry (.die n) s = some (s.setDie n { s.dieOf n with power := .parked }) := by
  simp [evPowerStateEntry, hp, hi]

/-- R41: a cluster without what its instruction cache held, where its quadrant is n. -/
def flushedCluster (n k : Nat) (c : Cluster) : Cluster := if k / 16 = n then { c with icache := [] } else c

/-- R39, R41: a quadrant in deep sleep, the instruction caches of its clusters empty. -/
def State.deepQuad (s : State) (n : Nat) : State :=
  { s.setQuad n { s.quad n with power := .deep } with clusters := s.clusters.map fun c => (c.1, flushedCluster n c.1 c.2) }

theorem evPowerStateEntry_quad (hp : (s.quad n).power = .active) (hc : ∀ i, i < 16 →
    (s.cluster (n * 16 + i)).power = .retention ∧ 5000 ≤ s.tolerance (n * 16 + i) ∧ s.ingressTo (n * 16 + i) = false) :
    evPowerStateEntry (.quad n) s = some (s.deepQuad n) := by
  have hall : ((clustersIn n).all fun cl =>
      (s.cluster cl).power == .retention && decide (5000 ≤ s.tolerance cl) && !s.ingressTo cl) = true := by
    simp only [clustersIn, List.all_map, List.all_eq_true, List.mem_range]
    intro i hi
    obtain ⟨hr, ht, hg⟩ := hc i hi
    simp [hr, ht, hg]
  simp only [evPowerStateEntry, hp, hall]
  rfl

theorem State.quad_deepQuad : (s.deepQuad n).quad n = { s.quad n with power := .deep } :=
  s.quad_setQuad n _

theorem State.icache_deepQuad {cl : Nat} (h : cl / 16 = n) : ((s.deepQuad n).cluster cl).icache = [] := by
  simp only [State.cluster, State.deepQuad, tget_map]
  cases tget s.clusters cl with
  | none => rfl
  | some c => simp [flushedCluster, h]

theorem evWakeEvent_core (h : (s.core n).power ≠ .active) : evWakeEvent (.core n) s = some (s.wakeCore n) := by
  simp [evWakeEvent, h]
theorem evWakeEvent_cluster (h : (s.cluster n).power ≠ .active) : evWakeEvent (.cluster n) s = some (s.wakeCluster n) := by
  simp [evWakeEvent, h]
theorem evWakeEvent_quad (h : (s.quad n).power ≠ .active) : evWakeEvent (.quad n) s =
    some ((s.setQuad n { s.quad n with power := .active }).setDie (n / 4) { s.dieOf (n / 4) with power := .active }) := by
  simp [evWakeEvent, h]
theorem evWakeEvent_die (h : (s.dieOf n).power ≠ .active) :
    evWakeEvent (.die n) s = some (s.setDie n { s.dieOf n with power := .active }) := by
  simp [evWakeEvent, h]

end

section
variable (s : State) (n : Nat)

@[simp] theorem State.cluster_wakeCluster : (s.wakeCluster n).cluster n = { s.cluster n with power := .active } := by
  simp [State.wakeCluster]
@[simp] theorem State.quad_wakeCluster : (s.wakeCluster n).quad (n / 16) = { s.quad (n / 16) with power := .active } := by
  simp [State.wakeCluster]
@[simp] theorem State.dieOf_wakeCluster : (s.wakeCluster n).dieOf (n / 64) = { s.dieOf (n / 64) with power := .active } := by
  simp [State.wakeCluster]
@[simp] theorem State.core_wakeCluster (k : Nat) : (s.wakeCluster n).core k = s.core k := rfl
@[simp] theorem State.byte_wakeCluster (a : Nat) : (s.wakeCluster n).byte a = s.byte a := rfl
@[simp] theorem State.wakeCluster_imgs : (s.wakeCluster n).imgs = s.imgs := rfl

/-- R40: a cluster that wakes is Active, and so are its quadrant and its die; memory and images are as they were. -/
theorem State.wakeCluster_active :
    ((s.wakeCluster n).cluster n).power = .active ∧ ((s.wakeCluster n).quad (n / 16)).power = .active ∧
      ((s.wakeCluster n).dieOf (n / 64)).power = .active ∧ SameMemory s (s.wakeCluster n) ∧ (s.wakeCluster n).imgs = s.imgs := by
  simp [SameMemory]

/-- R40: a core that wakes is Active, and so are its cluster and what holds that. -/
theorem State.wakeCore_active :
    ((s.wakeCore n).core n).power = .active ∧ ((s.wakeCore n).core n).wakeBy = none ∧
      ((s.wakeCore n).cluster (n / 9)).power = .active ∧ ((s.wakeCore n).quad (n / 9 / 16)).power = .active ∧
      ((s.wakeCore n).dieOf (n / 9 / 64)).power = .active ∧ SameMemory s (s.wakeCore n) ∧ (s.wakeCore n).imgs = s.imgs := by
  simp [State.wakeCore, clOf, SameMemory]

end

/-- R39 to R41. -/
theorem powerStates : Claims.PowerStates := by
  intro s n
  refine ⟨fun hp hb ht => stepOrStay_some (evPowerStateEntry_core hp hb ht),
    fun hp hi ht => stepOrStay_some (evPowerStateEntry_cluster hp hi ht),
    fun hp hc => ⟨s.deepQuad n, stepOrStay_some (evPowerStateEntry_quad hp hc), by rw [State.quad_deepQuad],
      fun i hi => State.icache_deepQuad (by omega)⟩,
    fun hp hi => stepOrStay_some (evPowerStateEntry_die hp hi),
    fun hb => stepOrStay_none (evPowerStateEntry_core_busy hb),
    fun h => stepOrStay_some (evWakeEvent_quad h),
    fun h => stepOrStay_some (evWakeEvent_die h),
    fun h => ⟨_, stepOrStay_some (evWakeEvent_cluster h), s.wakeCluster_active n⟩,
    fun h => ⟨_, stepOrStay_some (evWakeEvent_core h), s.wakeCore_active n⟩⟩

/-! ### Throttling (R38, R481) -/

section
variable {s : State} {die : Nat}

/-- R481: a rise from step 0 is recorded, where the die's last record is at least 1 000 000 ticks old. -/
def State.throttleDue (s : State) (die : Nat) : Prop :=
  (s.dieOf die).level = 0 ∧ ∀ t, (s.dieOf die).lastRec = some t → t + 1000000 ≤ s.tick

theorem State.throttleRec_due (h : s.throttleDue die) :
    s.throttleRec die = (s.setDie die { s.dieOf die with lastRec := some s.tick }).logRec 0 0x13 die 0 0 0 0 := by
  obtain ⟨hl, hr⟩ := h
  cases e : (s.dieOf die).lastRec with
  | none => simp [State.throttleRec, hl, e]
  | some t => simp [State.throttleRec, hl, e, hr t e]

theorem State.throttleRec_not_due (h : ¬ s.throttleDue die) : s.throttleRec die = s := by
  cases e : (s.dieOf die).lastRec with
  | none =>
    have hl : (s.dieOf die).level ≠ 0 := fun hl => h ⟨hl, by simp [e]⟩
    simp only [State.throttleRec, beq_eq_false_iff_ne.mpr hl, Bool.false_and, Bool.false_eq_true, if_false]
  | some t =>
    have hn : ¬ ((s.dieOf die).level = 0 ∧ t + 1000000 ≤ s.tick) := fun ⟨hl, ht⟩ => h ⟨hl, by simp [e, ht]⟩
    simp only [State.throttleRec, e, Bool.and_eq_true, beq_iff_eq, decide_eq_true_eq, hn, if_false]

theorem evThrottleSignal_some (cause : Byte) (target : BitVec 4) (hd : die < s.dies) (hc : cause.toNat ≤ 3) :
    evThrottleSignal die cause target s = some (s.setDie die { s.dieOf die with cause := cause, target := target }) := by
  simp [evThrottleSignal, hd, hc]

theorem evThrottleStep_there (h : (s.dieOf die).level = (s.dieOf die).target) : evThrottleStep die s = none := by
  simp [evThrottleStep, h]

theorem evThrottleStep_down (hd : die < s.dies) (h : (s.dieOf die).target.toNat < (s.dieOf die).level.toNat) :
    evThrottleStep die s = some (s.setDie die { s.dieOf die with level := (s.dieOf die).level - 1 }) := by
  have hne : (s.dieOf die).level ≠ (s.dieOf die).target := fun e => by simp [e] at h
  simp [evThrottleStep, Nat.not_le.mpr hd, hne, Nat.not_lt.mpr (Nat.le_of_lt h)]

theorem evThrottleStep_up (hd : die < s.dies) (h : (s.dieOf die).level.toNat < (s.dieOf die).target.toNat) :
    evThrottleStep die s =
      some ((s.throttleRec die).setDie die { (s.throttleRec die).dieOf die with level := (s.dieOf die).level + 1 }) := by
  have hne : (s.dieOf die).level ≠ (s.dieOf die).target := fun e => by simp [e] at h
  simp [evThrottleStep, Nat.not_le.mpr hd, hne, h]

@[simp] theorem State.dieOf_of_logRec (a b c d : Nat) (x y z : DWord) (e f m : Nat) :
    (s.logRec a b c d x y z e f).dieOf m = s.dieOf m := rfl

theorem evThrottleStep_up_not_due (hd : die < s.dies) (h : (s.dieOf die).level.toNat < (s.dieOf die).target.toNat)
    (hn : ¬ s.throttleDue die) :
    evThrottleStep die s = some (s.setDie die { s.dieOf die with level := (s.dieOf die).level + 1 }) := by
  rw [evThrottleStep_up hd h, State.throttleRec_not_due hn]

theorem evThrottleStep_up_due (hd : die < s.dies) (h : (s.dieOf die).level.toNat < (s.dieOf die).target.toNat)
    (hy : s.throttleDue die) :
    evThrottleStep die s =
      some (((s.setDie die { s.dieOf die with lastRec := some s.tick }).logRec 0 0x13 die 0 0 0 0).setDie die
        { s.dieOf die with lastRec := some s.tick, level := (s.dieOf die).level + 1 }) := by
  rw [evThrottleStep_up hd h, State.throttleRec_due hy, State.dieOf_of_logRec, State.dieOf_setDie]

end

/-- R38, R481. -/
theorem throttling : Claims.Throttling := fun _ _ cause target hd =>
  ⟨fun hc => stepOrStay_some (evThrottleSignal_some cause target hd hc),
    fun h => stepOrStay_none (evThrottleStep_there h),
    fun h => stepOrStay_some (evThrottleStep_down hd h),
    fun h => ⟨fun hn => stepOrStay_some (evThrottleStep_up_not_due hd h hn), fun hy => stepOrStay_some (evThrottleStep_up_due hd h hy)⟩⟩

/-- Settles O41: what a tick does is composed of what it does to cores, contexts and dies; entries, wakes and steps of throttling each
have an equation for each of their cases. -/
theorem timeAndPower : Obligations.TimeAndPower := ⟨timeBase, powerStates, throttling⟩

/-! ### The error log (R397) -/

section
variable {s : State}

theorem evHeldRecordFlush_room {r : ErrRec} {rest : List ErrRec} (hh : s.log.held = r :: rest) (hu : s.log.unread < 1023) :
    evHeldRecordFlush s = some { s with log := { s.log with held := rest }.put r } := by
  simp [evHeldRecordFlush, hh, hu]

theorem evHeldRecordFlush_stays (h : s.log.held = [] ∨ 1023 ≤ s.log.unread) : evHeldRecordFlush s = none := by
  cases e : s.log.held with
  | nil => simp [evHeldRecordFlush, e]
  | cons r rest =>
    have hu : ¬ s.log.unread < 1023 := by
      rcases h with h | h
      · simp [e] at h
      · exact Nat.not_lt.mpr h
    simp [evHeldRecordFlush, e, hu]

/-- The dword of two words. -/
theorem dw_words (a b : Word) : dw (a.toNat * 2 ^ 32 + b.toNat) = a ++ b := by
  apply BitVec.eq_of_toNat_eq
  have hlt : a.toNat * 2 ^ 32 + b.toNat < 2 ^ 64 := by omega
  rw [dw, BitVec.toNat_ofNat, Nat.mod_eq_of_lt hlt, BitVec.toNat_append, ← Nat.shiftLeft_add_eq_or_of_lt b.isLt, Nat.shiftLeft_eq]

theorem evEllostRead_normal (h : s.boot.mode = 0) : evEllostRead s = some { s with
    hostOut := [s.log.lostOther ++ s.log.lostCorrected], log := { s.log with lostCorrected := 0, lostOther := 0 } } := by
  simp [evEllostRead, h, ← dw_words]

end

/-- R397. -/
theorem errorLog : Claims.ErrorLog := by
  intro s r rest
  exact ⟨fun hh hu => stepOrStay_some (evHeldRecordFlush_room hh hu), fun h => stepOrStay_none (evHeldRecordFlush_stays h),
    fun h => stepOrStay_some (evEllostRead_normal h)⟩

/-! ### The registers that a host writes (R13) -/

/-- The bits of a field, in place, are those that the field's mask keeps. -/
theorem and_fieldMask (v : DWord) (lo len : Nat) : v &&& dw ((2 ^ len - 1) * 2 ^ lo) = dw (v.toNat / 2 ^ lo % 2 ^ len * 2 ^ lo) := by
  apply BitVec.eq_of_getLsbD_eq
  intro i hi
  simp only [dw, BitVec.getLsbD_and, BitVec.getLsbD_ofNat, Nat.testBit_mul_two_pow, Nat.testBit_mod_two_pow, Nat.testBit_div_two_pow,
    Nat.testBit_two_pow_sub_one, hi, decide_true, Bool.true_and]
  by_cases h : lo ≤ i
  · simp [h, Nat.sub_add_cancel h, BitVec.testBit_toNat, Bool.and_comm]
  · simp [h]

section
variable (v : DWord)

/-- R477: a 4 KiB granule. -/
theorem and_granuleMask : v &&& 0xFFFFFFFFFFFFF000 = dw (v.toNat / 4096 * 4096) := by
  have h := and_fieldMask v 12 52
  rwa [Nat.mod_eq_of_lt (by omega)] at h

/-- R477: the 26 bits of a length. -/
theorem and_rlenMask : v &&& 0x3FFFFFF = dw (v.toNat % 2 ^ 26) := by
  have h := and_fieldMask v 0 26
  rwa [Nat.pow_zero, Nat.div_one, Nat.mul_one, Nat.mul_one] at h

/-- R348: a window's base. -/
theorem and_winbaseMask : v &&& 0x00FFFFF000000000 = dw (fld v 55 36 * 2 ^ 36) := by
  have h := and_fieldMask v 36 20
  rwa [← Nat.shiftRight_eq_div_pow] at h

/-- R395: the base of a restart area, a multiple of 64 KiB. -/
theorem toNat_and_areaBaseMask : (v &&& 0x1FFFFFF0000).toNat = v.toNat % 2 ^ 41 / 65536 * 65536 := by
  have h : v &&& 0x1FFFFFF0000 = dw (v.toNat / 2 ^ 16 % 2 ^ 25 * 2 ^ 16) := and_fieldMask v 16 25
  rw [h, dw, BitVec.toNat_ofNat]
  omega

/-- R395: the length of a restart area. -/
theorem toNat_and_areaLenMask : (v &&& 0x1FFFFFFFFFF).toNat = v.toNat % 2 ^ 41 := by
  have h : v &&& 0x1FFFFFFFFFF = dw (v.toNat / 2 ^ 0 % 2 ^ 41 * 2 ^ 0) := and_fieldMask v 0 41
  rw [h, dw, BitVec.toNat_ofNat]
  omega

end

section
variable {s : State} (v : DWord) {n : Nat}

theorem evRegisterWrite_raddr :
    evRegisterWrite .raddr v s = some { s with boot := { s.boot with raddr := v &&& 0xFFFFFFFFFFFFF000 } } := by
  simp only [evRegisterWrite, and_granuleMask]

theorem evRegisterWrite_rlen : evRegisterWrite .rlen v s = some { s with boot := { s.boot with rlen := v &&& 0x3FFFFFF } } := by
  simp only [evRegisterWrite, and_rlenMask]

theorem evRegisterWrite_winbase (hm : s.boot.mode = 0) (hb : (s.bound n).isSome = true) :
    evRegisterWrite (.winbase n) v s = some (s.setVf n { s.vf n with winbase := v &&& 0x00FFFFF000000000 }) := by
  simp only [evRegisterWrite, hm, hb, and_self, if_true, and_winbaseMask]

theorem evRegisterWrite_eltail (hm : s.boot.mode = 0) :
    evRegisterWrite .eltail v s = some { s with log := { s.log with tail := v.extractLsb' 0 10 } } := by
  simp [evRegisterWrite, hm, BitVec.setWidth_eq_extractLsb']

theorem evRegisterWrite_prtime (hm : s.boot.mode = 0) (hn : n < 2) :
    evRegisterWrite (.prtime n) v s = some (s.setHost n { s.host n with prtime := v.extractLsb' 0 32 }) := by
  simp [evRegisterWrite, hm, hn, BitVec.setWidth_eq_extractLsb']

theorem evRegisterWrite_priAlloc (hm : s.boot.mode = 0) (hn : n < 2) :
    evRegisterWrite (.priAlloc n) v s = some (s.setHost n { s.host n with alloc := (v.extractLsb' 0 32).toNat }) := by
  simp [evRegisterWrite, hm, hn]

theorem evRegisterWrite_interval (hm : s.boot.mode = 0) (hl : s.isLive n = true) (hp : (s.ctx n).part = true) :
    evRegisterWrite (.interval n) v s = some { s with rintervals := tset s.rintervals n v.toNat } := by
  simp [evRegisterWrite, hm, hl, hp]

/-- R395: the base of a partition's restart area is set, and its length stands. -/
theorem evRegisterWrite_areaBase (hm : s.boot.mode = 0) (hl : s.isLive n = true) (hp : (s.ctx n).part = true) :
    evRegisterWrite (.areaBase n) v s = some { s with
      rareas := tset s.rareas n (2 ^ 52 + (v &&& 0x1FFFFFF0000).toNat, ((tget s.rareas n).getD (2 ^ 52, 0)).2) } := by
  have hkept : ((tget s.rareas n).map Prod.snd).getD 0 = ((tget s.rareas n).getD (2 ^ 52, 0)).2 :=
    Option.getD_map Prod.snd (2 ^ 52, 0) (tget s.rareas n)
  simp only [evRegisterWrite, hm, hl, hp, and_self, if_true, toNat_and_areaBaseMask, hkept]

/-- R395: the length of a partition's restart area is set, and its base stands. -/
theorem evRegisterWrite_areaLen (hm : s.boot.mode = 0) (hl : s.isLive n = true) (hp : (s.ctx n).part = true) :
    evRegisterWrite (.areaLen n) v s = some { s with
      rareas := tset s.rareas n (((tget s.rareas n).getD (2 ^ 52, 0)).1, (v &&& 0x1FFFFFFFFFF).toNat) } := by
  have hkept : ((tget s.rareas n).map Prod.fst).getD (2 ^ 52) = ((tget s.rareas n).getD (2 ^ 52, 0)).1 :=
    Option.getD_map Prod.fst (2 ^ 52, 0) (tget s.rareas n)
  simp only [evRegisterWrite, hm, hl, hp, and_self, if_true, toNat_and_areaLenMask, hkept]

end

/-- R13, R348, R349, R395, R397, R448, R477. -/
theorem hostRegisters : Claims.HostRegisters := by
  intro s v n
  refine ⟨stepOrStay_some (evRegisterWrite_raddr v), stepOrStay_some (evRegisterWrite_rlen v), rfl, rfl, fun hm =>
    ⟨fun hb => stepOrStay_some (evRegisterWrite_winbase v hm hb), stepOrStay_some (evRegisterWrite_eltail v hm),
      fun hn => stepOrStay_some (evRegisterWrite_prtime v hm hn), fun hn => stepOrStay_some (evRegisterWrite_priAlloc v hm hn),
      fun hl hp => ⟨stepOrStay_some (evRegisterWrite_interval v hm hl hp), stepOrStay_some (evRegisterWrite_areaBase v hm hl hp),
        stepOrStay_some (evRegisterWrite_areaLen v hm hl hp)⟩⟩⟩

/-- Settles O44: each step of the log and each register has an equation for each of its cases; a register keeps the bits of its mask. -/
theorem logAndRegisters : Obligations.LogAndRegisters := ⟨errorLog, hostRegisters⟩

/-! ### The state after start-up (R357) -/

/-- R60: after start-up the services context alone lives. -/
theorem reset_isLive_iff (n : Nat) : State.reset.isLive n = true ↔ n = 0 := by
  by_cases h : n = 0
  · subst h; decide
  · simp [State.isLive, State.reset, tget, h]

/-- After start-up no core has an image of any context, so that each reads as a new one. -/
theorem reset_img (core ctx : Nat) : State.reset.img core ctx = {} := rfl

/-- R14, R60, R175, R357. -/
theorem resetValues : Claims.ResetValues := by
  refine ⟨rfl, rfl, rfl, rfl, (reset_isLive_iff 0).mpr rfl, rfl, rfl, rfl,
    fun n hn => Bool.eq_false_iff.mpr fun h => hn ((reset_isLive_iff n).mp h), fun _ => rfl, fun _ => rfl, rfl, rfl, fun core ctx => ?_⟩
  rw [reset_img]
  exact ⟨rfl, rfl, rfl, fun _ => rfl, rfl, rfl⟩

/-- After start-up the memory lists no byte. -/
theorem resetInvariant : Claims.ResetInvariant := rfl

/-- Settles O59, from the values that the fields of the state after start-up have. -/
theorem resetState : Obligations.ResetState := ⟨resetValues, resetInvariant⟩

end Sys2Proof.Machine
end

section
/-! PROOFS. Messages that arrive and that are sent again (O24; R40, R74, R242 to R247, R465). -/
namespace Sys2Proof.Machine
open Safety

/-! ### Fields of a dword -/

theorem or_twoPow_of_set {v : DWord} {n : Nat} (h : v.getLsbD n = true) : v ||| BitVec.twoPow 64 n = v := by
  ext i hi
  simp only [BitVec.getElem_or, BitVec.getElem_twoPow, Bool.or_eq_left_iff_imp, decide_eq_true_eq]
  rintro rfl
  exact h

theorem or_twoPow_of_clear {v : DWord} {n : Nat} (h : v.getLsbD n = false) :
    v ||| BitVec.twoPow 64 n = BitVec.ofNat 64 (v.toNat + 2 ^ n) := by
  have hand : v &&& BitVec.twoPow 64 n = 0 := by rw [BitVec.and_twoPow, h]; rfl
  rw [← BitVec.add_eq_or_of_and_eq_zero _ _ hand]
  apply BitVec.eq_of_toNat_eq
  simp

/-- A field of one bit that is set to 1. -/
theorem setFld_bit (v : DWord) (n : Nat) : setFld v n n 1 = v ||| ((1 : DWord) <<< n) := by
  have hb : bits v.toNat n n = (v.getLsbD n).toNat := by
    rw [bits, Nat.add_sub_cancel_left, Nat.pow_one, Nat.shiftRight_eq_div_pow, ← Nat.toNat_testBit, BitVec.testBit_toNat]
  rw [setFld, hb, Nat.add_sub_cancel_left, show (1 : DWord) <<< n = BitVec.twoPow 64 n from (BitVec.twoPow_eq 64 n).symm]
  cases hv : v.getLsbD n with
  | true =>
    have hle : 2 ^ n ≤ v.toNat := Nat.ge_two_pow_of_testBit hv
    simp [or_twoPow_of_set hv, Nat.sub_add_cancel hle]
  | false => simp [or_twoPow_of_clear hv]

/-! ### Waking a core for what arrives (R40) -/

section
variable (s : State) (n : Nat)

@[simp] theorem State.wakeCore_imgs : (s.wakeCore n).imgs = s.imgs := rfl
@[simp] theorem State.wakeCore_msgs : (s.wakeCore n).msgs = s.msgs := rfl
@[simp] theorem State.wakeCore_flights : (s.wakeCore n).flights = s.flights := rfl
@[simp] theorem State.wakeCore_links : (s.wakeCore n).links = s.links := rfl
@[simp] theorem State.wakeCore_fresh : (s.wakeCore n).fresh = s.fresh := rfl
@[simp] theorem State.wakeCore_rpoints : (s.wakeCore n).rpoints = s.rpoints := rfl
@[simp] theorem State.img_wakeCore (core ctx : Nat) : (s.wakeCore n).img core ctx = s.img core ctx := rfl
@[simp] theorem State.ctx_wakeCore (ctx : Nat) : (s.wakeCore n).ctx ctx = s.ctx ctx := rfl

@[simp] theorem State.power_wakeCore : ((s.wakeCore n).core n).power = .active := (s.wakeCore_active n).1

@[simp] theorem State.res_wakeCore (core : Nat) : ((s.wakeCore n).core core).res = (s.core core).res := by
  rw [State.wakeCore, State.core_wakeCluster]
  by_cases h : core = n
  · subst h; rw [State.core_setCore]
  · rw [State.core_setCore_ne _ _ h]

@[simp] theorem State.cyc_wakeCore (d : Nat) : ((s.wakeCore n).dieOf d).cyc = (s.dieOf d).cyc := by
  rw [State.wakeCore, State.wakeCluster]
  by_cases h : d = clOf n / 64
  · subst h; rw [State.dieOf_setDie]; rfl
  · rw [State.dieOf_setDie_ne _ _ h]; rfl

end

/-! ### Taking a message in (R242, R244, R245, R74) -/

theorem routeOf_eq (e : DWord) : routeOf e = routeFor e := by
  cases h : hEn e with
  | true => simp only [routeOf, h, routeFor, show e.getLsbD 59 = true from h]; rfl
  | false => simp only [routeOf, h, routeFor, show e.getLsbD 59 = false from h]; rfl

section
variable (s : State) (core ctx : Nat) (m : Msg) (die : Bool) (link : Option Nat)

/-- What a message is in an inbox slot or in the cage, under a route. -/
def State.slotFor (r : Route) : InSlot :=
  { msg := m, tag := fld m.hdr 23 16, route := r, order := s.fresh, die := die, link := link, entry := (s.img core ctx).handler (fld m.hdr 23 16) }

/-- R245: the same under the route that the entry of its tag gives. -/
def State.routedSlot : InSlot := s.slotFor core ctx m die link (routeFor ((s.img core ctx).handler (fld m.hdr 23 16)))

/-- A context's image on a core has taken something in. -/
def State.tookIn (i : Img) : State := { s.setImg core ctx i with fresh := s.fresh + 1 }

theorem acceptCode_le (tag : Nat) : acceptCode s core ctx tag ≤ 3 := by
  simp only [acceptCode]
  (repeat' split) <;> decide

@[simp] theorem acceptCode_wakeCore (n tag : Nat) : acceptCode (s.wakeCore n) core ctx tag = acceptCode s core ctx tag := by
  simp only [acceptCode, State.res_wakeCore, State.img_wakeCore]
  rfl

variable {s core ctx}

theorem acceptCode_resident (hr : (s.core core).res = some ctx) (tag : Nat) : acceptCode s core ctx tag =
    if (s.img core ctx).parked ≠ [] ∨ (s.img core ctx).freeSlot = none then 1
    else if hEn ((s.img core ctx).handler tag) then 0
    else if hPend ((s.img core ctx).handler tag) ∧ (s.img core ctx).heldFor tag < 8 ∧ (s.img core ctx).heldAll < 32 then 0 else 2 :=
  if_pos hr

theorem acceptCode_away (hr : (s.core core).res ≠ some ctx) (tag : Nat) : acceptCode s core ctx tag =
    if (((s.img core ctx).parked ++ (s.img core ctx).kept).filter fun p => p.slot.isNone).length < 64 then 0 else 3 :=
  if_neg hr

/-- R245: a message for a disabled tag is not held, in the words of `acceptMsg` and in those of `acceptCode`. -/
theorem not_held_iff (pend : Bool) (own all : Nat) :
    (!pend || decide (8 ≤ own) || decide (32 ≤ all)) = true ↔ ¬ (pend = true ∧ own < 8 ∧ all < 32) := by
  simp only [Bool.or_eq_true, Bool.not_eq_true', decide_eq_true_eq, Classical.not_and_iff_not_or_not, Bool.not_eq_true, Nat.not_lt, or_assoc]

/-- R244: a message that finds others parked, or no slot free, is refused. -/
theorem State.acceptMsg_blocked (hr : (s.core core).res = some ctx)
    (hb : (s.img core ctx).parked ≠ [] ∨ (s.img core ctx).freeSlot = none) : s.acceptMsg core ctx m die link = (1, s) := by
  simp only [State.acceptMsg, if_pos hr]
  cases hf : (s.img core ctx).freeSlot with
  | none => exact ite_self _
  | some k =>
    have hp : (!(s.img core ctx).parked.isEmpty) = true := by simpa [hf] using hb
    exact if_pos hp

/-- R244, R245: a message that finds a slot free takes it, if its tag is enabled or holds it. -/
theorem State.acceptMsg_room {k : Nat} (hr : (s.core core).res = some ctx) (hp : (s.img core ctx).parked = [])
    (hk : (s.img core ctx).freeSlot = some k) : s.acceptMsg core ctx m die link =
      if acceptCode s core ctx (fld m.hdr 23 16) = 0 then (0, s.tookIn core ctx { s.img core ctx with
        inbox := tset (s.img core ctx).inbox k (s.routedSlot core ctx m die link) })
      else (acceptCode s core ctx (fld m.hdr 23 16), s) := by
  have hroom : ¬ ((s.img core ctx).parked ≠ [] ∨ (s.img core ctx).freeSlot = none) := by simp [hp, hk]
  have hopen : ¬ (!(s.img core ctx).parked.isEmpty) = true := by simp [hp]
  rw [acceptCode_resident hr, if_neg hroom]
  simp only [State.acceptMsg, if_pos hr, if_neg hopen, hk, not_held_iff, routeOf_eq]
  by_cases he : hEn ((s.img core ctx).handler (fld m.hdr 23 16)) = true
  · simp only [if_pos he]; rfl
  · have hheld : routeFor ((s.img core ctx).handler (fld m.hdr 23 16)) = .held := if_pos (Bool.eq_false_iff.mpr he)
    simp only [if_neg he, State.routedSlot, hheld]
    by_cases hq : hPend ((s.img core ctx).handler (fld m.hdr 23 16)) = true ∧
        (s.img core ctx).heldFor (fld m.hdr 23 16) < 8 ∧ (s.img core ctx).heldAll < 32
    · simp only [if_pos hq, if_neg (Classical.not_not.mpr hq)]; rfl
    · simp only [if_neg hq, if_pos hq]; rfl

/-- R242: a message that is not accepted leaves the state as it is. -/
theorem State.acceptMsg_refused (h : acceptCode s core ctx (fld m.hdr 23 16) ≠ 0) :
    s.acceptMsg core ctx m die link = (acceptCode s core ctx (fld m.hdr 23 16), s) := by
  by_cases hr : (s.core core).res = some ctx
  · by_cases hb : (s.img core ctx).parked ≠ [] ∨ (s.img core ctx).freeSlot = none
    · rw [State.acceptMsg_blocked m die link hr hb, acceptCode_resident hr, if_pos hb]
    · obtain ⟨hp, hf⟩ := not_or.mp hb
      obtain ⟨k, hk⟩ := Option.ne_none_iff_exists'.mp hf
      rw [State.acceptMsg_room m die link hr (Classical.not_not.mp hp) hk, if_neg h]
  · rw [acceptCode_away hr] at h ⊢
    have hfull := fun hroom => h (if_pos hroom)
    simp only [State.acceptMsg, if_neg hr, if_neg hfull]

/-- R74: a message accepted for a context that is not resident waits in the cage. -/
theorem State.acceptMsg_away (hr : (s.core core).res ≠ some ctx) (h : acceptCode s core ctx (fld m.hdr 23 16) = 0) :
    s.acceptMsg core ctx m die link =
      (0, s.tookIn core ctx ((s.img core ctx).park ((s.ctx ctx).st == .saved) (s.slotFor core ctx m die link .held))) := by
  rw [acceptCode_away hr, ite_eq_left_iff] at h
  have hroom := Decidable.byContradiction fun hfull => absurd (h hfull) (by decide)
  simp only [State.acceptMsg, if_neg hr, if_pos hroom]
  rfl

/-- R74, R244, R245: a message that is accepted takes the lowest free slot, or waits in the cage of a context that is not resident. -/
theorem State.acceptMsg_accepted (h : acceptCode s core ctx (fld m.hdr 23 16) = 0) :
    ∃ i, s.acceptMsg core ctx m die link = (0, s.tookIn core ctx i) ∧
      ((s.core core).res = some ctx → ∀ k, (s.img core ctx).freeSlot = some k → i = { s.img core ctx with
        inbox := tset (s.img core ctx).inbox k (s.routedSlot core ctx m die link) }) ∧
      ((s.core core).res ≠ some ctx →
        i = (s.img core ctx).park ((s.ctx ctx).st == .saved) (s.slotFor core ctx m die link .held)) := by
  by_cases hr : (s.core core).res = some ctx
  · have hb : ¬ ((s.img core ctx).parked ≠ [] ∨ (s.img core ctx).freeSlot = none) := fun hb => by
      rw [acceptCode_resident hr, if_pos hb] at h
      exact absurd h (by decide)
    obtain ⟨hp, hf⟩ := not_or.mp hb
    obtain ⟨k, hk⟩ := Option.ne_none_iff_exists'.mp hf
    refine ⟨_, (State.acceptMsg_room m die link hr (Classical.not_not.mp hp) hk).trans (if_pos h), fun _ j hj => ?_, fun hn => absurd hr hn⟩
    rw [Option.some.inj (hk.symm.trans hj)]
  · exact ⟨_, State.acceptMsg_away m die link hr h, fun hy => absurd hy hr, fun _ => rfl⟩

/-- R244, R247: a reply takes the slot reserved for it, which is reserved no longer. -/
theorem State.acceptReply_resident (k : Nat) (hr : (s.core core).res = some ctx) : s.acceptReply core ctx k m die =
    s.tookIn core ctx { s.img core ctx with
      ires := (s.img core ctx).ires &&& ~~~(BitVec.ofNat 64 (2 ^ k))
      inbox := tset (s.img core ctx).inbox k (s.routedSlot core ctx m die none) } := by
  simp only [State.acceptReply, if_pos hr, Img.routed, routeOf_eq]
  rfl

/-- R74: a reply for a context that is not resident waits in the cage for its slot. -/
theorem State.acceptReply_away (k : Nat) (hr : (s.core core).res ≠ some ctx) : s.acceptReply core ctx k m die =
    s.tookIn core ctx ((s.img core ctx).park ((s.ctx ctx).st == .saved)
      { s.routedSlot core ctx m die none with slot := some k }) := by
  simp only [State.acceptReply, if_neg hr, Img.routed, routeOf_eq]
  rfl

end

section
variable (s : State) (core ctx k : Nat) (m : Msg) (die : Bool)

@[simp] theorem State.acceptReply_msgs : (s.acceptReply core ctx k m die).msgs = s.msgs := rfl
@[simp] theorem State.acceptReply_flights : (s.acceptReply core ctx k m die).flights = s.flights := rfl
@[simp] theorem State.acceptReply_links : (s.acceptReply core ctx k m die).links = s.links := rfl
@[simp] theorem State.acceptReply_rpoints : (s.acceptReply core ctx k m die).rpoints = s.rpoints := rfl
@[simp] theorem State.core_acceptReply (n : Nat) : (s.acceptReply core ctx k m die).core n = s.core n := rfl

end

section
variable (s : State) (core ctx : Nat) (i : Img)

@[simp] theorem State.tookIn_msgs : (s.tookIn core ctx i).msgs = s.msgs := rfl
@[simp] theorem State.tookIn_flights : (s.tookIn core ctx i).flights = s.flights := rfl
@[simp] theorem State.tookIn_links : (s.tookIn core ctx i).links = s.links := rfl
@[simp] theorem State.tookIn_rpoints : (s.tookIn core ctx i).rpoints = s.rpoints := rfl
@[simp] theorem State.core_tookIn (n : Nat) : (s.tookIn core ctx i).core n = s.core n := rfl
@[simp] theorem State.img_tookIn : (s.tookIn core ctx i).img core ctx = i := s.img_setImg core ctx i

end

/-! ### What the arrival of a message publishes and logs (R117, R396) -/

section
variable (s : State) (order id : Nat) (m : MFlight)

/-- R117: nothing but the releases that may be met changes where a message is accepted. -/
theorem State.sentBy_frame : s.sentBy order id m = { s with rels := (s.sentBy order id m).rels } := by
  simp only [State.sentBy, State.publishAt]
  split <;> rfl

@[simp] theorem State.sentBy_msgs : (s.sentBy order id m).msgs = s.msgs := by rw [State.sentBy_frame]
@[simp] theorem State.sentBy_flights : (s.sentBy order id m).flights = s.flights := by rw [State.sentBy_frame]
@[simp] theorem State.sentBy_links : (s.sentBy order id m).links = s.links := by rw [State.sentBy_frame]
@[simp] theorem State.sentBy_rpoints : (s.sentBy order id m).rpoints = s.rpoints := by rw [State.sentBy_frame]
@[simp] theorem State.core_sentBy (n : Nat) : (s.sentBy order id m).core n = s.core n := by rw [State.sentBy_frame]; rfl
@[simp] theorem State.img_sentBy (core ctx : Nat) : (s.sentBy order id m).img core ctx = s.img core ctx := by
  rw [State.sentBy_frame]; rfl

variable {s}

/-- R396: with no restart point there is no log to keep a message in. -/
theorem State.logForeign_unlogged (h : s.rpoints = []) : s.logForeign m = s := by
  have hf : ((s.upFrom m.toCtx).find? fun n => s.rpoints.any fun r => r.ctx == n) = none := by simp [h]
  simp only [State.logForeign, State.logInbound, hf, ite_self]

end

/-! ### What arrived has reached its core -/

section
variable (s : State) (id n : Nat)

/-- R40: what reached a core has woken it, and is on its way no longer. -/
def State.reached : State := { s.wakeCore n with msgs := tdel s.msgs id }

@[simp] theorem State.reached_msgs : (s.reached id n).msgs = tdel s.msgs id := by simp only [State.reached]
@[simp] theorem State.reached_flights : (s.reached id n).flights = s.flights := by simp only [State.reached, State.wakeCore_flights]
@[simp] theorem State.reached_links : (s.reached id n).links = s.links := by simp only [State.reached, State.wakeCore_links]
@[simp] theorem State.reached_rpoints : (s.reached id n).rpoints = s.rpoints := by simp only [State.reached, State.wakeCore_rpoints]
@[simp] theorem State.reached_imgs : (s.reached id n).imgs = s.imgs := by simp only [State.reached, State.wakeCore_imgs]
@[simp] theorem State.reached_fresh : (s.reached id n).fresh = s.fresh := by simp only [State.reached, State.wakeCore_fresh]
@[simp] theorem State.core_reached (core : Nat) : (s.reached id n).core core = (s.wakeCore n).core core := by
  simp only [State.reached, State.core]
@[simp] theorem State.img_reached (core ctx : Nat) : (s.reached id n).img core ctx = s.img core ctx := by
  simp only [State.img, State.reached_imgs]
@[simp] theorem State.ctx_reached (ctx : Nat) : (s.reached id n).ctx ctx = s.ctx ctx := by
  rw [← s.ctx_wakeCore n ctx]
  simp only [State.reached, State.ctx]
@[simp] theorem State.routedSlot_reached (core ctx : Nat) (m : Msg) (die : Bool) (link : Option Nat) :
    (s.reached id n).routedSlot core ctx m die link = s.routedSlot core ctx m die link := by
  simp only [State.routedSlot, State.slotFor, State.img_reached, State.reached_fresh]

end

section
variable (s : State) (id : Nat) (m : MFlight) (i : Img)

/-- R117, R244: a message has woken its core, whose image of its context has taken it in. -/
def State.acceptedAt : State := ((s.wakeCore m.toCore).tookIn m.toCore m.toCtx i).sentBy s.fresh id m

theorem State.acceptedAt_msgs : (s.acceptedAt id m i).msgs = s.msgs := by
  rw [State.acceptedAt, State.sentBy_msgs, State.tookIn_msgs, State.wakeCore_msgs]
theorem State.acceptedAt_flights : (s.acceptedAt id m i).flights = s.flights := by
  rw [State.acceptedAt, State.sentBy_flights, State.tookIn_flights, State.wakeCore_flights]
theorem State.acceptedAt_links : (s.acceptedAt id m i).links = s.links := by
  rw [State.acceptedAt, State.sentBy_links, State.tookIn_links, State.wakeCore_links]
theorem State.acceptedAt_rpoints : (s.acceptedAt id m i).rpoints = s.rpoints := by
  rw [State.acceptedAt, State.sentBy_rpoints, State.tookIn_rpoints, State.wakeCore_rpoints]
theorem State.img_acceptedAt : (s.acceptedAt id m i).img m.toCore m.toCtx = i := by
  rw [State.acceptedAt, State.img_sentBy, State.img_tookIn]
theorem State.power_acceptedAt : ((s.acceptedAt id m i).core m.toCore).power = .active := by
  rw [State.acceptedAt, State.core_sentBy, State.core_tookIn, State.power_wakeCore]

end

/-! ### Outcomes (R242) -/

/-- R242: the answer to a message's sender. -/
def MFlight.answer (m : MFlight) (f : Flight) (code : Nat) : Flight := { f with job := .outcome (BitVec.ofNat 64 (code + m.resends * 256)) }

section
variable {s : State} {id fid code : Nat} {m : MFlight} {f : Flight}

/-- R242: a message that is sent no more does not ask for it, or has been sent again fifteen times. -/
theorem MFlight.not_retried_iff : ¬ (m.dst.getLsbD 26 = true ∧ m.resends < 15) ↔ m.dst.getLsbD 26 = false ∨ 15 ≤ m.resends := by
  rw [Classical.not_and_iff_not_or_not, Bool.not_eq_true, Nat.not_lt]

/-- R242: a refused message that asks for it waits for its back-off. -/
theorem State.msgOutcome_again (h1 : code ≠ 0) (h3 : code ≤ 3) (hd : m.dst.getLsbD 26 = true) (hn : m.resends < 15) :
    s.msgOutcome id m code = { s with msgs := tset s.msgs id { m with
      waitTill := some ((s.dieOf (m.who.core / 576)).cyc + 5 * 64 * 2 ^ (Nat.min m.resends 8)) } } :=
  if_pos ⟨Nat.pos_of_ne_zero h1, h3, hd, hn⟩

/-- R242: an accepted message is answered. -/
theorem State.msgOutcome_accepted (hm : m.flight = some fid) (hf : tget s.flights fid = some f) :
    s.msgOutcome id m 0 = { s with msgs := tdel s.msgs id, flights := tset s.flights fid (m.answer f 0) } := by
  have hstop : ¬ (1 ≤ 0 ∧ 0 ≤ 3 ∧ dstRetry m.dst = true ∧ m.resends < 15) := fun h => absurd h.1 (by decide)
  simp only [State.msgOutcome, if_neg hstop, if_true, hm, hf]
  rfl

@[simp] theorem State.freeReserve_msgs (s : State) (m : MFlight) : (s.freeReserve m).msgs = s.msgs := by
  simp only [State.freeReserve]
  split <;> rfl

@[simp] theorem State.freeReserve_flights (s : State) (m : MFlight) : (s.freeReserve m).flights = s.flights := by
  simp only [State.freeReserve]
  split <;> rfl

@[simp] theorem State.core_freeReserve (s : State) (m : MFlight) (n : Nat) : (s.freeReserve m).core n = s.core n := by
  simp only [State.freeReserve]
  split <;> rfl

theorem State.freeReserve_none (h : m.reserve = none) : s.freeReserve m = s := by simp only [State.freeReserve, h]

/-- R242: the slot and the link that were reserved for a reply are free. -/
theorem State.freeReserve_some {k lid : Nat} (h : m.reserve = some (k, lid)) : s.freeReserve m =
    { s.setImg m.who.core m.who.ctx { s.img m.who.core m.who.ctx with
        ires := (s.img m.who.core m.who.ctx).ires &&& ~~~(BitVec.ofNat 64 (2 ^ k)) } with links := tdel s.links lid } := by
  simp only [State.freeReserve, h]
  rfl

/-- R242: a message that is refused for good is answered, and what was reserved for its reply is free. -/
theorem State.msgOutcome_reported (h1 : code ≠ 0) (hn : m.dst.getLsbD 26 = false ∨ 15 ≤ m.resends) (hm : m.flight = some fid)
    (hf : tget s.flights fid = some f) :
    s.msgOutcome id m code =
      { ({ s with msgs := tdel s.msgs id } : State).freeReserve m with flights := tset s.flights fid (m.answer f code) } := by
  have hstop : ¬ (1 ≤ code ∧ code ≤ 3 ∧ dstRetry m.dst = true ∧ m.resends < 15) := fun ⟨_, _, hd, hl⟩ =>
    MFlight.not_retried_iff.mpr hn ⟨hd, hl⟩
  simp only [State.msgOutcome, if_neg hstop, if_neg h1, hm, State.freeReserve_flights, hf]
  rfl

end

/-! ### Arrival (R243, R244) -/

/-- A message or reply of the package's own that reaches its core: nothing holds it back, and no restart point keeps a log. -/
structure Arriving (s : State) (id : Nat) (m : MFlight) : Prop where
  listed : tget s.msgs id = some m
  out : m.waitTill = none
  next : s.msgBefore id m = false
  released : s.msgReleased id m = true
  own : m.peer = false
  new : m.again = false
  quiet : ∀ p ∈ s.msgs, p.2.again = false
  unlogged : s.rpoints = []

section
variable {s : State} {id k code : Nat} {m : MFlight}

theorem State.inboundFull_unlogged (h : s.rpoints = []) (ctx : Nat) : s.inboundFull ctx = false := by simp [State.inboundFull, h]

theorem State.redelivering_quiet (h : ∀ p ∈ s.msgs, p.2.again = false) (core : Nat) : s.redelivering core = false := by
  simp only [State.redelivering, List.any_eq_false]
  intro p hp
  simp [h p hp]

theorem Arriving.event (h : Arriving s id m) : evMessageArrival (.flight id) s = s.ownArrival id m := by
  simp only [evMessageArrival, h.listed, Option.bind_some]

theorem Arriving.not_again (h : Arriving s id m) : ¬ m.again = true := by simp [h.new]
theorem Arriving.not_peer (h : Arriving s id m) : ¬ m.peer = true := by simp [h.own]

theorem Arriving.not_held (h : Arriving s id m) : ¬ ((m.waitTill.isSome || s.msgBefore id m || !s.msgReleased id m ||
    (!m.peer && s.foreign m && (s.inboundFull m.toCtx || s.redelivering m.toCore))) = true) := by
  simp [h.out, h.next, h.released, State.inboundFull_unlogged h.unlogged, State.redelivering_quiet h.quiet]

/-- R244, R247: the arrival of a reply. -/
theorem Arriving.reply (h : Arriving s id m) (hr : m.isReply = true) (hk : m.slot = some k) :
    evMessageArrival (.flight id) s =
      some (((s.reached id m.toCore).acceptReply m.toCore m.toCtx k m.msg m.fromOtherDie).sentBy s.fresh id m) := by
  rw [h.event, State.ownArrival, if_neg h.not_again, if_neg h.not_held, if_neg h.not_peer]
  simp only [hr, hk]
  rw [State.logForeign_unlogged]
  · simp only [State.reached]
  · rw [State.sentBy_rpoints, State.acceptReply_rpoints]
    exact (State.reached_rpoints ..).trans h.unlogged

variable (h : Arriving s id m) (hr : m.isReply = false) (hc : (s.ctx m.toCtx).st ≠ .created)
include h hr hc

/-- R242, R244: the arrival of a message that is accepted. -/
theorem Arriving.accepted {i : Img}
    (ha : (s.wakeCore m.toCore).acceptMsg m.toCore m.toCtx m.msg m.fromOtherDie m.linkId = (0, (s.wakeCore m.toCore).tookIn m.toCore m.toCtx i)) :
    evMessageArrival (.flight id) s = some ((s.acceptedAt id m i).msgOutcome id m 0) := by
  rw [h.event, State.ownArrival, if_neg h.not_again, if_neg h.not_held, if_neg h.not_peer]
  simp only [hr, if_neg hc, ha, if_true]
  rw [← State.acceptedAt, State.logForeign_unlogged]
  exact (State.acceptedAt_rpoints ..).trans h.unlogged

/-- R242: a message that is refused has the outcome that its core gives it. -/
theorem Arriving.refused (ha : acceptCode s m.toCore m.toCtx (fld m.msg.hdr 23 16) = code) (h0 : code ≠ 0) :
    evMessageArrival (.flight id) s = some ((s.wakeCore m.toCore).msgOutcome id m code) := by
  have hw : acceptCode (s.wakeCore m.toCore) m.toCore m.toCtx (fld m.msg.hdr 23 16) = code := by rw [acceptCode_wakeCore, ha]
  rw [h.event, State.ownArrival, if_neg h.not_again, if_neg h.not_held, if_neg h.not_peer]
  simp only [hr, if_neg hc, State.acceptMsg_refused m.msg m.fromOtherDie m.linkId (fun e => h0 (hw.symm.trans e)), hw, if_neg h0]

/-- R242: a message that is refused and asks for it is kept for its back-off. -/
theorem Arriving.kept (ha : acceptCode s m.toCore m.toCtx (fld m.msg.hdr 23 16) = code) (h0 : code ≠ 0)
    (hd : m.dst.getLsbD 26 = true) (hn : m.resends < 15) :
    evMessageArrival (.flight id) s = some { s.wakeCore m.toCore with msgs := tset s.msgs id { m with
      waitTill := some ((s.dieOf (m.who.core / 576)).cyc + 5 * 64 * 2 ^ (Nat.min m.resends 8)) } } := by
  have h3 : code ≤ 3 := ha ▸ acceptCode_le ..
  rw [h.refused hr hc ha h0, State.msgOutcome_again h0 h3 hd hn, State.cyc_wakeCore, State.wakeCore_msgs]

/-- R242: a message that is refused for good is reported to its sender. -/
theorem Arriving.reported {fid : Nat} {f : Flight}
    (ha : acceptCode s m.toCore m.toCtx (fld m.msg.hdr 23 16) = code) (h0 : code ≠ 0) (hn : m.dst.getLsbD 26 = false ∨ 15 ≤ m.resends)
    (hm : m.flight = some fid) (hf : tget s.flights fid = some f) :
    evMessageArrival (.flight id) s =
      some { (s.reached id m.toCore).freeReserve m with flights := tset s.flights fid (m.answer f code) } := by
  have hw : tget (s.wakeCore m.toCore).flights fid = some f := by rwa [State.wakeCore_flights]
  rw [h.refused hr hc ha h0, State.msgOutcome_reported h0 hn hm hw, State.reached, State.wakeCore_msgs, State.wakeCore_flights]

/-- What the arrival of an accepted message leaves: its answer, and its core awake with the image that has taken it in. -/
theorem Arriving.accepted_effect {fid : Nat} {f : Flight} {i : Img} (hm : m.flight = some fid) (hf : tget s.flights fid = some f)
    (ha : (s.wakeCore m.toCore).acceptMsg m.toCore m.toCtx m.msg m.fromOtherDie m.linkId = (0, (s.wakeCore m.toCore).tookIn m.toCore m.toCtx i)) :
    ∃ u, evMessageArrival (.flight id) s = some u ∧ u.msgs = tdel s.msgs id ∧ u.flights = tset s.flights fid (m.answer f 0) ∧
      u.links = s.links ∧ u.img m.toCore m.toCtx = i ∧ (u.core m.toCore).power = .active := by
  have hu := h.accepted hr hc ha
  rw [State.msgOutcome_accepted hm (by rwa [State.acceptedAt_flights])] at hu
  exact ⟨_, hu, congrArg (tdel · id) (s.acceptedAt_msgs id m i), congrArg (tset · fid _) (s.acceptedAt_flights id m i),
    s.acceptedAt_links id m i, s.img_acceptedAt id m i, s.power_acceptedAt id m i⟩

end

/-- R247, R74. -/
theorem replyArrivals : Claims.ReplyArrivals := by
  intro s id k m hm hw hb hrel hp hr hk hag hq hrp tag i slot
  have h : Arriving s id m := ⟨hm, hw, hb, hrel, hp, hag, hq, hrp⟩
  have hwoke : ((s.reached id m.toCore).core m.toCore).res = (s.core m.toCore).res := by
    rw [State.core_reached, State.res_wakeCore]
  refine ⟨_, stepOrStay_some (h.reply hr hk), ?_, ?_, ?_, ?_, fun hres => ?_, fun haway => ?_⟩
  · rw [State.sentBy_msgs, State.acceptReply_msgs, State.reached_msgs]
  · rw [State.sentBy_flights, State.acceptReply_flights, State.reached_flights]
  · rw [State.sentBy_links, State.acceptReply_links, State.reached_links]
  · rw [State.core_sentBy, State.core_acceptReply, State.core_reached, State.power_wakeCore]
  · rw [State.img_sentBy, State.acceptReply_resident _ _ _ (hwoke.trans hres), State.img_tookIn, State.img_reached, State.routedSlot_reached]
    rfl
  · rw [State.img_sentBy, State.acceptReply_away _ _ _ (fun e => haway (hwoke.symm.trans e)), State.img_tookIn, State.img_reached, State.ctx_reached,
      State.routedSlot_reached]
    rfl

/-- R40, R74, R242 to R245. -/
theorem messageArrivals : Claims.MessageArrivals := by
  intro s id fid m f hm hfl hf hw hb hrel hp hr hag hq hc hrp tag code outcome mine
  have h : Arriving s id m := ⟨hm, hw, hb, hrel, hp, hag, hq, hrp⟩
  by_cases h0 : code = 0
  · obtain ⟨i, ha, hres, haway⟩ := State.acceptMsg_accepted m.msg m.fromOtherDie m.linkId
      ((acceptCode_wakeCore s m.toCore m.toCtx m.toCore (fld m.msg.hdr 23 16)).trans h0)
    obtain ⟨u, hu, hmsgs, hflights, hlinks, himg, hpower⟩ := h.accepted_effect hr hc hfl hf ha
    rw [State.res_wakeCore] at hres haway
    exact ⟨u, stepOrStay_some hu, fun _ => ⟨hmsgs, hflights, hlinks, fun hy k hk => himg.trans (hres hy k hk),
      fun hn => himg.trans (haway hn)⟩, hpower, fun hn => absurd h0 hn⟩
  · by_cases hd : m.dst.getLsbD 26 = true ∧ m.resends < 15
    · obtain ⟨hretry, hfew⟩ := hd
      exact ⟨_, stepOrStay_some (h.kept hr hc rfl h0 hretry hfew), fun hy => absurd hy h0, s.power_wakeCore m.toCore,
        fun _ => ⟨fun _ _ => rfl, fun hstop => absurd ⟨hretry, hfew⟩ (MFlight.not_retried_iff.mpr hstop)⟩⟩
    · have hu := h.reported hr hc rfl h0 (MFlight.not_retried_iff.mp hd) hfl hf
      refine ⟨_, stepOrStay_some hu, fun hy => absurd hy h0, ?_, fun _ => ⟨fun hy hn => absurd ⟨hy, hn⟩ hd, fun _ =>
        ⟨(State.freeReserve_msgs ..).trans (s.reached_msgs id m.toCore), rfl, fun hn => ?_, fun k lid hk => ?_⟩⟩⟩
      · refine (congrArg Core.power (State.core_freeReserve (s.reached id m.toCore) m m.toCore)).trans ?_
        rw [State.core_reached, State.power_wakeCore]
      · rw [State.freeReserve_none hn]
        exact ⟨s.reached_imgs id m.toCore, s.reached_links id m.toCore⟩
      · rw [State.freeReserve_some hk, State.img_reached]
        exact ⟨congrArg (tdel · lid) (s.reached_links id m.toCore), congrArg (tset · _ _) (s.reached_imgs id m.toCore)⟩

/-! ### Resends (R242, R465) -/

/-- R242: a message that is sent again. -/
def State.resent (s : State) (m : MFlight) : MFlight :=
  { m with waitTill := none, resends := m.resends + 1, msg := { m.msg with hdr := m.msg.hdr ||| ((1 : DWord) <<< 27) },
           port := if m.peer then s.peerPort (m.dst.extractLsb' 36 10).toNat (m.dst.extractLsb' 0 16).toNat else none }

section
variable {s : State} {id t : Nat} {m : MFlight}

theorem evMessageResend_due (hm : tget s.msgs id = some m) (hw : m.waitTill = some t) (ht : t ≤ (s.dieOf (m.who.core / 576)).cyc) :
    evMessageResend id s = some (s.putMsg id (s.resent m)) := by
  have hdue : t ≤ (s.dieOf (dieOfCore m.who.core)).cyc := ht
  simp only [evMessageResend, hm, hw, if_pos hdue, setFld_bit]
  rfl

/-- R461: a message for a core of its sender's die leaves on no link, one for another die's on its sender's. -/
theorem MFlight.link_near (hp : m.peer = false) (hd : m.toCore / 576 = m.who.core / 576) : m.link = none := by
  simp [MFlight.link, hp, dieLinkFor, dieOfCore, hd]

theorem MFlight.link_far (hp : m.peer = false) (hd : m.toCore / 576 ≠ m.who.core / 576) : m.link = some (.die (m.who.core / 576)) := by
  simp [MFlight.link, hp, dieLinkFor, dieOfCore, hd]

theorem MFlight.link_peer (hp : m.peer = true) : m.link = m.port.map LinkName.port := if_pos hp

/-- A message is put on the link that it leaves on. -/
theorem State.putMsg_link {l : Option LinkName} (h : m.link = l) :
    s.putMsg id m = { s with msgs := tset s.msgs id m }.sendFlit l id := by rw [State.putMsg, h]

end

/-- R242, R465. -/
theorem messageResends : Claims.MessageResends := by
  intro s id t m hm hw ht again sent
  have hnext : exec (.messageResend id) s = .next (s.putMsg id again) := stepOrStay_some (evMessageResend_due hm hw ht)
  rw [hnext]
  exact ⟨fun hp hd => congrArg _ (State.putMsg_link (m := again) (MFlight.link_near hp hd)),
    fun hp hd => congrArg _ (State.putMsg_link (m := again) (MFlight.link_far hp hd)),
    fun hp => congrArg _ (State.putMsg_link (m := again) (MFlight.link_peer hp))⟩

/-- Settles O24, from what each outcome of an arrival leaves: taken in, kept for its back-off, or reported. -/
theorem messages : Obligations.Messages := ⟨messageArrivals, replyArrivals, messageResends⟩

end Sys2Proof.Machine
end

section
/-! PROOFS. Atomics (O19; R104, R118, R223, R227, R228). -/
namespace Sys2Proof.Machine
open Safety

/-! ### Values -/

/-- R11: the bytes of a number are its bytes, lowest first. -/
theorem toBytes_eq_map (n v : Nat) : toBytes n v = (List.range n).map (byteOf v) := by
  induction n generalizing v with
  | zero => rfl
  | succ n ih =>
    have hnext (i : Nat) : byteOf (v / 256) i = byteOf v (i + 1) := by
      rw [byteOf, byteOf, Nat.mul_add, Nat.mul_one, Nat.add_comm (8 * i), Nat.shiftRight_add, Nat.shiftRight_eq_div_pow v 8]
    rw [List.range_succ_eq_map, List.map_cons, List.map_map, toBytes, ih]
    exact congrArg (List.cons _) (List.map_congr_left fun i _ => hnext i)

/-- R227: the new value of an `amo`, by the signed and unsigned orders of its words. -/
theorem amoNew_eq_amoResult (op : AmoOp) (old v : DWord) : amoNew op old v = amoResult op old v := by
  cases op with
  | min | max => simp only [amoNew, amoResult, BitVec.slt, decide_eq_true_eq]
  | minu | maxu => simp only [amoNew, amoResult, BitVec.ult, decide_eq_true_eq]
  | _ => rfl

/-! ### The round trips, images and unit that an operation leaves as they are -/

/-- What each element's step leaves, all of them leave. -/
theorem foldl_keeps {α β : Type} {f : State → α → State} (p : State → β) (h : ∀ s x, p (f s x) = p s) (l : List α) (s : State) :
    p (l.foldl f s) = p s := by
  induction l generalizing s with
  | nil => rfl
  | cons x l ih => exact (ih _).trans (h s x)

/-- The round trips, the images of contexts and the unit. -/
def State.trips (s : State) : Tab Flight × Tab Img × UnitCtx := (s.flights, s.imgs, s.unit)

section
variable {s t : State} (h : t.trips = s.trips)
include h

theorem State.flights_of_trips : t.flights = s.flights := congrArg Prod.fst h
theorem State.imgs_of_trips : t.imgs = s.imgs := congrArg (·.2.1) h
theorem State.unit_of_trips : t.unit = s.unit := congrArg (·.2.2) h
theorem State.me_of_trips : t.me = s.me := by
  simp only [State.me, State.img, State.imgs_of_trips h, State.unit_of_trips h]

end

section
variable (s : State)

@[simp] theorem State.claim_trips (a n : Nat) : (s.claim a n).trips = s.trips := by
  simp only [State.claim]
  split <;> rfl

@[simp] theorem State.putBytes_trips (a : Nat) (bs : Bytes) : (s.putBytes a bs).trips = s.trips :=
  s.claim_trips a bs.length

@[simp] theorem State.orPte_trips (place bits : Nat) : (s.orPte place bits).trips = s.trips := by
  simp only [State.orPte]
  refine (State.putBytes_trips ..).trans ?_
  split <;> rfl

@[simp] theorem State.joinFifo_trips (q : Queue) : (s.joinFifo q).trips = s.trips := by
  simp only [State.joinFifo]
  (repeat' split) <;> rfl

/-- An enqueue, or the state as it was where the ring has no space. -/
@[simp] theorem State.enqueue_trips (q : Nat) (v : DWord) : ((s.enqueue q v).getD s).trips = s.trips := by
  simp only [State.enqueue]
  split
  · split
    · exact (State.joinFifo_trips ..).trans (State.putBytes_trips ..)
    · rfl
  · rfl

@[simp] theorem State.logDirty_trips (ctx : Nat) (v : DWord) : (s.logDirty ctx v).trips = s.trips := by
  simp only [State.logDirty]
  split
  · rfl
  · split
    · split
      · exact State.enqueue_trips ..
      · split
        · exact State.enqueue_trips ..
        · rfl
    · rfl

variable {s}

/-- R82, R84, R350: a translation that passes leaves marks in its entry and, where the page is newly dirty, in the ring. -/
theorem translate_trips {ctx right : Nat} {die : Option Nat} {a : DWord} {write : Bool} {r : State × Target × Nat}
    (h : translate s ctx die a right write = .ok r) : r.1.trips = s.trips := by
  simp only [translate] at h
  (repeat' split at h) <;> cases h
  · exact (State.logDirty_trips ..).trans (State.orPte_trips ..)
  · exact State.logDirty_trips ..
  · exact State.orPte_trips ..
  · rfl

theorem State.resolve_trips {core ctx size : Nat} {k : AccKind} {a : DWord} {u : State} {t : Target}
    (h : s.resolve core ctx k a size = .ok (u, t)) : u.trips = s.trips := by
  simp only [State.resolve, State.resolveOn, Except.map] at h
  (repeat' split at h) <;> cases h
  case h_2 ht => exact translate_trips ht
  all_goals rfl

end

section
variable (s : State)

@[simp] theorem State.underScope_trips (sc : Scope) : (underScope s sc).trips = s.trips := by
  simp only [underScope, State.demote]
  (repeat' split) <;> rfl

@[simp] theorem State.underScope_rels (sc : Scope) : (underScope s sc).rels = s.rels := by
  simp only [underScope, State.demote]
  (repeat' split) <;> rfl

@[simp] theorem State.takes_trips (who : Who) (id : Nat) : (s.takes who id).trips = s.trips := by
  simp only [State.takes]
  split <;> rfl

@[simp] theorem State.acquireAt_trips (who : Who) (key len : Nat) (sc : Scope) (at' : Option Nat) :
    (s.acquireAt who key len sc at').trips = s.trips :=
  foldl_keeps State.trips (fun s id => s.takes_trips who id) ..

@[simp] theorem State.noteRead_trips (who : Who) (id : Nat) (t : Target) (n : Nat) : (s.noteRead who id t n).trips = s.trips := by
  simp only [State.noteRead]
  split <;> rfl

@[simp] theorem State.hasRead_trips (who : Who) (id : Nat) (t : Target) (n : Nat) (acq : Option Scope) :
    (s.hasRead who id t n acq).trips = s.trips := by
  simp only [State.hasRead]
  split
  · exact (State.acquireAt_trips ..).trans (State.noteRead_trips ..)
  · exact State.noteRead_trips ..

@[simp] theorem State.publishAt_trips (who : Who) (id key len : Nat) (sc : Scope) (since pos : Nat) :
    (s.publishAt who id key len sc since pos).trips = s.trips := by
  simp only [State.publishAt]
  split <;> rfl

@[simp] theorem State.hasReleased_trips (who : Who) (id : Nat) (t : Target) (n : Nat) (rel : Option Scope) (since : Nat) :
    (s.hasReleased who id t n rel since).trips = s.trips := by
  simp only [State.hasReleased]
  split
  · exact State.publishAt_trips ..
  · rfl

@[simp] theorem State.sendFlit_trips (n : Option LinkName) (pkt : Nat) : (s.sendFlit n pkt).trips = s.trips := by
  simp only [State.sendFlit]
  split <;> rfl

end

/-! ### The round trips that a write leaves as they are -/

section
variable (s : State)

@[simp] theorem State.putBytes_flights (a : Nat) (bs : Bytes) : (s.putBytes a bs).flights = s.flights :=
  State.flights_of_trips (s.putBytes_trips a bs)

@[simp] theorem State.putCage_flights (core ctx off : Nat) (v : DWord) : (s.putCage core ctx off v).flights = s.flights := rfl

/-- R75: a byte of a cage is a field of an image. -/
@[simp] theorem State.setCageByte_flights (core ctx off : Nat) (b : Byte) : (s.setCageByte core ctx off b).flights = s.flights := by
  simp only [State.setCageByte, State.setCage]
  exact foldl_keeps State.flights (fun u (o : Nat × DWord) => u.putCage_flights core ctx o.1 o.2) ..

@[simp] theorem State.writeBytes_flights (a : Nat) (bs : Bytes) : (s.writeBytes a bs).flights = s.flights := by
  simp only [State.writeBytes]
  split
  · exact s.putBytes_flights ..
  · split
    · exact s.putBytes_flights ..
    · refine foldl_keeps State.flights (fun u b => ?_) ..
      split
      · exact u.setCageByte_flights ..
      · exact u.putBytes_flights ..

@[simp] theorem State.rekey_flights (ctx a n : Nat) : (s.rekey ctx a n).flights = s.flights := by
  simp only [State.rekey]
  split
  · rfl
  · split
    · rfl
    · refine foldl_keeps State.flights (fun u i => ?_) ..
      split
      · split
        · rfl
        · exact u.putBytes_flights ..
      · rfl

@[simp] theorem State.overwritten_flights (a n : Nat) : (s.overwritten a n).flights = s.flights := by
  simp only [State.overwritten]
  split <;> rfl

@[simp] theorem State.touchFills_flights (ctx a n : Nat) : (s.touchFills ctx a n).flights = s.flights := by
  simp only [State.touchFills]
  split
  · rfl
  · refine foldl_keeps State.flights (fun u i => ?_) ..
    split <;> rfl

@[simp] theorem State.writeTarget_flights (ctx : Nat) (t : Target) (bs : Bytes) : (s.writeTarget ctx t bs).flights = s.flights := by
  cases t with
  | mem a => simp only [State.writeTarget, State.touchFills_flights, State.writeBytes_flights, State.overwritten_flights, State.rekey_flights]
  | host p a => exact s.putBytes_flights ..
  | _ => rfl

end

/-! ### A fibre that is swapped out (R63, R223) -/

section
variable (s : State)

@[simp] theorem State.emptyX_streams (r : Reg) : (s.emptyX r).me.streams = s.me.streams := by
  simp only [State.emptyX]
  split
  · rfl
  · split
    · rw [State.setMe_me]
    · rw [State.setMyFibre, State.setMe_me, Img.setFibre_streams]

/-- A round trip that starts leaves every stream where it was. -/
@[simp] theorem State.swapOut_streams (r : Reg) (job : Job) (rel acq : Option Scope) (dva : DWord) :
    (s.swapOut (.x r) job rel dva acq).me.streams = s.me.streams := by
  simp only [State.swapOut, State.setMyFibre, State.setMe_me, Img.setFibre_streams, State.markEmpty, State.emptyX_streams]
  refine congrArg Img.streams ((State.me_of_trips (foldl_keeps State.trips (fun u t => ?_) _ _)).trans rfl)
  exact u.sendFlit_trips ..

end

/-! ### What an atomic leaves at its target (R104, R227, R228) -/

/-- R118, R122: an atomic takes its place in the coherence order of its line, where its target has a home. -/
def State.atHome (s : State) (t : Target) : State := if t.homed then { s.seenBy true none t.flat with fresh := s.fresh + 1 } else s

section
variable (s : State) (w : Who) (t : Target)

/-- R227, R228: the old value that an atomic reads. -/
def State.oldAt : DWord := BitVec.ofNat 64 ((s.atHome t).readNum w t 8)

/-- R227, R228: an atomic has written a value. -/
def State.leftAt (v : DWord) : State :=
  { (s.atHome t).writeTarget w.ctx t ((List.range 8).map (byteOf v.toNat)) with rels := s.rels }

variable {t}

theorem State.atHome_unhomed (h : t.homed = false) : s.atHome t = s := by simp [State.atHome, h]

theorem State.oldAt_unhomed (h : t.homed = false) : s.oldAt w t = BitVec.ofNat 64 (s.readNum w t 8) := by
  rw [State.oldAt, State.atHome_unhomed s h]

theorem State.leftAt_unhomed (h : t.homed = false) (v : DWord) :
    s.leftAt w t v = { s.writeTarget w.ctx t ((List.range 8).map (byteOf v.toNat)) with rels := s.rels } := by
  rw [State.leftAt, State.atHome_unhomed s h]

variable (t)

theorem State.atHome_rels : (s.atHome t).rels = s.rels := by
  simp only [State.atHome]
  split <;> rfl

theorem State.atHome_flights : (s.atHome t).flights = s.flights := by
  simp only [State.atHome]
  split <;> rfl

theorem State.leftAt_flights (v : DWord) : (s.leftAt w t v).flights = s.flights :=
  (State.writeTarget_flights ..).trans (s.atHome_flights t)

variable {s w t} {f : Nat → Option Nat}

/-- A read-modify-write of a dword that has a new value writes it. -/
theorem State.rmw_some {v : DWord} (h : f ((s.atHome t).readNum w t 8) = some v.toNat) :
    s.rmw w t 8 f = ((s.atHome t).readNum w t 8, s.leftAt w t v) := by
  rw [State.leftAt, ← toBytes_eq_map, ← s.atHome_rels t]
  simp only [State.atHome] at h ⊢
  simp only [State.rmw, h]

/-- A read-modify-write that has none writes nothing. -/
theorem State.rmw_none (h : f ((s.atHome t).readNum w t 8) = none) : s.rmw w t 8 f = ((s.atHome t).readNum w t 8, s.atHome t) := by
  simp only [State.atHome] at h ⊢
  simp only [State.rmw, h]

variable (s w t)

theorem atomicAt_amo (u : Target) (op : AmoOp) (v : DWord) :
    atomicAt s w t (.amo u op v) = (s.oldAt w t, s.leftAt w t (amoAt t op (s.oldAt w t) v)) := by
  rw [atomicAt, State.rmw_some (f := fun old => some (amoAt t op (dw old) v).toNat) rfl]
  rfl

/-- R228: a `cas` writes where the old value is the expected one. -/
theorem atomicAt_cas (u : Target) (e v : DWord) :
    atomicAt s w t (.cas u e v) = (s.oldAt w t, if s.oldAt w t = e then s.leftAt w t v else s.atHome t) := by
  by_cases h : s.oldAt w t = e
  · rw [atomicAt, State.rmw_some (if_pos h), if_pos h]
    rfl
  · rw [atomicAt, State.rmw_none (if_neg h), if_neg h]
    rfl

end

/-! ### An atomic that issues (R227, R228) -/

section
variable {s u : State} {t : Target} {k : AccKind} {a : DWord} {size : Nat}

theorem State.access_misaligned (h : a.toNat % size ≠ 0) : s.access k a size = .error (.trap .align a (dw size)) := by
  simp [State.access, guardC, h, bind, Except.bind]

theorem State.access_aligned (h : a.toNat % size = 0) (hr : s.resolve s.unit.core s.unit.ctx k a size = .ok (u, t)) :
    s.access k a size = .ok (u, t) := by
  simp [State.access, guardC, h, hr, chk, bind, Except.bind]

/-- R131, R457: the scope field of a word. -/
theorem State.scope_eq (s : State) (sc : Scope) : s.scope sc = (underScope s sc, inEffect s sc) := by
  simp only [State.scope, underScope, inEffect]
  split <;> rfl

theorem State.slotFree_ok (h : SlotFree s) : s.slotFree = .ok () := if_pos h

/-- A target in a scratchpad has no home. -/
theorem Target.not_homed_of_ownSpad {core : Nat} (h : t.ownSpad core = true) : t.homed = false := by
  cases t with
  | mem a =>
    simp only [Target.ownSpad] at h
    split at h
    · next hs =>
      simp only [spadOf] at hs
      split at hs
      · simp only [Target.homed, isHomed, decide_eq_false_iff_not]
        omega
      · cases hs
    · cases h
  | _ => rfl

variable {rd : Reg} {sc : Scope} {add : Bool} {job : Target → Job} {os : List Opnd}

theorem atomic_misaligned (h : a.toNat % 8 ≠ 0) : atomic rd a sc add job os s = .error (.trap .align a 8) := by
  simp only [atomic, State.access_misaligned h, bind, Except.bind]
  rfl

variable (ha : a.toNat % 8 = 0) (hr : s.resolve s.unit.core s.unit.ctx (.amo add) a 8 = .ok (u, t)) (hos : s.settle os = .ok ())
include ha hr hos

/-- R227, R228: in its own cluster's scratchpad an atomic is performed as its unit issues. -/
theorem atomic_own (ho : t.ownSpad s.unit.core = true) (hread : s.readHeld s.who s.fresh t 8 = false)
    (hmat : s.matrixHolds s.who s.fresh t 8 true = false) (hord : s.orderKept s.who s.fresh true (inEffect u sc) = true) :
    atomic rd a sc add job os s =
      .ok ((((atomicAt (underScope u sc) s.who t (job t)).2.hasRead s.who s.fresh t 8 (inEffect u sc)).hasReleased s.who s.fresh t 8
        (inEffect u sc) (underScope u sc).fresh).writeX rd (atomicAt (underScope u sc) s.who t (job t)).1, .fall) := by
  simp [atomic, State.access_aligned ha hr, hos, State.scope_eq, ho, hread, hmat, hord, bind, Except.bind]

/-- R63, R223: elsewhere its fibre waits for the answer. -/
theorem atomic_away (ho : t.ownSpad s.unit.core = false) (hslot : SlotFree s) :
    atomic rd a sc add job os s = .ok ((underScope u sc).swapOut (.x rd) (job t) (inEffect u sc) a (inEffect u sc), .fall) := by
  simp [atomic, State.access_aligned ha hr, hos, State.scope_eq, ho, State.slotFree_ok hslot, bind, Except.bind]

end

section
variable {s u : State} {t : Target} {a : DWord} {add : Bool} {job : Target → Job} {i : Instr} {rd : Reg} {sc : Scope} {os : List Opnd}

variable (hi : i.isEncoded = true) (hal : Alone s i) (he : effOf i s = atomic rd a sc add job os s)
include hi hal he

theorem exec_atomic_misaligned (h : a.toNat % 8 ≠ 0) : exec i s = .next (s.stopUnit s.unit.wh (.trap .align a 8)) :=
  exec_stops hi hal (he.trans (atomic_misaligned h))

variable (ha : a.toNat % 8 = 0) (hr : s.resolve s.unit.core s.unit.ctx (.amo add) a 8 = .ok (u, t)) (hos : s.settle os = .ok ())
include ha hr hos

theorem exec_atomic_own {old : DWord} {v : State} (ho : t.ownSpad s.unit.core = true) (hread : s.readHeld s.who s.fresh t 8 = false)
    (hmat : s.matrixHolds s.who s.fresh t 8 true = false) (hord : s.orderKept s.who s.fresh true (inEffect u sc) = true)
    (hjob : atomicAt (underScope u sc) s.who t (job t) = (old, v)) (hf : v.flights = (underScope u sc).flights) :
    exec i s = .next (s.commit (((v.hasRead s.who s.fresh t 8 (inEffect u sc)).hasReleased s.who s.fresh t 8
        (inEffect u sc) (underScope u sc).fresh).writeX rd old) .fall) := by
  refine exec_alone_flights hi hal (by rw [he, atomic_own ha hr hos ho hread hmat hord, hjob]) ?_
  rw [State.writeX_flights, State.flights_of_trips (State.hasReleased_trips ..), State.flights_of_trips (State.hasRead_trips ..), hf,
    State.flights_of_trips (State.underScope_trips ..), State.flights_of_trips (State.resolve_trips hr)]

theorem exec_atomic_away (ho : t.ownSpad s.unit.core = false) (hslot : SlotFree s) :
    exec i s = .next (s.commit ((underScope u sc).swapOut (.x rd) (job t) (inEffect u sc) a (inEffect u sc)) .fall) := by
  refine exec_alone_streams hi hal (he.trans (atomic_away ha hr hos ho hslot)) ?_
  rw [State.swapOut_streams, State.me_of_trips (State.underScope_trips ..), State.me_of_trips (State.resolve_trips hr)]

end

section
variable {s : State} {rd : Reg} {ra rb : Src} (sc : Scope) (ha : XIn s ra) (hb : XIn s rb)
include ha hb

theorem amoOps_met (hd : XOut s rd) : ∀ o ∈ [Opnd.dx rd, .x ra, .x rb], XMet s o := by
  simp only [List.forall_mem_cons]
  exact ⟨hd, ha, hb, fun _ h => absurd h List.not_mem_nil⟩

theorem casOps_met (hd : XIn s ⟨rd, false⟩) : ∀ o ∈ [Opnd.x ⟨rd, false⟩, .x ra, .x rb], XMet s o := by
  simp only [List.forall_mem_cons]
  exact ⟨hd, ha, hb, fun _ h => absurd h List.not_mem_nil⟩

omit hb in
theorem addressOp_met : ∀ o ∈ [Opnd.x ra], XMet s o := List.forall_mem_singleton.mpr ha

theorem effOf_amo (op : AmoOp) (hd : XOut s rd) :
    effOf (.amo op rd ra rb sc) s = atomic rd (s.xVal ra.r) sc (op == .add) (fun t => .amo t op (s.xVal rb.r)) [.dx rd, .x ra, .x rb] s := by
  simp only [effOf, effAmo, enterFor_met _ _ (addressOp_met ha) (amoOps_met ha hb hd), bind, Except.bind]

theorem effOf_cas (hd : XIn s ⟨rd, false⟩) :
    effOf (.cas rd ra rb sc) s =
      atomic rd (s.xVal ra.r) sc false (fun t => .cas t (s.xVal rd) (s.xVal rb.r)) [.x ⟨rd, false⟩, .x ra, .x rb] s := by
  simp only [effOf, effCas, enterFor_met _ _ (addressOp_met ha) (casOps_met ha hb hd), bind, Except.bind]

end

/-- R104, R227: the new value at a place in memory. -/
theorem amoAt_mem (b : Nat) (op : AmoOp) (old v : DWord) : amoAt (.mem b) op old v = amoResult op old v := amoNew_eq_amoResult op old v

/-- R118, R227, R228. -/
theorem atomicResults : Claims.AtomicResults := by
  intro s op rd ra rb sc ha hb a v ordered
  constructor
  · intro hal hd
    have he := effOf_amo sc ha hb op hd
    have hos := settle_met _ (amoOps_met ha hb hd)
    refine ⟨exec_atomic_misaligned rfl hal he, fun u t ha8 hr => ⟨fun ho hread hmat hord b hm => ?_, fun ho hslot =>
      (exec_atomic_away rfl hal he ha8 hr hos ho hslot :)⟩⟩
    have hn := Target.not_homed_of_ownSpad ho
    have hexec := exec_atomic_own rfl hal he ha8 hr hos ho hread hmat hord (atomicAt_amo _ _ t t op v) (State.leftAt_flights _ _ t _)
    rw [State.leftAt_unhomed _ _ hn, State.oldAt_unhomed _ _ hn, State.underScope_rels] at hexec
    subst hm
    rw [amoAt_mem] at hexec
    exact hexec
  · intro hal hd
    have he := effOf_cas sc ha hb hd
    have hos := settle_met _ (casOps_met ha hb hd)
    refine ⟨exec_atomic_misaligned rfl hal he, fun u t ha8 hr => ⟨fun ho hread hmat hord b hm => ?_, fun ho hslot =>
      (exec_atomic_away rfl hal he ha8 hr hos ho hslot :)⟩⟩
    have hn := Target.not_homed_of_ownSpad ho
    have hexec := exec_atomic_own rfl hal he ha8 hr hos ho hread hmat hord (atomicAt_cas _ _ t t (s.xVal rd) v) (by
      split
      · exact State.leftAt_flights ..
      · exact State.atHome_flights ..)
    rw [State.leftAt_unhomed _ _ hn, State.oldAt_unhomed _ _ hn, State.atHome_unhomed _ hn, State.underScope_rels] at hexec
    exact hexec

/-! ### The answer of an atomic (R104, R223, R227, R228) -/

section
variable {s : State} {id : Nat} {f : Flight} {t : Target} {r : Reg}

/-- An atomic that nothing holds back is performed. -/
theorem State.landAtomic_here (hread : s.readHeld f.who id t 8 = false) (hmat : s.matrixHolds f.who id t 8 true = false)
    (hord : s.orderKept f.who id true f.rel = true) (hadm : ∀ a, t = .mem a → s.admittedBy id a 8 = false) (hp : t.isPeer = false) :
    s.landAtomic id f t .here = some ((((atomicAt s f.who t f.job).2.hasRead f.who id t 8 f.acq).hasReleased f.who id t 8 f.rel
      s.fresh).land id f (atomicAt s f.who t f.job).1.toNat) := by
  have hheld : s.atomicHeld id f t = false := by simp [State.atomicHeld, hread, hmat, hord]
  cases t with
  | mem a => simp [State.landAtomic, hheld, hadm a rfl, Target.isPeer]
  | peer pkg off => cases hp
  | _ => simp [State.landAtomic, hheld, Target.isPeer]

/-- R223: the value of an answer fills the x register that awaits it. -/
theorem State.land_x (u : State) (hd : f.dst = .x r) (v : DWord) :
    u.land id f v.toNat = ({ u with flights := tdel u.flights id }.fillX f.who r v).landWake f.who := by
  simp only [State.land, State.deliver, hd, dw, BitVec.ofNat_toNat, BitVec.setWidth_eq]

theorem Flight.targets_amo {op : AmoOp} {v : DWord} (h : f.job = .amo t op v) : f.targets = [t] := by simp [Flight.targets, Flight.spans, h]
theorem Flight.targets_cas {e v : DWord} (h : f.job = .cas t e v) : f.targets = [t] := by simp [Flight.targets, Flight.spans, h]

variable (hf : tget s.flights id = some f) (href : s.refusedAt f.who.ctx (some (f.who.core / 576)) t = false) (hlink : s.linkPassed id = true)
include hf href hlink

theorem evAnswerArrival_amo {op : AmoOp} {v : DWord} (h : f.job = .amo t op v) (ans : Answer) :
    evAnswerArrival id ans s = s.landAtomic id f t ans := by
  have hdie : s.refusedAt f.who.ctx (some (dieOfCore f.who.core)) t = false := href
  simp [evAnswerArrival, hf, hlink, Flight.targets_amo h, hdie, h]

theorem evAnswerArrival_cas {e v : DWord} (h : f.job = .cas t e v) (ans : Answer) :
    evAnswerArrival id ans s = s.landAtomic id f t ans := by
  have hdie : s.refusedAt f.who.ctx (some (dieOfCore f.who.core)) t = false := href
  simp [evAnswerArrival, hf, hlink, Flight.targets_cas h, hdie, h]

end

/-- R115: written or not, an atomic's target keeps what was released there. -/
theorem State.leftAt_or_kept (s : State) (w : Who) (t : Target) (v : DWord) (c : Prop) [Decidable c] :
    (if c then s.leftAt w t v else s.atHome t) =
      { (if c then (s.atHome t).writeTarget w.ctx t ((List.range 8).map (byteOf v.toNat)) else s.atHome t) with rels := s.rels } := by
  split
  · rfl
  · rw [← s.atHome_rels t]

/-- A semaphore's count is its old value. -/
theorem State.oldAt_sem (s : State) (w : Who) (cl : Nat) {i : Nat} (h : i < 16) :
    s.oldAt w (.sem cl i) = BitVec.ofNat 64 ((s.cluster cl).hs[i]).toNat := by
  have hget : (s.cluster cl).hs.toArray.getD i 0 = (s.cluster cl).hs[i] := by simp [Array.getD, h]
  rw [State.oldAt_unhomed _ _ rfl, State.readNum, State.readTarget]
  simp only [hget, Nat.zero_mod, List.drop_zero, List.take_of_length_le (Nat.le_of_eq (toBytes_length 8 _)), ofBytes_toBytes]
  have hlt : (dw ((s.cluster cl).hs[i]).toNat).toNat = ((s.cluster cl).hs[i]).toNat := by
    rw [dw, BitVec.toNat_ofNat]
    omega
  rw [hlt, Nat.mod_eq_of_lt (by omega)]

/-- R104: a semaphore takes the low 16 bits of what is written. -/
theorem State.leftAt_sem (s : State) (w : Who) (cl : Nat) {i : Nat} (h : i < 16) (v : DWord) :
    s.leftAt w (.sem cl i) v = s.setCluster cl { s.cluster cl with hs := (s.cluster cl).hs.set i (v.setWidth 16) } := by
  have hlow : BitVec.ofNat 16 (ofBytes (toBytes 8 v.toNat) % 2 ^ 16) = v.setWidth 16 := by
    apply BitVec.eq_of_toNat_eq
    rw [ofBytes_toBytes]
    simp
  rw [State.leftAt_unhomed _ _ rfl, ← toBytes_eq_map]
  have hset : (s.cluster cl).hs.setIfInBounds i (v.setWidth 16) = (s.cluster cl).hs.set i (v.setWidth 16) :=
    Vector.toArray_inj.mp (dif_pos (by simp [h]))
  simp only [State.writeTarget, State.setSem, hlow, hset]
  rfl

/-- R104: the sum at a semaphore saturates. -/
theorem amoAt_sem (cl i : Nat) (op : AmoOp) (old v : DWord) :
    (amoAt (.sem cl i) op old v).setWidth 16 = BitVec.ofNat 16 (Nat.min 65535 (old.toNat + v.toNat % 65536)) :=
  BitVec.setWidth_ofNat_of_le (by decide) _

/-- R104, R223, R227, R228. -/
theorem atomicAnswers : Claims.AtomicAnswers := by
  intro s id f t r hf hd hread hmat hord href hadm hlink w fin
  have hfin (u : State) (v : DWord) (hp : t.isPeer = false) (hat : atomicAt s w t f.job = (v, { u with rels := s.rels })) :
      s.landAtomic id f t .here = some (fin u v) := by
    rw [State.landAtomic_here hread hmat hord hadm hp, hat, State.land_x _ hd]
  refine ⟨fun a op v hj ht => ?_, fun a e v hj ht => ?_, fun cl i v hj ht hi => ?_⟩
  · subst ht
    have hat := atomicAt_amo s w (.mem a) (.mem a) op v
    rw [amoAt_mem] at hat
    exact stepOrStay_some ((evAnswerArrival_amo hf href hlink hj _).trans (hfin _ _ rfl (hj ▸ hat)))
  · subst ht
    have hat := atomicAt_cas s w (.mem a) (.mem a) e v
    rw [State.leftAt_or_kept] at hat
    exact stepOrStay_some ((evAnswerArrival_cas hf href hlink hj _).trans (hfin _ _ rfl (hj ▸ hat)))
  · subst ht
    have hat := atomicAt_amo s w (.sem cl i) (.sem cl i) .add v
    rw [State.leftAt_sem _ _ _ hi, amoAt_sem, State.oldAt_sem _ _ _ hi] at hat
    have hsum : (BitVec.ofNat 64 ((s.cluster cl).hs[i]).toNat).toNat = ((s.cluster cl).hs[i]).toNat := by
      rw [BitVec.toNat_ofNat]
      omega
    rw [hsum] at hat
    exact stepOrStay_some ((evAnswerArrival_amo hf href hlink hj _).trans (hfin _ _ rfl (hj ▸ hat)))

/-- Settles O19: the old value that an atomic reads and what it leaves are said once, for its issue and for its answer. -/
theorem atomics : Obligations.Atomics := ⟨atomicResults, atomicAnswers⟩

end Sys2Proof.Machine
end

section
/-! PROOFS. Virtual functions and the windows of a host (O45; R39, R82, R124, R134, R347, R348, R469, R496). -/
namespace Sys2Proof.Machine
open Safety

/-! ### The registers of a virtual function (R347, R348) -/

/-- R347: a binding names a context that another virtual function is bound to. -/
def State.boundElsewhere (s : State) (n : Nat) (b : DWord) : Prop := b.getLsbD 63 = true ∧ ∃ p ∈ s.vfs, p.1 ≠ n ∧ p.2.bind = b

theorem State.boundElsewhere_iff (s : State) (n : Nat) (b : DWord) :
    (b.getLsbD 63 && s.vfs.any fun p => p.1 != n && p.2.bind == b) = true ↔ s.boundElsewhere n b := by
  simp only [State.boundElsewhere, Bool.and_eq_true, List.any_eq_true, bne_iff_ne, beq_iff_eq]

/-- R15: the dword of a bit. -/
theorem dw_b2n (b : Bool) : dw (b2n b) = if b then 1 else 0 := by cases b <;> rfl

section
variable {s : State} {n c : Nat} (v : DWord) (hm : s.boot.mode = 0)
include hm

theorem State.booted_normal : s.booted = true := by simp [State.booted, hm]

theorem evVfBindingWrite_free (hn : n < 1024) (hfree : ¬ s.boundElsewhere n (v &&& 0x80000000FFFF0FFF)) :
    evVfBindingWrite n v s = some (s.setVf n { s.vf n with bind := v &&& 0x80000000FFFF0FFF }) := by
  have hopen : ¬ (1024 ≤ n ∨ !s.booted) := by simp [State.booted_normal hm, hn]
  simp only [evVfBindingWrite, if_neg hopen, if_neg (mt (s.boundElsewhere_iff n _).mp hfree)]

omit hm in
theorem evVfBindingWrite_twice (htwice : s.boundElsewhere n (v &&& 0x80000000FFFF0FFF)) : evVfBindingWrite n v s = none := by
  simp only [evVfBindingWrite, if_pos ((s.boundElsewhere_iff n _).mpr htwice), ite_self]

theorem evLstatRead_unbound (hb : s.bound n = none) : evLstatRead n s = some { s with hostOut := [0] } := by
  simp [evLstatRead, State.booted_normal hm, hb]

theorem evHostLaunchWrite_unbound (hb : s.bound n = none) : evHostLaunchWrite n v s = none := by
  simp [evHostLaunchWrite, State.booted_normal hm, hb]

variable (hb : s.bound n = some c)
include hb

theorem evLstatRead_bound : evLstatRead n s =
    some { s.setVf n { s.vf n with lstat := false } with hostOut := [if (s.vf n).lstat then 1 else 0] } := by
  simp [evLstatRead, State.booted_normal hm, hb, dw_b2n]

/-- R124: a launch waits for the copy that owns the line of the tail. -/
theorem evHostLaunchWrite_owned (h : s.tailOwned (s.ctx c).lq = true) : evHostLaunchWrite n v s = none := by
  simp [evHostLaunchWrite, State.booted_normal hm, hb, h]

theorem evHostLaunchWrite_free (h : s.tailOwned (s.ctx c).lq = false) :
    evHostLaunchWrite n v s = some ((s.enqueue (s.ctx c).lq v).getD (s.setVf n { s.vf n with lstat := true })) := by
  simp [evHostLaunchWrite, State.booted_normal hm, hb, h]

/-- R39, R348: the tolerance of a partition is that of each of its contexts, and its clusters follow it. -/
theorem evLtolWrite_partition (hp : (s.ctx c).part = true) :
    evLtolWrite n v s = some ((nodeClusters (s.ctx c)).foldl State.fitTolerance { s with
      ctxs := s.ctxs.map fun x => (x.1, if s.partitionOf x.1 = c then { x.2 with ltol := v.extractLsb' 0 32 } else x.2) }) := by
  rw [← BitVec.setWidth_eq_extractLsb' (by decide)]
  simp [evLtolWrite, State.booted_normal hm, hb, hp, State.setLtol, State.fitNode]

end

/-- R39, R124, R347, R348. -/
theorem virtualFunctions : Claims.VirtualFunctions := by
  intro s n v hm new twice
  refine ⟨fun hn hf => stepOrStay_some (evVfBindingWrite_free v hm hn hf), fun _ ht => stepOrStay_none (evVfBindingWrite_twice v ht),
    fun hb => ⟨stepOrStay_some (evLstatRead_unbound hm hb), stepOrStay_none (evHostLaunchWrite_unbound v hm hb)⟩,
    fun c hb => ⟨fun h => stepOrStay_none (evHostLaunchWrite_owned v hm hb h), fun h => ⟨fun u hu => ?_, fun hu => ?_⟩,
      stepOrStay_some (evLstatRead_bound hm hb), fun hp => stepOrStay_some (evLtolWrite_partition v hm hb hp)⟩⟩
  · exact stepOrStay_some (by rw [evHostLaunchWrite_free v hm hb h, hu, Option.getD_some])
  · exact stepOrStay_some (by rw [evHostLaunchWrite_free v hm hb h, hu, Option.getD_none])

/-! ### The window of a host (R348, R496) -/

theorem State.clear_length (s : State) (ctx a : Nat) (bs : Bytes) : (s.clear ctx a bs).length = bs.length := by
  simp only [State.clear]
  split
  · rfl
  · split
    · rfl
    · rw [List.length_map, List.length_zipIdx]

/-- R346: a byte as a context reads it, where a host reads it. -/
def State.hostByte (s : State) (c : Nat) (t : Target) : Byte := (s.clear c t.place [s.byteFor (some hostDie) t.place]).getD 0 0

theorem State.clear_hostByte (s : State) (c : Nat) (t : Target) : s.clear c t.place [s.byteFor (some hostDie) t.place] = [s.hostByte c t] := by
  obtain ⟨b, hb⟩ := List.length_eq_one_iff.mp (s.clear_length c t.place [s.byteFor (some hostDie) t.place])
  simp [State.hostByte, hb]

theorem State.barTargets_length {s : State} {ctx n : Nat} {k : AccKind} {a : DWord} {ts : List Target}
    (h : (s.barTargets ctx k a n).2 = some ts) : ts.length = n := by
  induction n generalizing s a ts with
  | zero =>
    cases h
    rfl
  | succ n ih =>
    simp only [State.barTargets] at h
    split at h
    · split at h
      · obtain ⟨l, hl, rfl⟩ := Option.map_eq_some_iff.mp h
        rw [List.length_cons, ih hl]
      · cases h
    · cases h

/-- The dwords of some bytes, lowest first (R11). -/
def dwordsOf (bs : Bytes) (n : Nat) : List DWord := (List.range n).map fun k => dw (ofBytes ((bs.drop (8 * k)).take 8))

/-- A byte of a number is the byte that stands there. -/
theorem ofBytes_byte (bs : Bytes) (i : Nat) : ofBytes bs / 256 ^ i % 256 = (bs.getD i 0).toNat := by
  induction bs generalizing i with
  | nil => simp [ofBytes]
  | cons b bs ih =>
    have hb : b.toNat < 256 := b.isLt
    cases i with
    | zero =>
      simp only [ofBytes, Nat.pow_zero, Nat.div_one, List.getD_cons_zero]
      omega
    | succ i =>
      have hnext : ofBytes (b :: bs) / 256 = ofBytes bs := by
        simp only [ofBytes]
        omega
      rw [Nat.pow_succ', ← Nat.div_div_eq_div_mul, hnext, ih, List.getD_cons_succ]

theorem ofBytes_lt (bs : Bytes) : ofBytes bs < 256 ^ bs.length := by
  induction bs with
  | nil => simp [ofBytes]
  | cons b bs ih =>
    have hb : b.toNat < 256 := b.isLt
    simp only [ofBytes, List.length_cons, Nat.pow_succ]
    omega

/-- A dword of eight bytes or fewer is their number. -/
theorem toNat_dw_ofBytes {bs : Bytes} (h : bs.length ≤ 8) : (dw (ofBytes bs)).toNat = ofBytes bs := by
  rw [dw, BitVec.toNat_ofNat, Nat.mod_eq_of_lt]
  exact Nat.lt_of_lt_of_le (ofBytes_lt bs) (Nat.pow_le_pow_right (by decide) h)

/-- Byte i of the dwords of some bytes is their byte i. -/
theorem dwordsOf_byte {bs : Bytes} {n i : Nat} (h : i / 8 < n) : ((dwordsOf bs n).getD (i / 8) 0).extractLsb' (8 * (i % 8)) 8 = bs.getD i 0 := by
  have hdword : (dwordsOf bs n).getD (i / 8) 0 = dw (ofBytes ((bs.drop (8 * (i / 8))).take 8)) := by
    simp [dwordsOf, List.getD_eq_getElem?_getD, h]
  have hbyte : ((bs.drop (8 * (i / 8))).take 8).getD (i % 8) 0 = bs.getD i 0 := by
    rw [List.getD_eq_getElem?_getD, List.getElem?_take_of_lt (Nat.mod_lt i (by decide)), List.getElem?_drop, Nat.div_add_mod,
      List.getD_eq_getElem?_getD]
  apply BitVec.eq_of_toNat_eq
  rw [hdword, BitVec.extractLsb'_toNat, toNat_dw_ofBytes (List.length_take_le ..), Nat.shiftRight_eq_div_pow, Nat.pow_mul, ← hbyte]
  exact ofBytes_byte ..

section
variable {s u : State} {n off size c : Nat} {ts : List Target} (hm : s.boot.mode = 0) (hb : s.bound n = some c) (hs : off + size ≤ 2 ^ 36)
include hm hb hs

/-- R496: a read that a check stops leaves a record. -/
theorem evHostBar2Read_refused (ht : s.barTargets c .load (s.barDva n off) size = (u, none)) :
    evHostBar2Read n off size s = some (u.barRefused n) := by
  simp only [evHostBar2Read, State.booted_normal hm, hb, if_neg (Nat.not_lt.mpr hs), ht]
  rfl

/-- R124: a read waits for the copy that owns a line of it. -/
theorem evHostBar2Read_owned (ht : s.barTargets c .load (s.barDva n off) size = (u, some ts)) (ho : u.anyOwned ts = true) :
    evHostBar2Read n off size s = none := by
  simp only [evHostBar2Read, State.booted_normal hm, hb, if_neg (Nat.not_lt.mpr hs), ht, if_pos ho]
  rfl

/-- R348: a read returns the bytes that the hosts read, in dwords. -/
theorem evHostBar2Read_free (ht : s.barTargets c .load (s.barDva n off) size = (u, some ts)) (ho : u.anyOwned ts = false) :
    evHostBar2Read n off size s =
      some { ts.foldl State.wakeFor u with hostOut := dwordsOf (ts.map (u.hostByte c)) ((size + 7) / 8) } := by
  simp only [evHostBar2Read, State.booted_normal hm, hb, if_neg (Nat.not_lt.mpr hs), ht, ho, State.clear_hostByte, ← List.map_eq_flatMap]
  rfl

end

section
variable {s u : State} {n off c : Nat} {ts : List Target} {data : Bytes} (relaxed : Bool) (hm : s.boot.mode = 0) (hb : s.bound n = some c)
  (hs : off + data.length ≤ 2 ^ 36)
include hm hb hs

/-- R469: a poisoned write leaves a record alone. -/
theorem evHostBar2Write_poisoned : evHostBar2Write n off data relaxed true s = some (s.barRefused n) := by
  simp only [evHostBar2Write, State.booted_normal hm, hb, if_neg (Nat.not_lt.mpr hs)]
  rfl

/-- R496: a write that a check stops leaves a record. -/
theorem evHostBar2Write_refused (ht : s.barTargets c .store (s.barDva n off) data.length = (u, none)) :
    evHostBar2Write n off data relaxed false s = some (u.barRefused n) := by
  simp only [evHostBar2Write, State.booted_normal hm, hb, if_neg (Nat.not_lt.mpr hs), ht]
  rfl

variable (ht : s.barTargets c .store (s.barDva n off) data.length = (u, some ts))
include ht

/-- R90, R124: a write waits for the copy that owns a line of it, and for the accesses that the entries it changes have admitted. -/
theorem evHostBar2Write_held (ho : u.anyOwned ts = true ∨ u.pushAdmits ts = true) :
    evHostBar2Write n off data relaxed false s = none := by
  simp only [evHostBar2Write, State.booted_normal hm, hb, if_neg (Nat.not_lt.mpr hs), ht, Bool.or_eq_true, if_pos ho]
  rfl

/-- R134, R348: a write stores each of its bytes at its place. -/
theorem evHostBar2Write_free (ho : u.anyOwned ts = false) (hp : u.pushAdmits ts = false) :
    evHostBar2Write n off data relaxed false s = some (u.putEach c (ts.zip data)) := by
  simp only [evHostBar2Write, State.booted_normal hm, hb, if_neg (Nat.not_lt.mpr hs), ht, ho, hp]
  rfl

end

/-- R90, R124, R134, R346, R348, R469, R496. -/
theorem hostWindow : Claims.HostWindow := by
  intro s n off size c data relaxed hm hb a refused
  refine ⟨fun hs => ⟨fun h => ?_, fun ts h => ?_⟩, fun hs => ⟨?_, fun h => ?_, fun ts h => ?_⟩⟩
  · exact stepOrStay_some (evHostBar2Read_refused hm hb hs (Prod.ext rfl h))
  · refine ⟨fun ho => stepOrStay_none (evHostBar2Read_owned hm hb hs (Prod.ext rfl h) ho), fun ho =>
      ⟨_, stepOrStay_some (evHostBar2Read_free hm hb hs (Prod.ext rfl h) ho), ?_, fun i t hi => ?_⟩⟩
    · rw [dwordsOf, List.length_map, List.length_range]
    · obtain ⟨hlt, -⟩ := List.getElem?_eq_some_iff.mp hi
      rw [State.barTargets_length h] at hlt
      rw [State.clear_hostByte, dwordsOf_byte (by omega), List.getD_eq_getElem?_getD, List.getElem?_map, hi]
      rfl
  · exact stepOrStay_some (evHostBar2Write_poisoned relaxed hm hb hs)
  · exact stepOrStay_some (evHostBar2Write_refused relaxed hm hb hs (Prod.ext rfl h))
  · exact ⟨fun ho => stepOrStay_none (evHostBar2Write_held relaxed hm hb hs (Prod.ext rfl h) ho), fun ho hp =>
      stepOrStay_some (evHostBar2Write_free relaxed hm hb hs (Prod.ext rfl h) ho hp)⟩

/-- Settles O45: each access of a host has an equation for each of its cases; what a read returns is the bytes of its targets, in dwords. -/
theorem virtualFunctionsAndWindows : Obligations.VirtualFunctionsAndWindows := ⟨virtualFunctions, hostWindow⟩

end Sys2Proof.Machine
end
